-- ==== Sys2Proof/Word.lean ====
section
/-! DEFINITION. The widths of the V832's words and the names of its agents and resources
(R6, R7, R14, R23, R86, R142). -/

namespace Sys2Proof

/-- A byte: the unit of every address space (R6). -/
abbrev Byte := BitVec 8

/-- A 32-bit register or instruction word (R45, R104). -/
abbrev Word := BitVec 32

/-- A 64-bit register, counter or synchronisation object (R45, R67, R379). -/
abbrev DWord := BitVec 64

/-- A scalar accumulator, or one vector accumulator element (R86, R164). -/
abbrev Acc := BitVec 40

/-- A vector register of VLEN bits (R142). -/
abbrev VReg := BitVec 2048

/-- A vector accumulator register: 128 elements of 40 bits (R86, R147). -/
abbrev VAcc := BitVec 5120

/-- A window register of the depthwise path: half A is the low 2,048 bits, half B the high (R170). -/
abbrev WinReg := BitVec 4096

/-- A logical core, 0 to 31 (R14). -/
abbrev LCore := Fin 32

/-- A physical core tile, 0 to 33; 32 and 33 are the spares S0 and S1 (R14). -/
abbrev Tile := Fin 34

/-- A context of a core (R75). -/
abbrev CtxId := Fin 4

/-- A partition, or its HBM3 stack (R15). -/
abbrev Part := Fin 4

/-- A function of the endpoint: 0 is PF0, 1 to 15 are VF1 to VF15 (R422). -/
abbrev Func := Fin 16

/-- A clock island, numbered as R23 gives. -/
abbrev Island := Fin 294

/-- Who makes a register access: a function, or system firmware (R9, R64, R67). -/
inductive Who where
  | func (f : Func)
  | firmware
  deriving DecidableEq, Repr

/-- The width of a BAR0 access (R45). -/
inductive AccSize where
  | b1 | b2 | b4 | b8
  deriving DecidableEq, Repr

end Sys2Proof
end

