-- ==== Sys2Proof/Operation.lean ====
section
/-! DEFINITION. The operations of a Zirnoip-2 bundle, grouped by operand shape (R86, R101, R106,
R108, R154). A bundle is a list of these; each one names a row of the opcode table through its
function code. -/

namespace Sys2Proof

/-- The register operations of R563 that take two data registers. -/
inductive AluFn where
  | add | sub | and | or | xor | sll | srl | sra | min | max | minu | maxu
  deriving DecidableEq, Repr

/-- The immediate operations of R564. -/
inductive AluImmFn where
  | addi | andi | ori | xori | slli | srli | srai
  deriving DecidableEq, Repr

/-- The scalar compares of R565. -/
inductive CmpFn where
  | eq | ne | lt | ltu | le | leu
  deriving DecidableEq, Repr

/-- The multiplies of R567. -/
inductive MulFn where
  | mul | mulh | mulhu
  deriving DecidableEq, Repr

/-- The scalar multiply-accumulates of R567. -/
inductive MacFn where
  | mac | macu | msu
  deriving DecidableEq, Repr

/-- The address compares of R568. -/
inductive CmpaFn where
  | eq | lt | le
  deriving DecidableEq, Repr

/-- The width of a scalar memory access (R103). -/
inductive MemSize where
  | byte | half | word
  deriving DecidableEq, Repr

/-- The operand fields of the LM layout: the addressing mode, the base, the offset and the index
register (R101, R106). -/
structure MemAddr where
  am : BitVec 3
  ab : BitVec 4
  off : BitVec 12
  dx : BitVec 5
  deriving DecidableEq, Repr

/-- The tagged accesses of R301. -/
inductive TagFn where
  | peek | take | stT | put
  deriving DecidableEq, Repr

/-- The operand fields of the tagged variant of the LM layout (R569). -/
structure TagAddr where
  am : BitVec 3
  ab : BitVec 4
  off : BitVec 9
  dx : BitVec 5
  deriving DecidableEq, Repr

/-- The count of a `loop`: a 16-bit immediate or a data register (R118, R570). -/
inductive LoopCount where
  | imm (n : BitVec 16)
  | reg (d : BitVec 5)
  deriving DecidableEq, Repr

/-- The synchronisation forms of R383. -/
inductive SyncFn where
  | add | set | cas | wait | rd
  deriving DecidableEq, Repr

/-- The element-wise integer operations of two vectors: major 0x1E and the two-source rows of
major 0x20 (R157). -/
inductive VIntFn where
  | add | sub | adds | addus | subs | subus | and | or | xor | min | max | minu | maxu
  | sll | sra | srl | mulq | mulh | avg
  deriving DecidableEq, Repr

/-- The operations of a vector with an immediate: major 0x1F (R157). -/
inductive VImmFn where
  | addi | slli | srai | srli | movi
  deriving DecidableEq, Repr

/-- The one-source rows of major 0x20, and the short `vmov` (R157, R108). -/
inductive VUnFn where
  | abs | neg | mov
  deriving DecidableEq, Repr

/-- The narrowing rows of major 0x20 (R157). -/
inductive VNarrowFn where
  | narrow | narrowu | narrowd
  deriving DecidableEq, Repr

/-- The multiply-accumulates of major 0x21 (R158). -/
inductive VMacFn where
  | h | hsu | huu | msuH | b | bsu | buu | msuB
  deriving DecidableEq, Repr

/-- The other rows of major 0x21 (R158). -/
inductive VAccFn where
  | clr | movVa | movVau
  deriving DecidableEq, Repr

/-- The floating-point arithmetic of major 0x22 (R165). -/
inductive VFpFn where
  | add | sub | mul | fma | fms | min | max | abs | neg
  deriving DecidableEq, Repr

/-- The vector compares of major 0x23 (R159). -/
inductive VCmpFn where
  | eq | lt | ltu | le | feq | flt
  deriving DecidableEq, Repr

/-- The predicate logic of major 0x23 (R159). -/
inductive PredFn where
  | and | or | xor | not | any | all
  deriving DecidableEq, Repr

/-- The cross-lane permutes of major 0x24 (R160). -/
inductive VPermFn where
  | perm | slideup | slidedn | zipLo | zipHi | unzipE | unzipO | rev | trn | bcast
  deriving DecidableEq, Repr

/-- The reductions and searches of major 0x25 (R161). -/
inductive VRedFn where
  | sum | sumu | max | min | maxi | mini | bexp | bexpAcc | fsum | fmaxi | fmini
  deriving DecidableEq, Repr

/-- The conversions of major 0x2C (R162). -/
inductive VCvtFn where
  | sW | wS | sBf | bfS | sE4 | sE5 | e4S | e5S | hB | hBu
  deriving DecidableEq, Repr

/-- The forms of a vector memory access (R172). -/
inductive VMemFn where
  | unit | strided | twoD | indexed
  deriving DecidableEq, Repr

/-- The address operand of the VM layout, and the offset of the short forms in units of VL bytes
(R154, R156). -/
inductive VOff where
  | imm (simm9 : BitVec 9)
  | reg (rx : BitVec 5) (scale : BitVec 2)
  | short (imm3 : BitVec 3)
  deriving DecidableEq, Repr

/-- One operation of a bundle. Register fields have the width of their class; `VOff`, `MemAddr` and
`TagAddr` hold the address fields. -/
inductive Op where
  | nop
  | alu (fn : AluFn) (rd rs1 rs2 : BitVec 5)
  | mov (rd rs : BitVec 5)
  | mfp (rd : BitVec 5) (p : BitVec 3)
  | mtp (p : BitVec 3) (rs : BitVec 5)
  | aluImm (fn : AluImmFn) (rd rs1 : BitVec 5) (imm : BitVec 14)
  | movi (rd : BitVec 5) (imm : BitVec 18)
  | movhi (rd : BitVec 5) (imm : BitVec 14)
  | cmp (fn : CmpFn) (pd : BitVec 3) (rs1 rs2 : BitVec 5)
  | mul (fn : MulFn) (rd rs1 rs2 : BitVec 5)
  | mac (fn : MacFn) (acc : BitVec 3) (rs1 rs2 : BitVec 5)
  | clrAcc (acc : BitVec 3)
  | movAccFrom (acc : BitVec 3) (rs : BitVec 5) (sh : BitVec 5)
  | movAcc (unsigned : Bool) (rd : BitVec 5) (acc : BitVec 3) (sh : BitVec 5)
  | adda (ad as1 : BitVec 4) (rs : BitVec 5)
  | addaImm (ad as1 : BitVec 4) (imm : BitVec 14)
  | suba (ad as1 : BitVec 4) (rs : BitVec 5)
  | movaD (ad : BitVec 4) (rs : BitVec 5)
  | movaA (ad as1 : BitVec 4)
  | movd (rd : BitVec 5) (as1 : BitVec 4)
  | cmpa (fn : CmpaFn) (pd : BitVec 3) (as1 as2 : BitVec 4)
  | load (size : MemSize) (rd : BitVec 5) (m : MemAddr)
  | store (size : MemSize) (rs : BitVec 5) (m : MemAddr)
  | tagged (fn : TagFn) (size : MemSize) (r : BitVec 5) (m : TagAddr)
  | br (p : BitVec 3) (neg : Bool) (soff : BitVec 20)
  | call (p : BitVec 3) (neg : Bool) (soff : BitVec 20)
  | ret
  | loop (k : BitVec 2) (count : LoopCount) (endOff : BitVec 17)
  | yield
  | fenceSp
  | fenceRm
  | ifl
  | ctxEnd
  | inp (rd : BitVec 5) (m : MemAddr)
  | out (rs : BitVec 5) (m : MemAddr)
  | inAt (rd : BitVec 5) (io : BitVec 20)
  | outAt (rs : BitVec 5) (io : BitVec 20)
  | outp (rs : BitVec 5) (io : BitVec 12)
  | mfsr (rd : BitVec 5) (sr : BitVec 5)
  | mtsr (sr : BitVec 5) (rs : BitVec 5)
  | tagmode (rs : BitVec 5) (operand : BitVec 14)
  | eret
  | ctxReset
  | irqOn
  | irqOff
  | crget (d : BitVec 5) (m : MemAddr)
  | crput (d : BitVec 5) (m : MemAddr)
  | sync (fn : SyncFn) (d : BitVec 5) (ab : BitVec 4) (off : BitVec 12)
  | mjob (d : BitVec 5) (m : MemAddr)
  | dma (d : BitVec 5) (m : MemAddr)
  | dmac (d : BitVec 5) (m : MemAddr)
  | sjob (d : BitVec 5) (m : MemAddr)
  | vint (fn : VIntFn) (vd vs1 vs2 : BitVec 5) (pg : BitVec 3) (w : BitVec 2)
  | vimm (fn : VImmFn) (vd vs1 : BitVec 5) (pg : BitVec 3) (w : BitVec 2) (imm : BitVec 6)
  | vun (fn : VUnFn) (vd vs1 : BitVec 5) (pg : BitVec 3) (w : BitVec 2)
  | vnarrow (fn : VNarrowFn) (vd : BitVec 5) (va : BitVec 3) (sh : BitVec 5) (pg : BitVec 3)
      (w : BitVec 2)
  | vmac (fn : VMacFn) (va : BitVec 3) (vs1 vs2 : BitVec 5) (pg : BitVec 3)
  | vacc (fn : VAccFn) (va : BitVec 3) (vs1 : BitVec 5) (sh : BitVec 5) (pg : BitVec 3)
  | vfp (fn : VFpFn) (vd vs1 vs2 : BitVec 5) (pg : BitVec 3) (w : BitVec 2)
  | vsetl (rd rs : BitVec 5) (sew g : BitVec 2)
  | vsetlR (rs : BitVec 5)
  | vgetl (rd : BitVec 5)
  | vcmp (fn : VCmpFn) (pd : BitVec 3) (vs1 vs2 : BitVec 5) (pg : BitVec 3) (w : BitVec 2)
  | pred (fn : PredFn) (pd ps1 ps2 : BitVec 3) (pg : BitVec 3) (w : BitVec 2)
  | pcnt (rd : BitVec 5) (ps : BitVec 3) (pg : BitVec 3) (w : BitVec 2)
  | vperm (fn : VPermFn) (vd vs1 vs2 : BitVec 5) (pg : BitVec 3) (w : BitVec 2)
  | vred (fn : VRedFn) (rd vs1 rd2 : BitVec 5) (pg : BitVec 3) (w : BitVec 2)
  | vcvt (fn : VCvtFn) (vd vs1 : BitVec 5) (pg : BitVec 3)
  | vext (rd vs1 rs : BitVec 5) (pg : BitVec 3) (w : BitVec 2)
  | vins (vd rs1 rs2 : BitVec 5) (pg : BitVec 3) (w : BitVec 2)
  | vlut (interp : Bool) (t : BitVec 1) (vd vs1 : BitVec 5) (pg : BitVec 3) (w : BitVec 2)
  | vlutMem (store : Bool) (t : BitVec 1) (ab : BitVec 4) (off : VOff)
  | vdwin (wr : BitVec 3) (vs : BitVec 5)
  | vdwmac (va : BitVec 3) (wr : BitVec 3) (v : BitVec 5) (k : BitVec 2) (dil : BitVec 2)
      (c32 u z : Bool)
  | vmem (fn : VMemFn) (store : Bool) (v : BitVec 5) (ab : BitVec 4) (pg : BitVec 3) (off : VOff)
  deriving DecidableEq, Repr

/-- How an instruction command names its bundle: the logical core whose RUNNING context issues it,
the second short operation of the first word when that word has the short format (none where the operation has its
word to itself: a long operation, or a short one beside a `nop`), and the further
words of the bundle as they stand in the instruction store (R78, R104, R110). The command's own
operands give the bundle's first operation; `width` is its W field where it is one of the predicate logic
(R145, R159), whose rows name no width. -/
structure Issue where
  core : LCore
  mate : Option (BitVec 15)
  rest : List Word
  width : BitVec 2
  deriving DecidableEq, Repr

end Sys2Proof
end

