-- ==== Sys2Proof/Message.lean ====
section
/-! DEFINITION. What the commands from outside carry: flits and peer requests of the Vabor ports
(R439, R446, R449), configuration requests (R422, R430), the images and messages of the management
network (R457, R458) and sensor readings (R501, R505). -/

namespace Sys2Proof

/-- A flit of a Vabor link (R439). The payload's first byte is bits [7:0]. -/
structure Flit where
  seq : BitVec 12
  ack : BitVec 12
  nak : Bool
  type : BitVec 3
  creditReq : BitVec 16
  creditResp : BitVec 16
  tag : BitVec 128
  payload : VReg
  crc : DWord
  deriving DecidableEq, Repr

/-- What the two devices exchange in IDENT (R442), with the neighbour's port (R453). -/
structure PeerIdent where
  peerId : BitVec 3
  domain : BitVec 16
  saggar : Bool
  serial : DWord
  port : BitVec 2
  deriving DecidableEq, Repr

/-- What a port's key-exchange flits carry (R471): the identity key and its endorsement, the link
key signed by the identity key, the owner and tenant hashes, and the ephemeral key signed by the
link key. -/
structure KeyExchange where
  identityKey : BitVec 776
  serial : DWord
  endorsement : BitVec 768
  linkKey : BitVec 776
  linkSig : BitVec 768
  ownerHash : BitVec 384
  tenantHash : BitVec 384
  ephemeralKey : BitVec 776
  ephemeralSig : BitVec 768
  deriving DecidableEq, Repr

/-- A request that arrives from a peer (R446, R447, R449). -/
inductive PeerOp where
  | write (dva : DWord) (data : List Byte)
  | read (dva : DWord) (len : BitVec 12)
  | signal (obj : BitVec 13) (set : Bool) (value : DWord)
  deriving DecidableEq, Repr

/-- A request that leaves for a peer (R446, R447). -/
inductive PacketOp where
  | write (raddr : DWord) (data : List Byte)
  | read (raddr : DWord) (len : Nat)
  | signal (obj : BitVec 13) (set : Bool) (value : DWord)
  deriving DecidableEq, Repr

/-- How the far end of a peer transfer answered (R447, R448): done, with the data of a READ and
whether it carried an uncorrectable mark; refused with a status; or RETRY. -/
inductive PeerAnswer where
  | done (data : List Byte) (marked : Bool)
  | refused (status : Byte)
  | retry
  deriving DecidableEq, Repr

/-- A configuration request (R422, R427, R403, R429): the SR-IOV, MSI-X, Resizable BAR and power-management
registers; a base address register, or with `vf` a VF's in PF0's SR-IOV capability, by `bar` 0, 1 and 2 for BAR0,
BAR2 and BAR4; Max Payload Size and the error-reporting enables of Device Control; the status registers of AER, of
which the bits written 1 are cleared, and its masks and severity; and a DOE Discovery request. -/
inductive CfgReq where
  | numVfs (n : BitVec 16)
  | vfEnable (on : Bool)
  | msixControl (enable maskAll : Bool)
  | bar2Size (log2GiB : BitVec 6)
  | power (d3hot : Bool)
  | bar (bar : Fin 3) (vf : Bool) (base : DWord)
  | maxPayload (code : BitVec 3)
  | errorReporting (correctable nonFatal fatal : Bool)
  | aerClear (uncorrectable correctable : Word)
  | aerMask (uncorrectable severity correctable : Word)
  | doeDiscovery (index : Byte)
  | other
  deriving DecidableEq, Repr

/-- The path of an SPDM session: the management network or PF0's DOE mailbox (R457, R459). -/
inductive SpdmPath where
  | management | doe
  deriving DecidableEq, Repr

end Sys2Proof
end

