-- ==== Sys2Proof/Syntax.lean ====
section
/-! DEFINITION. The commands: one constructor for every row of spec/opcode_table.json. A command is an
operation of a core program, an access by the host or by system firmware, a message, or an event;
its operands are what the row needs beyond the state. -/

namespace Sys2Proof

/-- The commands, in the order of the opcode table. -/
inductive Instr where
  /-- REGISTER_WRITE (R45) -/
  | registerWrite (w : Who) (bar4 : Bool) (addr : BitVec 25) (size : AccSize) (data : DWord)
  /-- BLK_ENABLE (R59) -/
  | blkEnable (w : Who) (page : BitVec 13)
  /-- BLK_DISABLE (R49) -/
  | blkDisable (w : Who) (page : BitVec 13)
  /-- CONSISTENCY_CHECK_DONE (R59) -/
  | consistencyCheckDone (page : BitVec 13) (sub : Option Func)
  /-- BLK_LOCK (R49) -/
  | blkLock (w : Who) (page : BitVec 13)
  /-- SOFT_RESET (R561) -/
  | softReset (w : Who) (page : BitVec 13)
  /-- IRQ_STATUS_CLEAR (R429) -/
  | irqStatusClear (w : Who) (page : BitVec 13) (bits : Word)
  /-- IRQ_FORCE (R53) -/
  | irqForce (w : Who) (page : BitVec 13) (bits : Word)
  /-- WO_VIOL_CLEAR (R64) -/
  | woViolClear (w : Who) (page : BitVec 13)
  /-- COUNTER_LOW_READ (R67) -/
  | counterLowRead (w : Who) (page : BitVec 13) (off : BitVec 12)
  /-- COUNTER_WRITE (R67) -/
  | counterWrite (w : Who) (page : BitVec 13) (off : BitVec 12) (size : AccSize)
      (data inc : DWord)
  /-- SNAP_TAKE (R71) -/
  | snapTake (w : Who) (page : BitVec 13)
  /-- SNAP_RELEASE (R70) -/
  | snapRelease (w : Who) (page : BitVec 13)
  /-- CHIP_SVC_STATE_READ (R41) -/
  | chipSvcStateRead (w : Who)
  /-- REMOTE_REQUEST (R298) -/
  | remoteRequest (core : LCore)
  /-- LOAD_DATA_ARRIVAL (R81) -/
  | loadDataArrival (core : LCore)
  /-- REMOTE_ACK (R132) -/
  | remoteAck (core : LCore)
  /-- STORE_BUFFER_DRAIN (R130) -/
  | storeBufferDrain (core : LCore)
  /-- FETCH_LINE_RETURN (R125) -/
  | fetchLineReturn (core : LCore) (ctx : Option CtxId) (line : BitVec 14)
  /-- JOB_ASSIGN (R373) -/
  | jobAssign
  /-- QUANTUM_EXPIRY (R79) -/
  | quantumExpiry (core : LCore)
  /-- CORE_IRQ (R135) -/
  | coreIrq (core : LCore) (ctx : CtxId)
  /-- CORE_STOP (R137) -/
  | coreStop (w : Who) (tile : Tile) (req : BitVec 4)
  /-- STOP_TAKEN (R137) -/
  | stopTaken (core : LCore) (ctx : CtxId)
  /-- CORE_CTX_RESET (R138) -/
  | coreCtxReset (w : Who) (tile : Tile) (ctx : CtxId)
  /-- NOP (R108) -/
  | nop (i : Issue)
  /-- ADD (R563) -/
  | add (i : Issue) (rd rs1 rs2 : BitVec 5)
  /-- SUB (R563) -/
  | sub (i : Issue) (rd rs1 rs2 : BitVec 5)
  /-- AND (R563) -/
  | and (i : Issue) (rd rs1 rs2 : BitVec 5)
  /-- OR (R563) -/
  | or (i : Issue) (rd rs1 rs2 : BitVec 5)
  /-- XOR (R563) -/
  | xor (i : Issue) (rd rs1 rs2 : BitVec 5)
  /-- SLL (R563) -/
  | sll (i : Issue) (rd rs1 rs2 : BitVec 5)
  /-- SRL (R563) -/
  | srl (i : Issue) (rd rs1 rs2 : BitVec 5)
  /-- SRA (R563) -/
  | sra (i : Issue) (rd rs1 rs2 : BitVec 5)
  /-- MIN (R563) -/
  | min (i : Issue) (rd rs1 rs2 : BitVec 5)
  /-- MAX (R563) -/
  | max (i : Issue) (rd rs1 rs2 : BitVec 5)
  /-- MINU (R563) -/
  | minu (i : Issue) (rd rs1 rs2 : BitVec 5)
  /-- MAXU (R563) -/
  | maxu (i : Issue) (rd rs1 rs2 : BitVec 5)
  /-- MOV (R563) -/
  | mov (i : Issue) (rd rs : BitVec 5)
  /-- MFP (R563) -/
  | mfp (i : Issue) (rd : BitVec 5) (p : BitVec 3)
  /-- MTP (R563) -/
  | mtp (i : Issue) (p : BitVec 3) (rs : BitVec 5)
  /-- ADDI (R564) -/
  | addi (i : Issue) (rd rs1 : BitVec 5) (imm : BitVec 14)
  /-- ANDI (R564) -/
  | andi (i : Issue) (rd rs1 : BitVec 5) (imm : BitVec 14)
  /-- ORI (R564) -/
  | ori (i : Issue) (rd rs1 : BitVec 5) (imm : BitVec 14)
  /-- XORI (R564) -/
  | xori (i : Issue) (rd rs1 : BitVec 5) (imm : BitVec 14)
  /-- SLLI (R564) -/
  | slli (i : Issue) (rd rs1 : BitVec 5) (amount : BitVec 5)
  /-- SRLI (R564) -/
  | srli (i : Issue) (rd rs1 : BitVec 5) (amount : BitVec 5)
  /-- SRAI (R564) -/
  | srai (i : Issue) (rd rs1 : BitVec 5) (amount : BitVec 5)
  /-- SH (R108) -/
  | sh (i : Issue) (rd : BitVec 4) (right : Bool) (amount : BitVec 5)
  /-- MOVI (R566) -/
  | movi (i : Issue) (rd : BitVec 5) (imm : BitVec 18)
  /-- MOVHI (R566) -/
  | movhi (i : Issue) (rd : BitVec 5) (imm : BitVec 14)
  /-- CMPEQ (R565) -/
  | cmpeq (i : Issue) (pd : BitVec 3) (rs1 rs2 : BitVec 5)
  /-- CMPNE (R565) -/
  | cmpne (i : Issue) (pd : BitVec 3) (rs1 rs2 : BitVec 5)
  /-- CMPLT (R565) -/
  | cmplt (i : Issue) (pd : BitVec 3) (rs1 rs2 : BitVec 5)
  /-- CMPLTU (R565) -/
  | cmpltu (i : Issue) (pd : BitVec 3) (rs1 rs2 : BitVec 5)
  /-- CMPLE (R565) -/
  | cmple (i : Issue) (pd : BitVec 3) (rs1 rs2 : BitVec 5)
  /-- CMPLEU (R565) -/
  | cmpleu (i : Issue) (pd : BitVec 3) (rs1 rs2 : BitVec 5)
  /-- MUL (R567) -/
  | mul (i : Issue) (rd rs1 rs2 : BitVec 5)
  /-- MULH (R567) -/
  | mulh (i : Issue) (rd rs1 rs2 : BitVec 5)
  /-- MULHU (R567) -/
  | mulhu (i : Issue) (rd rs1 rs2 : BitVec 5)
  /-- MAC (R567) -/
  | mac (i : Issue) (acc : BitVec 3) (rs1 rs2 : BitVec 5)
  /-- MACU (R567) -/
  | macu (i : Issue) (acc : BitVec 3) (rs1 rs2 : BitVec 5)
  /-- MSU (R567) -/
  | msu (i : Issue) (acc : BitVec 3) (rs1 rs2 : BitVec 5)
  /-- CLR_ACC (R567) -/
  | clrAcc (i : Issue) (acc : BitVec 3)
  /-- MOV_ACC_FROM_DATA (R567) -/
  | movAccFromData (i : Issue) (acc : BitVec 3) (rs sh : BitVec 5)
  /-- MOV_ACC (R567) -/
  | movAcc (i : Issue) (rd : BitVec 5) (acc : BitVec 3) (sh : BitVec 5)
  /-- MOV_ACCU (R567) -/
  | movAccu (i : Issue) (rd : BitVec 5) (acc : BitVec 3) (sh : BitVec 5)
  /-- ADDA (R568) -/
  | adda (i : Issue) (ad as1 : BitVec 4) (src : Sum (BitVec 5) (BitVec 14))
  /-- SUBA (R568) -/
  | suba (i : Issue) (ad as1 : BitVec 4) (rs : BitVec 5)
  /-- MOVA (R568) -/
  | mova (i : Issue) (ad : BitVec 4) (src : Sum (BitVec 5) (BitVec 4))
  /-- MOVD (R568) -/
  | movd (i : Issue) (rd : BitVec 5) (as1 : BitVec 4)
  /-- CMPA_EQ (R568) -/
  | cmpaEq (i : Issue) (pd : BitVec 3) (as1 as2 : BitVec 4)
  /-- CMPA_LT (R568) -/
  | cmpaLt (i : Issue) (pd : BitVec 3) (as1 as2 : BitVec 4)
  /-- CMPA_LE (R568) -/
  | cmpaLe (i : Issue) (pd : BitVec 3) (as1 as2 : BitVec 4)
  /-- LD_BU (R569) -/
  | ldBu (i : Issue) (rd : BitVec 5) (m : MemAddr)
  /-- LD_H (R569) -/
  | ldH (i : Issue) (rd : BitVec 5) (m : MemAddr)
  /-- LD_W (R569) -/
  | ldW (i : Issue) (rd : BitVec 5) (m : MemAddr)
  /-- ST_B (R569) -/
  | stB (i : Issue) (rs : BitVec 5) (m : MemAddr)
  /-- ST_H (R569) -/
  | stH (i : Issue) (rs : BitVec 5) (m : MemAddr)
  /-- ST_W (R569) -/
  | stW (i : Issue) (rs : BitVec 5) (m : MemAddr)
  /-- LD_PEEK (R301) -/
  | ldPeek (i : Issue) (size : MemSize) (r : BitVec 5) (m : TagAddr)
  /-- LD_TAKE (R301) -/
  | ldTake (i : Issue) (size : MemSize) (r : BitVec 5) (m : TagAddr)
  /-- ST_T (R301) -/
  | stT (i : Issue) (size : MemSize) (r : BitVec 5) (m : TagAddr)
  /-- ST_PUT (R301) -/
  | stPut (i : Issue) (size : MemSize) (r : BitVec 5) (m : TagAddr)
  /-- TAG_WAIT_SERVE (R302) -/
  | tagWaitServe (core : LCore) (slot : BitVec 14)
  /-- TAG_TIMEOUT (R305) -/
  | tagTimeout (core : LCore) (who : Sum CtxId (Fin 8))
  /-- TAG_CANCEL_REPLY (R305) -/
  | tagCancelReply (core : LCore) (ctx : CtxId)
  /-- REMOTE_RETRY_RESEND (R304) -/
  | remoteRetryResend (core : LCore)
  /-- BR (R570) -/
  | br (i : Issue) (p : BitVec 3) (neg : Bool) (soff : BitVec 20)
  /-- CALL (R570) -/
  | call (i : Issue) (p : BitVec 3) (neg : Bool) (soff : BitVec 20)
  /-- RET (R109) -/
  | ret (i : Issue)
  /-- LOOP (R118) -/
  | loop (i : Issue) (k : BitVec 2) (count : LoopCount) (endOff : BitVec 17)
  /-- YIELD (R77) -/
  | yield (i : Issue)
  /-- FENCE_SP (R132) -/
  | fenceSp (i : Issue)
  /-- FENCE_RM (R132) -/
  | fenceRm (i : Issue)
  /-- IFL (R128) -/
  | ifl (i : Issue)
  /-- CTX_END (R366) -/
  | ctxEnd (i : Issue)
  /-- IN (R571) -/
  | inp (i : Issue) (rd : BitVec 5) (m : MemAddr)
  /-- OUT (R571) -/
  | out (i : Issue) (rs : BitVec 5) (m : MemAddr)
  /-- OUT_P (R571) -/
  | outP (i : Issue) (rs : BitVec 5) (io : BitVec 12)
  /-- MFSR (R571) -/
  | mfsr (i : Issue) (rd sr : BitVec 5)
  /-- MTSR (R571) -/
  | mtsr (i : Issue) (sr rs : BitVec 5)
  /-- ERET (R84) -/
  | eret (i : Issue)
  /-- CTX_RESET (R572) -/
  | ctxReset (i : Issue)
  /-- IRQ_ON (R571) -/
  | irqOn (i : Issue)
  /-- IRQ_OFF (R571) -/
  | irqOff (i : Issue)
  /-- TAGMODE (R306) -/
  | tagmode (i : Issue) (rs : BitVec 5) (operand : BitVec 14)
  /-- SPAD_TREG_WRITE (R308) -/
  | spadTregWrite (i : Issue) (rs : BitVec 5) (region : BitVec 4) (high : Bool)
  /-- SPAD_MBX_WRITE (R308) -/
  | spadMbxWrite (i : Issue) (rs : BitVec 5) (mbx : BitVec 6) (high : Bool)
  /-- CR_CNT_WRITE (R309) -/
  | crCntWrite (i : Issue) (rs : BitVec 5) (mbx : BitVec 6)
  /-- CRGET (R310) -/
  | crget (i : Issue) (d : BitVec 5) (m : MemAddr)
  /-- CRPUT (R310) -/
  | crput (i : Issue) (d : BitVec 5) (m : MemAddr)
  /-- CREDIT_OP_REQUEST (R312) -/
  | creditOpRequest (core : LCore)
  /-- SYNC_ADD (R383) -/
  | syncAdd (i : Issue) (d : BitVec 5) (ab : BitVec 4) (off : BitVec 12)
  /-- SYNC_SET (R383) -/
  | syncSet (i : Issue) (d : BitVec 5) (ab : BitVec 4) (off : BitVec 12)
  /-- SYNC_CAS (R383) -/
  | syncCas (i : Issue) (d : BitVec 5) (ab : BitVec 4) (off : BitVec 12)
  /-- SYNC_WAIT (R383) -/
  | syncWait (i : Issue) (d : BitVec 5) (ab : BitVec 4) (off : BitVec 12)
  /-- SYNC_RD (R383) -/
  | syncRd (i : Issue) (d : BitVec 5) (ab : BitVec 4) (off : BitVec 12)
  /-- SYNC_BANK_OP (R379) -/
  | syncBankOp (bank : BitVec 2)
  /-- SYNC_REPLY (R383) -/
  | syncReply (core : LCore) (ctx : CtxId)
  /-- SYNC_TIMEOUT (R385) -/
  | syncTimeout (core : LCore) (ctx : CtxId)
  /-- VADD (R157) -/
  | vadd (i : Issue) (vd vs1 vs2 : BitVec 5) (pg : BitVec 3) (wd : BitVec 2)
  /-- VSUB (R157) -/
  | vsub (i : Issue) (vd vs1 vs2 : BitVec 5) (pg : BitVec 3) (wd : BitVec 2)
  /-- VADDS (R157) -/
  | vadds (i : Issue) (vd vs1 vs2 : BitVec 5) (pg : BitVec 3) (wd : BitVec 2)
  /-- VADDUS (R157) -/
  | vaddus (i : Issue) (vd vs1 vs2 : BitVec 5) (pg : BitVec 3) (wd : BitVec 2)
  /-- VSUBS (R157) -/
  | vsubs (i : Issue) (vd vs1 vs2 : BitVec 5) (pg : BitVec 3) (wd : BitVec 2)
  /-- VSUBUS (R157) -/
  | vsubus (i : Issue) (vd vs1 vs2 : BitVec 5) (pg : BitVec 3) (wd : BitVec 2)
  /-- VAND (R157) -/
  | vand (i : Issue) (vd vs1 vs2 : BitVec 5) (pg : BitVec 3) (wd : BitVec 2)
  /-- VOR (R157) -/
  | vor (i : Issue) (vd vs1 vs2 : BitVec 5) (pg : BitVec 3) (wd : BitVec 2)
  /-- VXOR (R157) -/
  | vxor (i : Issue) (vd vs1 vs2 : BitVec 5) (pg : BitVec 3) (wd : BitVec 2)
  /-- VMIN (R157) -/
  | vmin (i : Issue) (vd vs1 vs2 : BitVec 5) (pg : BitVec 3) (wd : BitVec 2)
  /-- VMAX (R157) -/
  | vmax (i : Issue) (vd vs1 vs2 : BitVec 5) (pg : BitVec 3) (wd : BitVec 2)
  /-- VMINU (R157) -/
  | vminu (i : Issue) (vd vs1 vs2 : BitVec 5) (pg : BitVec 3) (wd : BitVec 2)
  /-- VMAXU (R157) -/
  | vmaxu (i : Issue) (vd vs1 vs2 : BitVec 5) (pg : BitVec 3) (wd : BitVec 2)
  /-- VSLL (R157) -/
  | vsll (i : Issue) (vd vs1 vs2 : BitVec 5) (pg : BitVec 3) (wd : BitVec 2)
  /-- VSRA (R157) -/
  | vsra (i : Issue) (vd vs1 vs2 : BitVec 5) (pg : BitVec 3) (wd : BitVec 2)
  /-- VSRL (R157) -/
  | vsrl (i : Issue) (vd vs1 vs2 : BitVec 5) (pg : BitVec 3) (wd : BitVec 2)
  /-- VADDI (R157) -/
  | vaddi (i : Issue) (vd vs1 : BitVec 5) (pg : BitVec 3) (wd : BitVec 2) (imm : BitVec 6)
  /-- VSLLI (R157) -/
  | vslli (i : Issue) (vd vs1 : BitVec 5) (pg : BitVec 3) (wd : BitVec 2) (imm : BitVec 6)
  /-- VSRAI (R157) -/
  | vsrai (i : Issue) (vd vs1 : BitVec 5) (pg : BitVec 3) (wd : BitVec 2) (imm : BitVec 6)
  /-- VSRLI (R157) -/
  | vsrli (i : Issue) (vd vs1 : BitVec 5) (pg : BitVec 3) (wd : BitVec 2) (imm : BitVec 6)
  /-- VMOVI (R157) -/
  | vmovi (i : Issue) (vd : BitVec 5) (pg : BitVec 3) (wd : BitVec 2) (imm : BitVec 6)
  /-- VMOV (R108) -/
  | vmov (i : Issue) (vd vs1 : BitVec 4)
  /-- VMULQ (R157) -/
  | vmulq (i : Issue) (vd vs1 vs2 : BitVec 5) (pg : BitVec 3) (wd : BitVec 2)
  /-- VMULH (R157) -/
  | vmulh (i : Issue) (vd vs1 vs2 : BitVec 5) (pg : BitVec 3) (wd : BitVec 2)
  /-- VABS (R157) -/
  | vabs (i : Issue) (vd vs1 : BitVec 5) (pg : BitVec 3) (wd : BitVec 2)
  /-- VNEG (R157) -/
  | vneg (i : Issue) (vd vs1 : BitVec 5) (pg : BitVec 3) (wd : BitVec 2)
  /-- VNARROW (R157) -/
  | vnarrow (i : Issue) (vd : BitVec 5) (va : BitVec 3) (sh : BitVec 5) (pg : BitVec 3)
      (wd : BitVec 2)
  /-- VNARROWU (R157) -/
  | vnarrowu (i : Issue) (vd : BitVec 5) (va : BitVec 3) (sh : BitVec 5) (pg : BitVec 3)
      (wd : BitVec 2)
  /-- VNARROWD (R157) -/
  | vnarrowd (i : Issue) (vd : BitVec 5) (va : BitVec 3) (sh : BitVec 5) (pg : BitVec 3)
      (wd : BitVec 2)
  /-- VAVG (R157) -/
  | vavg (i : Issue) (vd vs1 vs2 : BitVec 5) (pg : BitVec 3) (wd : BitVec 2)
  /-- VMAC_H (R158) -/
  | vmacH (i : Issue) (va : BitVec 3) (vs1 vs2 : BitVec 5) (pg : BitVec 3)
  /-- VMAC_HSU (R158) -/
  | vmacHsu (i : Issue) (va : BitVec 3) (vs1 vs2 : BitVec 5) (pg : BitVec 3)
  /-- VMAC_HUU (R158) -/
  | vmacHuu (i : Issue) (va : BitVec 3) (vs1 vs2 : BitVec 5) (pg : BitVec 3)
  /-- VMSU_H (R158) -/
  | vmsuH (i : Issue) (va : BitVec 3) (vs1 vs2 : BitVec 5) (pg : BitVec 3)
  /-- VMAC_B (R158) -/
  | vmacB (i : Issue) (va : BitVec 3) (vs1 vs2 : BitVec 5) (pg : BitVec 3)
  /-- VMAC_BSU (R158) -/
  | vmacBsu (i : Issue) (va : BitVec 3) (vs1 vs2 : BitVec 5) (pg : BitVec 3)
  /-- VMAC_BUU (R158) -/
  | vmacBuu (i : Issue) (va : BitVec 3) (vs1 vs2 : BitVec 5) (pg : BitVec 3)
  /-- VMSU_B (R158) -/
  | vmsuB (i : Issue) (va : BitVec 3) (vs1 vs2 : BitVec 5) (pg : BitVec 3)
  /-- VCLR_ACC (R158) -/
  | vclrAcc (i : Issue) (va : BitVec 3) (pg : BitVec 3)
  /-- VMOV_VA (R158) -/
  | vmovVa (i : Issue) (va : BitVec 3) (vs1 sh : BitVec 5) (pg : BitVec 3)
  /-- VMOV_VAU (R158) -/
  | vmovVau (i : Issue) (va : BitVec 3) (vs1 sh : BitVec 5) (pg : BitVec 3)
  /-- VFADD (R165) -/
  | vfadd (i : Issue) (vd vs1 vs2 : BitVec 5) (pg : BitVec 3) (wd : BitVec 2)
  /-- VFSUB (R165) -/
  | vfsub (i : Issue) (vd vs1 vs2 : BitVec 5) (pg : BitVec 3) (wd : BitVec 2)
  /-- VFMUL (R165) -/
  | vfmul (i : Issue) (vd vs1 vs2 : BitVec 5) (pg : BitVec 3) (wd : BitVec 2)
  /-- VFMA (R165) -/
  | vfma (i : Issue) (vd vs1 vs2 : BitVec 5) (pg : BitVec 3) (wd : BitVec 2)
  /-- VFMS (R165) -/
  | vfms (i : Issue) (vd vs1 vs2 : BitVec 5) (pg : BitVec 3) (wd : BitVec 2)
  /-- VFMIN (R165) -/
  | vfmin (i : Issue) (vd vs1 vs2 : BitVec 5) (pg : BitVec 3) (wd : BitVec 2)
  /-- VFMAX (R165) -/
  | vfmax (i : Issue) (vd vs1 vs2 : BitVec 5) (pg : BitVec 3) (wd : BitVec 2)
  /-- VFABS (R165) -/
  | vfabs (i : Issue) (vd vs1 : BitVec 5) (pg : BitVec 3) (wd : BitVec 2)
  /-- VFNEG (R165) -/
  | vfneg (i : Issue) (vd vs1 : BitVec 5) (pg : BitVec 3) (wd : BitVec 2)
  /-- VSETL (R143) -/
  | vsetl (i : Issue) (rd rs : BitVec 5) (sew g : BitVec 2)
  /-- VSETL_R (R143) -/
  | vsetlR (i : Issue) (rs : BitVec 5)
  /-- VGETL (R143) -/
  | vgetl (i : Issue) (rd : BitVec 5)
  /-- VCMPEQ (R159) -/
  | vcmpeq (i : Issue) (pd : BitVec 3) (vs1 vs2 : BitVec 5) (pg : BitVec 3) (wd : BitVec 2)
  /-- VCMPLT (R159) -/
  | vcmplt (i : Issue) (pd : BitVec 3) (vs1 vs2 : BitVec 5) (pg : BitVec 3) (wd : BitVec 2)
  /-- VCMPLTU (R159) -/
  | vcmpltu (i : Issue) (pd : BitVec 3) (vs1 vs2 : BitVec 5) (pg : BitVec 3) (wd : BitVec 2)
  /-- VCMPLE (R159) -/
  | vcmple (i : Issue) (pd : BitVec 3) (vs1 vs2 : BitVec 5) (pg : BitVec 3) (wd : BitVec 2)
  /-- VFCMPEQ (R159) -/
  | vfcmpeq (i : Issue) (pd : BitVec 3) (vs1 vs2 : BitVec 5) (pg : BitVec 3) (wd : BitVec 2)
  /-- VFCMPLT (R159) -/
  | vfcmplt (i : Issue) (pd : BitVec 3) (vs1 vs2 : BitVec 5) (pg : BitVec 3) (wd : BitVec 2)
  /-- PAND (R159) -/
  | pand (i : Issue) (pd ps1 ps2 pg : BitVec 3)
  /-- POR (R159) -/
  | por (i : Issue) (pd ps1 ps2 pg : BitVec 3)
  /-- PXOR (R159) -/
  | pxor (i : Issue) (pd ps1 ps2 pg : BitVec 3)
  /-- PNOT (R159) -/
  | pnot (i : Issue) (pd ps1 pg : BitVec 3)
  /-- PANY (R159) -/
  | pany (i : Issue) (pd ps1 pg : BitVec 3)
  /-- PALL (R159) -/
  | pall (i : Issue) (pd ps1 pg : BitVec 3)
  /-- PCNT (R159) -/
  | pcnt (i : Issue) (rd : BitVec 5) (ps pg : BitVec 3)
  /-- VPERM (R160) -/
  | vperm (i : Issue) (vd vs1 vs2 : BitVec 5) (pg : BitVec 3) (wd : BitVec 2)
  /-- VSLIDEUP (R160) -/
  | vslideup (i : Issue) (vd vs1 vs2 : BitVec 5) (pg : BitVec 3) (wd : BitVec 2)
  /-- VSLIDEDN (R160) -/
  | vslidedn (i : Issue) (vd vs1 vs2 : BitVec 5) (pg : BitVec 3) (wd : BitVec 2)
  /-- VZIP_LO (R160) -/
  | vzipLo (i : Issue) (vd vs1 vs2 : BitVec 5) (pg : BitVec 3) (wd : BitVec 2)
  /-- VZIP_HI (R160) -/
  | vzipHi (i : Issue) (vd vs1 vs2 : BitVec 5) (pg : BitVec 3) (wd : BitVec 2)
  /-- VUNZIP_E (R160) -/
  | vunzipE (i : Issue) (vd vs1 vs2 : BitVec 5) (pg : BitVec 3) (wd : BitVec 2)
  /-- VUNZIP_O (R160) -/
  | vunzipO (i : Issue) (vd vs1 vs2 : BitVec 5) (pg : BitVec 3) (wd : BitVec 2)
  /-- VREV (R160) -/
  | vrev (i : Issue) (vd vs1 : BitVec 5) (pg : BitVec 3) (wd : BitVec 2)
  /-- VTRN (R160) -/
  | vtrn (i : Issue) (vd vs1 : BitVec 5) (pg : BitVec 3) (wd : BitVec 2)
  /-- VBCAST (R160) -/
  | vbcast (i : Issue) (vd vs1 : BitVec 5) (pg : BitVec 3) (wd : BitVec 2)
  /-- VREDSUM (R161) -/
  | vredsum (i : Issue) (rd vs1 : BitVec 5) (pg : BitVec 3) (wd : BitVec 2)
  /-- VREDSUMU (R161) -/
  | vredsumu (i : Issue) (rd vs1 : BitVec 5) (pg : BitVec 3) (wd : BitVec 2)
  /-- VREDMAX (R161) -/
  | vredmax (i : Issue) (rd vs1 : BitVec 5) (pg : BitVec 3) (wd : BitVec 2)
  /-- VREDMIN (R161) -/
  | vredmin (i : Issue) (rd vs1 : BitVec 5) (pg : BitVec 3) (wd : BitVec 2)
  /-- VMAXI (R161) -/
  | vmaxi (i : Issue) (rd vs1 rd2 : BitVec 5) (pg : BitVec 3) (wd : BitVec 2)
  /-- VMINI (R161) -/
  | vmini (i : Issue) (rd vs1 rd2 : BitVec 5) (pg : BitVec 3) (wd : BitVec 2)
  /-- VBEXP (R167) -/
  | vbexp (i : Issue) (rd vs1 : BitVec 5) (pg : BitVec 3) (wd : BitVec 2)
  /-- VBEXP_ACC (R167) -/
  | vbexpAcc (i : Issue) (rd : BitVec 5) (va : BitVec 3) (pg : BitVec 3)
  /-- VFREDSUM (R166) -/
  | vfredsum (i : Issue) (rd vs1 : BitVec 5) (pg : BitVec 3) (wd : BitVec 2)
  /-- VFMAXI (R161) -/
  | vfmaxi (i : Issue) (rd vs1 rd2 : BitVec 5) (pg : BitVec 3) (wd : BitVec 2)
  /-- VFMINI (R161) -/
  | vfmini (i : Issue) (rd vs1 rd2 : BitVec 5) (pg : BitVec 3) (wd : BitVec 2)
  /-- VCVT_S_W (R162) -/
  | vcvtSW (i : Issue) (vd vs1 : BitVec 5) (pg : BitVec 3)
  /-- VCVT_W_S (R162) -/
  | vcvtWS (i : Issue) (vd vs1 : BitVec 5) (pg : BitVec 3)
  /-- VCVT_S_BF (R162) -/
  | vcvtSBf (i : Issue) (vd vs1 : BitVec 5) (pg : BitVec 3)
  /-- VCVT_BF_S (R162) -/
  | vcvtBfS (i : Issue) (vd vs1 : BitVec 5) (pg : BitVec 3)
  /-- VCVT_S_E4 (R162) -/
  | vcvtSE4 (i : Issue) (vd vs1 : BitVec 5) (pg : BitVec 3)
  /-- VCVT_S_E5 (R162) -/
  | vcvtSE5 (i : Issue) (vd vs1 : BitVec 5) (pg : BitVec 3)
  /-- VCVT_E4_S (R162) -/
  | vcvtE4S (i : Issue) (vd vs1 : BitVec 5) (pg : BitVec 3)
  /-- VCVT_E5_S (R162) -/
  | vcvtE5S (i : Issue) (vd vs1 : BitVec 5) (pg : BitVec 3)
  /-- VEXT (R162) -/
  | vext (i : Issue) (rd vs1 rs : BitVec 5) (pg : BitVec 3) (wd : BitVec 2)
  /-- VINS (R162) -/
  | vins (i : Issue) (vd rs1 rs2 : BitVec 5) (pg : BitVec 3) (wd : BitVec 2)
  /-- VCVT_H_B (R162) -/
  | vcvtHB (i : Issue) (vd vs1 : BitVec 5) (pg : BitVec 3)
  /-- VCVT_H_BU (R162) -/
  | vcvtHBu (i : Issue) (vd vs1 : BitVec 5) (pg : BitVec 3)
  /-- VLUT (R169) -/
  | vlut (i : Issue) (t : BitVec 1) (vd vs1 : BitVec 5) (pg : BitVec 3) (wd : BitVec 2)
  /-- VLUT_I (R169) -/
  | vlutI (i : Issue) (t : BitVec 1) (vd vs1 : BitVec 5) (pg : BitVec 3) (wd : BitVec 2)
  /-- VLUTLD (R168) -/
  | vlutld (i : Issue) (t : BitVec 1) (ab : BitVec 4) (off : VOff)
  /-- VLUTST (R168) -/
  | vlutst (i : Issue) (t : BitVec 1) (ab : BitVec 4) (off : VOff)
  /-- VDWIN (R170) -/
  | vdwin (i : Issue) (wr : BitVec 3) (vs : BitVec 5)
  /-- VDWMAC (R171) -/
  | vdwmac (i : Issue) (va wr : BitVec 3) (v : BitVec 5) (k dil : BitVec 2) (c32 u z : Bool)
  /-- VLD (R172) -/
  | vld (i : Issue) (v : BitVec 5) (ab : BitVec 4) (pg : BitVec 3) (off : VOff)
  /-- VST (R172) -/
  | vst (i : Issue) (v : BitVec 5) (ab : BitVec 4) (pg : BitVec 3) (off : VOff)
  /-- STRIDED_LOAD (R172) -/
  | stridedLoad (i : Issue) (v : BitVec 5) (ab : BitVec 4) (pg : BitVec 3) (rx : BitVec 5)
  /-- STRIDED_STORE (R172) -/
  | stridedStore (i : Issue) (v : BitVec 5) (ab : BitVec 4) (pg : BitVec 3) (rx : BitVec 5)
  /-- LOAD_2D (R172) -/
  | load2d (i : Issue) (v : BitVec 5) (ab : BitVec 4) (pg : BitVec 3) (rx : BitVec 5)
  /-- STORE_2D (R172) -/
  | store2d (i : Issue) (v : BitVec 5) (ab : BitVec 4) (pg : BitVec 3) (rx : BitVec 5)
  /-- GATHER (R172) -/
  | gather (i : Issue) (v : BitVec 5) (ab : BitVec 4) (pg : BitVec 3) (vrx : BitVec 5)
      (scale : BitVec 2)
  /-- SCATTER (R172) -/
  | scatter (i : Issue) (v : BitVec 5) (ab : BitVec 4) (pg : BitVec 3) (vrx : BitVec 5)
      (scale : BitVec 2)
  /-- MJOB (R189) -/
  | mjob (i : Issue) (d : BitVec 5) (m : MemAddr)
  /-- MATRIX_JOB_START (R193) -/
  | matrixJobStart (core : LCore)
  /-- MATRIX_FEED_DONE (R205) -/
  | matrixFeedDone (core : LCore)
  /-- MATRIX_EPILOGUE (R210) -/
  | matrixEpilogue (core : LCore)
  /-- MATRIX_JOB_COMPLETE (R194) -/
  | matrixJobComplete (core : LCore)
  /-- MQ_ABORT (R197) -/
  | mqAbort (i : Issue) (rs : BitVec 5)
  /-- TRK_DATA_READ (R235) -/
  | trkDataRead (i : Issue) (rd : BitVec 5)
  /-- TRK_DATA_WRITE (R226) -/
  | trkDataWrite (i : Issue) (rs : BitVec 5)
  /-- TRK_STEP (R236) -/
  | trkStep (i : Issue) (rs : BitVec 5)
  /-- TRK_RESET (R236) -/
  | trkReset (i : Issue) (rs : BitVec 5)
  /-- SJOB (R264) -/
  | sjob (i : Issue) (d : BitVec 5) (m : MemAddr)
  /-- STRIPE_ACTIVATE (R268) -/
  | stripeActivate (core : LCore) (stream : Fin 8)
  /-- STRIPE_TRIG_TIMEOUT (R268) -/
  | stripeTrigTimeout (core : LCore) (stream : Fin 8)
  /-- SQ_TRIG (R273) -/
  | sqTrig (i : Issue) (rs : BitVec 5)
  /-- SQ_ABORT (R274) -/
  | sqAbort (i : Issue) (rs : BitVec 5)
  /-- WIND (R262) -/
  | wind (core : LCore) (stream : Fin 8)
  /-- STRIPE_COMPLETE (R271) -/
  | stripeComplete (core : LCore) (stream : Fin 8)
  /-- ECC_WRITE_BACK (R316) -/
  | eccWriteBack (tile : Tile) (addr : BitVec 24)
  /-- WATCH_HALVING (R318) -/
  | watchHalving (tile : Tile)
  /-- SPAD_RMAP_GO (R319) -/
  | spadRmapGo (w : Who) (tile : Tile) (data : Word)
  /-- REMAP_DONE (R319) -/
  | remapDone (tile : Tile)
  /-- SPAD_CLEAR (R321) -/
  | spadClear (w : Who) (tile : Tile)
  /-- CLEAR_DONE (R321) -/
  | clearDone (tile : Tile)
  /-- DMA (R332) -/
  | dma (i : Issue) (d : BitVec 5) (m : MemAddr)
  /-- DMAC (R332) -/
  | dmac (i : Issue) (d : BitVec 5) (m : MemAddr)
  /-- DMA_START (R331) -/
  | dmaStart (i : Issue) (rs : BitVec 5) (ch : Fin 8)
  /-- DMA_DISABLE (R350) -/
  | dmaDisable (i : Issue) (rs : BitVec 5) (ch : Fin 8)
  /-- DMA_KILL (R350) -/
  | dmaKill (w : Who) (tile : Tile) (kill : Byte)
  /-- DMA_RING (R343) -/
  | dmaRing (i : Issue) (rs : BitVec 5) (ch : Fin 8)
  /-- DMA_SELECT (R335) -/
  | dmaSelect (core : LCore)
  /-- DMA_WRITE_ACK (R345) -/
  | dmaWriteAck (core : LCore) (ch : Fin 8)
  /-- DMA_READBACK_DONE (R345) -/
  | dmaReadbackDone (core : LCore)
  /-- DMA_LINK_REREAD (R342) -/
  | dmaLinkReread (core : LCore) (ch : Fin 8)
  /-- DMA_HALF_POINT (R347) -/
  | dmaHalfPoint (core : LCore)
  /-- DMA_WRITE_TIMEOUT (R349) -/
  | dmaWriteTimeout (core : LCore) (ch : Fin 8)
  /-- DMA_DRAIN_END (R350) -/
  | dmaDrainEnd (core : LCore) (ch : Fin 8)
  /-- DOORBELL (R362) -/
  | doorbell (w : Who) (fn : Func) (k : BitVec 10) (value : Word)
  /-- RING_COMMIT (R358) -/
  | ringCommit (w : Who) (ring : BitVec 14)
  /-- RING_RUN (R359) -/
  | ringRun (w : Who) (ring : BitVec 14) (run : Bool)
  /-- RING_CANCEL (R360) -/
  | ringCancel (w : Who) (ring : BitVec 14)
  /-- RING_RESTART (R359) -/
  | ringRestart (w : Who) (ring : BitVec 14)
  /-- DESC_FETCH (R371) -/
  | descFetch
  /-- DESC_ARRIVAL (R365) -/
  | descArrival
  /-- DESC_SHED (R375) -/
  | descShed
  /-- JOB_EXPIRED (R365) -/
  | jobExpired (entry : Fin 1024)
  /-- WAIT_TIMEOUT (R365) -/
  | waitTimeout (entry : Fin 1024)
  /-- GATE_POLL (R384) -/
  | gatePoll (entry : Fin 1024)
  /-- AGE_WATERMARK (R376) -/
  | ageWatermark (ring : BitVec 14)
  /-- SYNC_VALUE_WRITE (R387) -/
  | syncValueWrite (w : Who) (obj : BitVec 13) (size : AccSize) (high : Bool) (data : DWord)
  /-- SYNC_ADDV_WRITE (R387) -/
  | syncAddvWrite (w : Who) (obj : BitVec 13) (size : AccSize) (high : Bool) (data : DWord)
  /-- SYNC_CAS_GO (R387) -/
  | syncCasGo (w : Who) (objPage : BitVec 6) (obj : BitVec 7)
  /-- SYNC_COMMIT (R390) -/
  | syncCommit (w : Who)
  /-- HBM_REQUEST (R409) -/
  | hbmRequest (part : Part) (ch : Func)
  /-- DAT_COMMIT (R402) -/
  | datCommit (w : Who)
  /-- DAT_RSV_COMMIT (R406) -/
  | datRsvCommit (w : Who) (part : Part)
  /-- DAT_INV (R400) -/
  | datInv (w : Who) (fn : BitVec 4) (all : Bool)
  /-- DAT_INV_DONE (R400) -/
  | datInvDone
  /-- HBM_REFRESH (R411) -/
  | hbmRefresh (part : Part) (ch : Func)
  /-- PATROL_SCRUB (R411) -/
  | patrolScrub (part : Part) (ch : Func)
  /-- BAR2_READ (R403) -/
  | bar2Read (fn : Func) (off : DWord) (len : BitVec 13)
  /-- BAR2_WRITE (R403) -/
  | bar2Write (fn : Func) (off : DWord) (data : List Byte)
  /-- CONFIG_REQUEST (R430) -/
  | configRequest (fn : Func) (req : CfgReq)
  /-- CONFIG_READY (R430) -/
  | configReady
  /-- MSIX_UNMASK (R429) -/
  | msixUnmask (fn : Func) (vec : BitVec 6)
  /-- FLR (R432) -/
  | flr (fn : Func)
  /-- PF0_FLR (R433) -/
  | pf0Flr
  /-- FLR_DONE (R437) -/
  | flrDone (fn : Func)
  /-- HOST_LOST (R434) -/
  | hostLost
  /-- HOST_RETURN (R436) -/
  | hostReturn
  /-- PERST_N (R477) -/
  | perstN
  /-- PEER_DETECTED (R441) -/
  | peerDetected (port : Fin 4) (lanes : BitVec 4)
  /-- PEER_TRAINED (R441) -/
  | peerTrained (port : Fin 4) (x8 : Bool)
  /-- PEER_IDENT (R442) -/
  | peerIdent (port : Fin 4) (peer : PeerIdent)
  /-- PEER_KEY_EXCHANGE (R471) -/
  | peerKeyExchange (port : Fin 4) (kx : KeyExchange)
  /-- PEER_RETRAIN (R441) -/
  | peerRetrain (w : Who) (port : Fin 4)
  /-- PEER_LINK_SILENCE (R441) -/
  | peerLinkSilence (port : Fin 4)
  /-- PEER_REDETECT (R441) -/
  | peerRedetect (port : Fin 4)
  /-- FLIT_RECEIVE (R440) -/
  | flitReceive (port : Fin 4) (flit : Flit)
  /-- FLIT_REPLAY_TIMEOUT (R440) -/
  | flitReplayTimeout (port : Fin 4)
  /-- KEY_ROLLOVER (R471) -/
  | keyRollover (port : Fin 4) (kx : KeyExchange)
  /-- TIME_EXCHANGE (R450) -/
  | timeExchange (port : Fin 4) (t1 t2 t3 t4 : DWord)
  /-- TIME_LOCK_LOST (R452) -/
  | timeLockLost
  /-- PEER_COMMIT (R453) -/
  | peerCommit (w : Who)
  /-- PQ_COMMIT (R453) -/
  | pqCommit (w : Who) (queue : Func)
  /-- PQ_RUN (R445) -/
  | pqRun (w : Who) (queue : Func) (run : Bool)
  /-- PQ_RESTART (R447) -/
  | pqRestart (w : Who) (queue : Func)
  /-- PEER_DESC_FETCH (R445) -/
  | peerDescFetch (queue : Func)
  /-- PEER_REQUEST (R449) -/
  | peerRequest (port : Fin 4) (tfunc : Func) (op : PeerOp)
  /-- PEER_DESC_COMPLETE (R447) -/
  | peerDescComplete (queue : Func) (answer : PeerAnswer)
  /-- PEER_XFER_TIMEOUT (R448) -/
  | peerXferTimeout (queue : Func)
  /-- RETRY_RESEND (R533) -/
  | retryResend (core : LCore)
  /-- GET_NONCE (R458) -/
  | getNonce
  /-- CLAIM (R456) -/
  | claim (key : BitVec 776) (sig : BitVec 768)
  /-- RELEASE (R455) -/
  | release (sig : BitVec 768)
  /-- ASSIGN_TENANT (R455) -/
  | assignTenant (key : BitVec 776) (saggar : Byte) (sig : BitVec 768)
  /-- END_TENANCY (R455) -/
  | endTenancy (sig : BitVec 768)
  /-- DEBUG_UNLOCK (R475) -/
  | debugUnlock (sig : BitVec 768)
  /-- GET_STATE (R458) -/
  | getState (path : SpdmPath)
  /-- SET_BOUNCE (R464) -/
  | setBounce (fn : BitVec 4) (regions : List (DWord × DWord))
  /-- KEY_LOAD (R473) -/
  | keyLoad (slot : Byte) (fmask : BitVec 16) (eph : BitVec 776) (iv : BitVec 96)
      (wrapped : BitVec 256) (tag : BitVec 128)
  /-- KEY_CLEAR (R458) -/
  | keyClear (slot : Byte)
  /-- TENANT_DUMP_READ (R458) -/
  | tenantDumpRead (part : Byte) (off : Word)
  /-- GET_CERTIFICATE (R470) -/
  | getCertificate (path : SpdmPath) (slot : BitVec 3)
  /-- CLAIM_WINDOW_CLOSE (R456) -/
  | claimWindowClose
  /-- WEDGING_ZERO_DONE (R460) -/
  | wedgingZeroDone
  /-- WEDGING_VERIFY_DONE (R460) -/
  | wedgingVerifyDone (failed : List (Fin 64))
  /-- POWER_ON (R477) -/
  | powerOn (peerId : BitVec 3) (mfgTest : Bool)
  /-- PWR_OK_FALL (R554) -/
  | pwrOkFall
  /-- BOOT_COMPLETE (R482) -/
  | bootComplete (badIslands : List Island) (badChannels : List (Fin 64))
  /-- TRIAL_TIMEOUT (R489) -/
  | trialTimeout
  /-- MGMT_WATCHDOG_EXPIRY (R484) -/
  | mgmtWatchdogExpiry
  /-- GET_INFO (R487) -/
  | getInfo (w : Who)
  /-- FW_WRITE (R487) -/
  | fwWrite (w : Who)
  /-- FW_COMMIT (R487) -/
  | fwCommit (w : Who)
  /-- FW_CANCEL (R487) -/
  | fwCancel (w : Who)
  /-- LOG_READ (R487) -/
  | logRead (w : Who)
  /-- DUMP_READ (R487) -/
  | dumpRead (w : Who)
  /-- MB_DONE (R486) -/
  | mbDone
  /-- CLOCK_CALIBRATION (R492) -/
  | clockCalibration (island : Island)
  /-- REF_LOST (R492) -/
  | refLost
  /-- SUPPLY_DROOP (R492) -/
  | supplyDroop (island : Island)
  /-- POWER_MEASURE (R500) -/
  | powerMeasure (milliwatts : Word)
  /-- POWER_LIMITER_TICK (R500) -/
  | powerLimiterTick
  /-- TEMP_SAMPLE (R501) -/
  | tempSample (island : Island) (temp : BitVec 12)
  /-- THERMAL_THROTTLE_TICK (R502) -/
  | thermalThrottleTick (tile : Tile)
  /-- HBM_TEMP_SAMPLE (R503) -/
  | hbmTempSample (part : Part) (degrees : BitVec 9)
  /-- REGULATOR_FAULT (R499) -/
  | regulatorFault (rail : Fin 13)
  /-- TED_CAP (R506) -/
  | tedCap (island : Island) (flags : Word)
  /-- FIRING_INTERVAL (R507) -/
  | firingInterval
  /-- FIRING_REQUEST (R507) -/
  | firingRequest (w : Who)
  /-- FIRING_GATE (R508) -/
  | firingGate (tile : Tile)
  /-- FORCED_GATING (R508) -/
  | forcedGating (island : Island)
  /-- ISLAND_SWEEP_DONE (R509) -/
  | islandSweepDone (island : Island) (cprlim0 cprlim1 : BitVec 12) (age : BitVec 16)
  /-- RAIL_SETTLED (R498) -/
  | railSettled (rail : Fin 13)
  /-- BIST_GO (R514) -/
  | bistGo (w : Who)
  /-- BIST_ABORT (R519) -/
  | bistAbort (w : Who)
  /-- BIST_DONE (R514) -/
  | bistDone (misr : DWord) (rows : List (Tile × BitVec 6 × Byte)) (failing : List Island)
  /-- CASTLING_COPY (R540) -/
  | castlingCopy (spare : Fin 2)
  /-- CASTLING_COMPLETE (R540) -/
  | castlingComplete (spare : Fin 2)
  /-- CASTLING_COPY_TIMEOUT (R542) -/
  | castlingCopyTimeout (spare : Fin 2)
  /-- CHECK_TIMER (R526) -/
  | checkTimer (core : LCore) (ctx : CtxId)
  /-- ENGINE_STALL (R527) -/
  | engineStall (core : LCore) (engine : BitVec 2)
  /-- HANG_DECLARATION (R529) -/
  | hangDeclaration (core : LCore) (who : Sum CtxId (BitVec 2))
  /-- PART_RECOVER (R544) -/
  | partRecover (w : Who) (part : Part)
  /-- PART_OFFLINE (R545) -/
  | partOffline (w : Who) (part : Part)
  /-- PART_ONLINE (R545) -/
  | partOnline (w : Who) (part : Part)
  /-- DUMP_ACK (R530) -/
  | dumpAck (w : Who) (part : Part)
  /-- RECOVERY_STEP_DONE (R532) -/
  | recoveryStepDone (part : Part)
  /-- RECOVERY_COMPLETE (R532) -/
  | recoveryComplete (part : Part) (lostChannels : List (Fin 64))
  /-- LOG_FLUSH (R523) -/
  | logFlush (severe : Bool)
  /-- LOG_ACK (R524) -/
  | logAck (w : Who) (seq : Word)
  /-- PERST_N_DEASSERT (R430) -/
  | perstNDeassert (peerId : BitVec 3) (mfgTest : Bool)
  /-- DMA_READ_RETURN (R345) -/
  | dmaReadReturn (core : LCore)
  /-- CREDIT_OP_REPLY (R311) -/
  | creditOpReply (core : LCore) (ctx : CtxId)
  /-- PEER_LANE_LOSS (R441) -/
  | peerLaneLoss (port : Fin 4)
  /-- REFERENCE_RESTORED (R492) -/
  | referenceRestored
  /-- SUPPLY_DROOP_END (R492) -/
  | supplyDroopEnd (island : Island)
  /-- FIRING_SKIP_RETRY (R510) -/
  | firingSkipRetry (tile : Tile)
  /-- SPDM_SESSION_ESTABLISH (R457) -/
  | spdmSessionEstablish (path : SpdmPath) (requester : Option (BitVec 776))
  deriving DecidableEq, Repr

end Sys2Proof
end

