-- ==== Sys2Proof/Config.lean ====
section
/-! DEFINITION. What an implementation fixes and what the specification leaves open: values with no
body, of which nothing can be proved (R12). -/

namespace Sys2Proof.Config

/-- An undefined byte; the index is the number of free values taken before. -/
opaque freeByte : Nat → Byte

/-- An undefined word. -/
opaque freeWord : Nat → Word

/-- An undefined choice. -/
opaque freeBool : Nat → Bool

/-- An undefined value of `w` bits. -/
opaque freeBits (w : Nat) : Nat → BitVec w

/-- The AES-256 key stream of a counter block under a key and IV (R340, R402): GCM's counter mode. -/
opaque keyStream (key : BitVec 256) (iv : BitVec 96) (block : Nat) : BitVec 128

/-- The AES-256-GCM tag of additional data and ciphertext under a key and IV (R340, R473). -/
opaque gcmTag (key : BitVec 256) (iv : BitVec 96) (aad cipher : List Byte) : BitVec 128

/-- EXCBASE, JOBENTRY and KSTACK as system firmware sets them at boot and recovery, by tile and context
(R482, R532). -/
opaque excbase (tile ctx : Nat) : BitVec 20

opaque jobentry (tile ctx : Nat) : BitVec 20

opaque kstack (tile ctx : Nat) : Word

/-- The bytes of a partition's instruction store (R124), the core runtime's among them (R482): no register and
no command of the specification writes a program there. -/
opaque codeByte (part addr : Nat) : Byte

/-- SHA-384 (R456, R465, R467). -/
opaque sha384 (bytes : List Byte) : BitVec 384

/-- ECDSA on P-384 over SHA-384 of a message: the signature verifies under the public key (R457). -/
opaque ecdsaOk (key : BitVec 776) (message : List Byte) (sig : BitVec 768) : Bool

/-- The device-identity CA key in the mask ROM (R465). -/
opaque caKey : BitVec 776

/-- The AES-256 block cipher (R419). -/
opaque aes256 (key : BitVec 256) (block : BitVec 128) : BitVec 128

/-- The memory key, the private identity and link keys, and the identity endorsement that the fuses hold (R465). -/
opaque memoryKey : BitVec 256

opaque identityKey : BitVec 384

opaque linkKey : BitVec 384

opaque endorsement : BitVec 768

/-- Xanpol's identity certificate for the device (R470), which is delivered outside the device. -/
opaque identityCertificate : List Byte

/-- The uncompressed public key of a private key on P-384 (R465, R471, R473). -/
opaque publicKey (priv : BitVec 384) : BitVec 776

/-- The x-coordinate of ECDH on P-384 (R471, R473). -/
opaque ecdh (priv : BitVec 384) (pub : BitVec 776) : BitVec 384

/-- An ECDSA signature on P-384 over SHA-384 of a message (R465, R471). -/
opaque ecdsaSign (priv : BitVec 384) (message : List Byte) : BitVec 768

/-- The device at the other end of a port of another device, while that port is ACTIVE, as system firmware has it when it
writes the routes (R443, R444): how it learns of links that are not its own device's is not given. -/
opaque farLink (n : Nat) (device : BitVec 3) (port : Nat) : Option (BitVec 3)

/-- The devices that the packets in a flit's payload are for, each with whether the packet is marked odd (R439, R444): the
layout of a packet is not given. -/
opaque packetsFor (payload : BitVec 2048) : List (BitVec 3 × Bool)

/-- The serial of a reachable device that is no neighbour. -/
opaque farSerial (d : BitVec 3) : DWord

/-- The 64-bit serial of this device (R465). -/
opaque serial : DWord

/-- The bytes of section `kind` of crash dump number `serial`, by what the section holds: the layout is not given (R531). -/
opaque dumpSection {α : Type} (serial kind : Nat) (contents : α) : List Byte

/-- An island does not answer the collection of crash dump number `serial` within 10 µs (R531). -/
opaque silentIsland (serial island : Nat) : Bool

/-- The bytes of the region of crash dump number `serial` that its layout leaves out (R531). -/
opaque dumpByte (serial offset : Nat) : Byte

/-- The byte at an offset of the image that slot A leaves the factory with (R478). -/
opaque factoryByte (offset : Nat) : Byte

/-- The fit of CPRLIM at VMAX, in MHz by global time in ns, as a − b × t^0.25 (R513), whose method is not given: a and b in
units of 2^-16 MHz, with t in days. -/
opaque wearFit (points : List (Nat × Nat)) : Int × Int

/-- Xanpol's firmware signing key, whose hash the fuses hold (R479). -/
opaque fwKey : BitVec 776

/-- CRC-32 of bytes (R511, R522, R531). -/
opaque crc32 (bytes : List Byte) : Word

/-- BLK_CAP of a page, whose fields no chapter defines (R48). -/
opaque blkCap (page : Nat) : Word

/-- BLK_CAP of a function's page in its VF's view (R427). -/
opaque fnCap (func : Nat) : Word

end Sys2Proof.Config
end

