-- ==== Sys2Proof/Machine/Bits.lean ====
section
/-! DEFINITION. Bit fields, sign extension, saturation, little-endian bytes and lanes (R6, R7, R13). -/

namespace Sys2Proof.Machine

/-- The field of `len` bits whose lowest bit is `lo`. -/
def fld {n : Nat} (x : BitVec n) (lo len : Nat) : BitVec len := x.extractLsb' lo len

/-- Bit `i`. -/
def bit {n : Nat} (x : BitVec n) (i : Nat) : Bool := x.getLsbD i

/-- `x` with the field at `lo` replaced by `v`. -/
def setFld {n len : Nat} (x : BitVec n) (lo : Nat) (v : BitVec len) : BitVec n :=
  (x &&& ~~~((BitVec.allOnes len).setWidth n <<< lo)) ||| (v.setWidth n <<< lo)

/-- `x` with bit `i` set to `b`. -/
def setBit {n : Nat} (x : BitVec n) (i : Nat) (b : Bool) : BitVec n :=
  if b then x ||| BitVec.twoPow n i else x &&& ~~~BitVec.twoPow n i

/-- A Boolean as a field. -/
def b2v (n : Nat) (b : Bool) : BitVec n := if b then 1 else 0

/-- A Boolean as a number. -/
def b2n (b : Bool) : Nat := if b then 1 else 0

/-- sat(x, lo, hi) (R13). -/
def sat (lo hi x : Int) : Int := if x < lo then lo else if hi < x then hi else x

/-- `x` saturated to the signed range of `w` bits. -/
def satS (w : Nat) (x : Int) : BitVec w :=
  BitVec.ofInt w (sat (-(2 ^ (w - 1) : Int)) (2 ^ (w - 1) - 1) x)

/-- `x` saturated to the unsigned range of `w` bits. -/
def satU (w : Nat) (x : Int) : BitVec w := BitVec.ofInt w (sat 0 (2 ^ w - 1) x)

/-- Division by 2^n rounding to the nearest integer, ties to even (R13). -/
def rneShift (x : Int) (n : Nat) : Int :=
  let q := x / 2 ^ n
  let r := x % 2 ^ n
  if n = 0 then x
  else if 2 * r < 2 ^ n then q
  else if 2 ^ n < 2 * r then q + 1
  else if q % 2 = 0 then q else q + 1

/-- The quotient of `x` by positive `d` rounded to the nearest integer, ties to even (R13). -/
def rneDiv (x : Int) (d : Nat) : Int :=
  let q := x / d
  let r := x % d
  if 2 * r < d then q
  else if (d : Int) < 2 * r then q + 1
  else if q % 2 = 0 then q else q + 1

/-- The `n` bytes of `v`, lowest first (R6). -/
def leBytes {w : Nat} (v : BitVec w) : Nat → List Byte
  | 0 => []
  | n + 1 => v.setWidth 8 :: leBytes (v >>> 8) n

/-- The number whose bytes are `bs`, lowest first (R6). -/
def ofLe : List Byte → Nat
  | [] => 0
  | b :: bs => b.toNat + 256 * ofLe bs

/-- The word of `w` bits whose bytes are `bs`, lowest first. -/
def leVal (w : Nat) (bs : List Byte) : BitVec w := BitVec.ofNat w (ofLe bs)

/-- `n` lanes of `w` bits, lane 0 lowest. -/
def lanes {m : Nat} (w : Nat) (v : BitVec m) (n : Nat) : List (BitVec w) :=
  (List.range n).map fun i => v.extractLsb' (w * i) w

/-- The number that packs lanes of `w` bits, lane 0 lowest. -/
def packNat {w : Nat} : List (BitVec w) → Nat
  | [] => 0
  | b :: bs => b.toNat + 2 ^ w * packNat bs

/-- The vector of `m` bits that packs lanes, lane 0 lowest. -/
def pack {w : Nat} (m : Nat) (ls : List (BitVec w)) : BitVec m := BitVec.ofNat m (packNat ls)

/-- The vector of `m` bits whose lane `i` of `w` bits is `f i`, for `n` lanes. -/
def tabulate {w : Nat} (m n : Nat) (f : Nat → BitVec w) : BitVec m := pack m ((List.range n).map f)

/-- The vector of bits whose bit `i` is `f i`, for `n` bits. -/
def bitsOf (m n : Nat) (f : Nat → Bool) : BitVec m :=
  tabulate m n fun i => b2v 1 (f i)

/-- The first index below `n`, from `start` and wrapping, at which `p` holds: round robin. -/
def roundRobin (n start : Nat) (p : Nat → Bool) : Option Nat :=
  ((List.range n).map fun i => (start + i) % n).find? p

/-- The first index below `n` at which `p` holds. -/
def firstIdx (n : Nat) (p : Nat → Bool) : Option Nat := (List.range n).find? p

/-- How many indices below `n` satisfy `p`. -/
def countIdx (n : Nat) (p : Nat → Bool) : Nat := ((List.range n).filter p).length

/-- The element of a list at `i`, or `d`. -/
def listAt {α : Type} (d : α) (l : List α) (i : Nat) : α := l.getD i d

end Sys2Proof.Machine
end

