-- ==== Sys2Proof/Machine/Tab.lean ====
section
/-! DEFINITION. Sparse tables by number: a list of key and value pairs with rising keys in which no
entry holds the table's default. Memories, register files of many entries, pages, rings and objects
are all tables; equal tables are equal lists. -/

namespace Sys2Proof.Machine

/-- A sparse table. A memory is a table of bytes, that is a list of `Host.Cell`. -/
abbrev Tab (α : Type) := List (Nat × α)

/-- What stands at key `k`; `d` where nothing is listed. -/
def Tab.get {α : Type} (d : α) : Tab α → Nat → α
  | [], _ => d
  | (j, v) :: t, k => if j = k then v else Tab.get d t k

/-- The table without key `k`. -/
def Tab.erase {α : Type} : Tab α → Nat → Tab α
  | [], _ => []
  | (j, v) :: t, k => if j = k then Tab.erase t k else (j, v) :: Tab.erase t k

/-- The table with `v` listed at key `k`, in rising order. -/
def Tab.insert {α : Type} : Tab α → Nat → α → Tab α
  | [], k, v => [(k, v)]
  | (j, u) :: t, k, v =>
    if k < j then (k, v) :: (j, u) :: t
    else if k = j then (k, v) :: t
    else (j, u) :: Tab.insert t k v

/-- The table with `v` at key `k`; a default value is not listed. -/
def Tab.set {α : Type} [DecidableEq α] (d : α) (t : Tab α) (k : Nat) (v : α) : Tab α :=
  if v = d then Tab.erase t k else Tab.insert t k v

/-- The table with the entry at `k` changed by `f`. -/
def Tab.mod {α : Type} [DecidableEq α] (d : α) (t : Tab α) (k : Nat) (f : α → α) : Tab α :=
  Tab.set d t k (f (Tab.get d t k))

/-- The table with the keys from `lo`, `n` of them, back at the default. -/
def Tab.clearRange {α : Type} (t : Tab α) (lo n : Nat) : Tab α :=
  t.filter fun e => !(decide (lo ≤ e.1) && decide (e.1 < lo + n))

/-- Every listed entry changed by `f`. -/
def Tab.mapVals {α : Type} [DecidableEq α] (d : α) (f : Nat → α → α) : Tab α → Tab α
  | [] => []
  | (k, v) :: t => if f k v = d then Tab.mapVals d f t else (k, f k v) :: Tab.mapVals d f t

/-- The values from key `k` on, `n` of them. -/
def Tab.range {α : Type} (d : α) (t : Tab α) (k : Nat) : Nat → List α
  | 0 => []
  | n + 1 => Tab.get d t k :: Tab.range d t (k + 1) n

/-- The table with `vs` at the keys from `k` on. -/
def Tab.setRange {α : Type} [DecidableEq α] (d : α) : Tab α → Nat → List α → Tab α
  | t, _, [] => t
  | t, k, v :: vs => Tab.setRange d (Tab.set d t k v) (k + 1) vs

/-- The canonical form: keys strictly rising, no default listed. -/
def Tab.wf {α : Type} [DecidableEq α] (d : α) : Tab α → Bool
  | [] => true
  | [(_, v)] => decide (v ≠ d)
  | (j, v) :: (k, u) :: t => decide (v ≠ d) && decide (j < k) && Tab.wf d ((k, u) :: t)

end Sys2Proof.Machine
end

