-- ==== Sys2Proof/Machine/PageState.lean ====
section
/-! DEFINITION. What a BAR0 page holds: the header, staged and live configuration, write-once state,
counters and the snapshot (R46 to R72). -/

namespace Sys2Proof.Machine

/-- Which consistency check runs on a page: of BLK_CTRL.ENABLE, or of a table commit (R59). -/
inductive Check where
  | enable | dat | rsv | sync | peer | ring (k : Fin 16) | pq (f : Func)
  deriving DecidableEq, Repr

/-- A write held while a check runs (R57). -/
structure HeldWrite where
  who : Who
  off : BitVec 12
  size : AccSize
  data : DWord
  deriving DecidableEq, Repr

/-- VIOL_INFO (R64). -/
structure Viol where
  offset : BitVec 12 := 0
  func : Func := 0
  firmware : Bool := false
  kind : BitVec 2 := 0
  count : Byte := 0
  deriving DecidableEq, Repr

/-- A register page. `staged` holds every RW, staged and write-once word the page's table names, as
reads return it; `live` the configuration in force; both by byte offset, and a word that stands at its
reset value is not listed. Counters go by their index in the page's counter list (R68). -/
structure Page where
  enable : Bool := false
  lock : Bool := false
  active : Bool := false
  refused : Bool := false
  refuseCode : Byte := 0
  checking : List Check := []
  woViol : Bool := false
  irqStatus : Word := 0
  irqEnable : Word := 0
  errSummary : Word := 0
  viol : Viol := {}
  held : List HeldWrite := []
  /-- LOCK waits for the check that the same write started (R50). -/
  lockNext : Bool := false
  staged : Tab Word := []
  live : Tab Word := []
  written : List (BitVec 12) := []
  counters : Tab DWord := []
  ovf : DWord := 0
  snapHeld : Bool := false
  snapSeq : Word := 0
  snapshot : Tab DWord := []
  snapOvf : DWord := 0
  latch : Tab Word := []
  deriving DecidableEq, Repr

end Sys2Proof.Machine
end

