-- ==== Sys2Proof/Machine/PageMap.lean ====
section
/-! DEFINITION. The map of BAR0: which block a page serves, which of its words are RW, staged or
write-once and with what reset value, and where its counters lie (R43, R44, R47, R48, R56, R68). -/

namespace Sys2Proof.Machine

/-- The block a page serves (R43); `fn` is a function's own page, which stands in its view alone (R425, R427). -/
inductive PageClass where
  | chip | mgmt | sec | part (p : Nat) | dat (p : Nat) | peer (q : Nat) | pcie | clk | pwr | bist
  | memc (i : Nat) | disp | sync
  | core (t : Nat) | dma (t : Nat) | mtx (t : Nat) | spad (t : Nat) | stripe (t : Nat)
  | island (t : Nat) | perf (t : Nat)
  | syncObj (k : Nat) | ring (k : Nat) | fn (f : Nat)
  deriving DecidableEq, Repr

/-- The block that page `P` serves; none for an unpopulated page (R43, R44). -/
def pageClass (P : Nat) : Option PageClass :=
  if P = 0x0000 then some .chip
  else if P = 0x0001 then some .mgmt
  else if P = 0x0002 then some .sec
  else if 0x0004 ≤ P ∧ P ≤ 0x0007 then some (.part (P - 0x0004))
  else if 0x0010 ≤ P ∧ P ≤ 0x0013 then some (.dat (P - 0x0010))
  else if 0x0020 ≤ P ∧ P ≤ 0x0023 then some (.peer (P - 0x0020))
  else if P = 0x0028 then some .pcie
  else if P = 0x0030 then some .clk
  else if P = 0x0031 then some .pwr
  else if P = 0x0032 then some .bist
  else if 0x0040 ≤ P ∧ P ≤ 0x007F then some (.memc (P - 0x0040))
  else if P = 0x0090 then some .disp
  else if P = 0x00A0 then some .sync
  else if 0x0400 ≤ P ∧ P < 0x0400 + 16 * 34 then
    let t := (P - 0x0400) / 16
    match (P - 0x0400) % 16 with
    | 0 => some (.core t)
    | 1 => some (.dma t)
    | 2 => some (.mtx t)
    | 3 => some (.spad t)
    | 4 => some (.stripe t)
    | 5 => some (.island t)
    | 6 => some (.perf t)
    | _ => none
  else if 0x0C00 ≤ P ∧ P ≤ 0x0C3F then some (.syncObj (P - 0x0C00))
  else if 0x1000 ≤ P ∧ P ≤ 0x13FF then some (.ring (P - 0x1000))
  else none

/-- The number of the page that serves a block (R43). A function page has none in the map: 0x1FF0 + f, which the map leaves
unpopulated, stands for it. -/
def pageNo : PageClass → Nat
  | .chip => 0x0000
  | .mgmt => 0x0001
  | .sec => 0x0002
  | .part p => 0x0004 + p
  | .dat p => 0x0010 + p
  | .peer q => 0x0020 + q
  | .pcie => 0x0028
  | .clk => 0x0030
  | .pwr => 0x0031
  | .bist => 0x0032
  | .memc i => 0x0040 + i
  | .disp => 0x0090
  | .sync => 0x00A0
  | .core t => 0x0400 + 16 * t
  | .dma t => 0x0401 + 16 * t
  | .mtx t => 0x0402 + 16 * t
  | .spad t => 0x0403 + 16 * t
  | .stripe t => 0x0404 + 16 * t
  | .island t => 0x0405 + 16 * t
  | .perf t => 0x0406 + 16 * t
  | .syncObj k => 0x0C00 + k
  | .ring k => 0x1000 + k
  | .fn f => 0x1FF0 + f

/-- How a configuration word takes effect (R9, R56): when written, at an ENABLE check, at the commit
of its table, or once after reset. -/
inductive RegKind where
  | immediate | staged | table | once
  deriving DecidableEq, Repr

/-- A configuration word: the bits a write changes, its reset value and its kind. -/
structure RegInfo where
  mask : Word
  reset : Word
  kind : RegKind
  deriving DecidableEq, Repr

/-- The configuration words of the pages outside the ring records: the RW, staged and write-once rows
of the register tables (R138, R291, R323, R389, R390, R402, R453, R485, R517 to R519, R544). -/
def regInfo (c : PageClass) (off : Nat) : Option RegInfo :=
  match c with
  | .core _ => if off = 0x080 then some ⟨0xFFFFFF, 4096, .staged⟩ else none
  | .stripe _ => if off = 0x050 then some ⟨0xFFFFFF, 10000, .staged⟩ else none
  | .spad _ =>
    if off = 0x040 then some ⟨0xFFFFFF, 10000, .staged⟩
    else if off = 0x044 then some ⟨0xFFFF, 0x1004, .staged⟩
    else if off = 0x048 then some ⟨0x1FF, 0, .immediate⟩
    else if off = 0x050 then some ⟨0x3FFF, 0, .immediate⟩
    else none
  | .disp =>
    if 0x040 ≤ off ∧ off < 0x080 ∧ off % 4 = 0 then some ⟨0x7FFFF, 0x40001, .staged⟩
    else if off = 0x080 then some ⟨0xFFFFFF, 10000, .staged⟩
    else none
  | .sync =>
    if 0x040 ≤ off ∧ off < 0x080 ∧ off % 4 = 0 then some ⟨0x1FFF, 0, .table⟩ else none
  | .syncObj _ =>
    if off = 0x040 then some ⟨0x7F, 0, .immediate⟩
    else if 0x048 ≤ off ∧ off < 0x058 ∧ off % 4 = 0 then some ⟨0xFFFFFFFF, 0, .immediate⟩
    else none
  | .dat p =>
    if 0x200 ≤ off ∧ off < 0x240 ∧ off % 4 = 0 then some ⟨0x3FF, 0, .table⟩
    else if p ≠ 0 then none
    else if off = 0x040 then some ⟨1, 0, .once⟩
    else if off = 0x050 then some ⟨0x1F, 0, .immediate⟩
    else if 0x100 ≤ off ∧ off < 0x200 then
      match off % 16 with
      | 0 => some ⟨0x8FFFFFFF, 0, .table⟩
      | 4 => some ⟨0x7FFFF, 0, .table⟩
      | 8 => some ⟨0x7FFFF, 0, .table⟩
      | _ => none
    else none
  | .peer q =>
    if q ≠ 0 then none
    else if off = 0x060 then some ⟨0xFFFF0, 0, .table⟩
    else if off = 0x064 then some ⟨0xFFFF, 0, .table⟩
    else if off = 0x06C then some ⟨0xFFFFFF, 100000, .table⟩
    else if 0x200 ≤ off ∧ off < 0x400 then
      match off % 32 with
      | 0 => some ⟨0xFFFFF000, 0, .table⟩
      | 4 => some ⟨0xFFFFFFFF, 0, .table⟩
      | 8 => some ⟨0x3FFFF, 0, .table⟩
      | _ => none
    else none
  | .mgmt =>
    if off = 0x080 then some ⟨0xFFFFF, 0, .immediate⟩
    else if off = 0x084 then some ⟨0xFFFFFFFF, 0, .immediate⟩
    else if 0x800 ≤ off ∧ off % 4 = 0 then some ⟨0xFFFFFFFF, 0, .immediate⟩
    else none
  | .clk => if off = 0x044 then some ⟨0xFF0F1F, 0x100606, .staged⟩ else none
  | .pwr => if off = 0x040 then some ⟨0x3FF, 450, .staged⟩ else none
  | .bist =>
    if off = 0x040 then some ⟨0x1FFFFF, 0, .immediate⟩
    else if off = 0x044 then some ⟨0xFFFFFF, 0, .immediate⟩
    else if 0x048 ≤ off ∧ off < 0x058 ∧ off % 4 = 0 then some ⟨0xFFFFFFFF, 0, .immediate⟩
    else none
  | .part p =>
    if off = 0x048 then some ⟨0x3FFF, 50, .staged⟩
    else if p ≠ 0 then none
    else if off = 0x088 then some ⟨0xFFFFFFFF, 0, .immediate⟩
    else if off = 0x090 then some ⟨0xFFE00001, 0, .staged⟩
    else if off = 0x094 then some ⟨0xFFFFFFFF, 0, .staged⟩
    else if off = 0x09C then some ⟨0xFFFFFFFF, 0, .immediate⟩
    else none
  | _ => none

/-- The reset value of a configuration word; 0 where the page has none. -/
def regReset (c : PageClass) (off : Nat) : Word :=
  match regInfo c off with
  | some r => r.reset
  | none => 0

/-- The widths of counters (R67, R69): 64 bits wrapping or saturating, 48 bits, 32 bits saturating. -/
inductive CounterKind where
  | wrap64 | sat64 | perf48 | sat32
  deriving DecidableEq, Repr

/-- The counters of a page by byte offset, in the order of their CNT_OVF bits (R68). -/
def counterList (c : PageClass) : List (Nat × CounterKind) :=
  let w (n : Nat) := (List.range n).map fun i => (0x100 + 8 * i, CounterKind.wrap64)
  match c with
  | .core _ => w 7 ++ [(0x138, .sat64)]
  | .mtx _ => w 7
  | .stripe _ => w 7
  | .spad _ =>
    [(0x100, .sat32), (0x104, .sat32), (0x108, .sat32)]
      ++ (List.range 7).map fun i => (0x110 + 8 * i, CounterKind.wrap64)
  | .dma _ => w 8
  | .disp => w 6
  | .sync => w 4
  | .dat _ => [(0x300, .wrap64), (0x308, .wrap64), (0x310, .wrap64)]
  | .perf _ => [(0x100, .perf48), (0x108, .perf48), (0x110, .perf48)]
  | .memc _ =>
    [(0x100, .wrap64), (0x108, .wrap64), (0x110, .sat32), (0x118, .wrap64), (0x120, .wrap64),
      (0x128, .wrap64), (0x130, .wrap64)]
  | .pcie =>
    [(0x100, .sat32), (0x108, .wrap64), (0x110, .wrap64), (0x118, .wrap64), (0x120, .wrap64)]
  | .peer q => if q ≠ 0 then [] else
    [(0x100, .wrap64), (0x108, .wrap64), (0x110, .sat32), (0x118, .wrap64), (0x120, .wrap64),
      (0x128, .wrap64), (0x130, .wrap64)]
  | .clk =>
    w 2 ++ (List.range 44).map fun j => (0x400 + 32 * (j / 2) + 0x14 + 4 * (j % 2), .sat32)
  | .island _ =>
    (List.range 16).map fun j => (0x040 + 32 * (j / 2) + 0x14 + 4 * (j % 2), .sat32)
  | .pwr => w 3
  | .part p => w (if p = 0 then 9 else 7)
  | _ => []

/-- The CNT_OVF register of a page (R68). -/
def ovfOffset (c : PageClass) : Option Nat :=
  match c with
  | .core _ => some 0x140
  | .mtx _ | .stripe _ => some 0x138
  | .spad _ => some 0x148
  | .dma _ => some 0x140
  | .disp => some 0x130
  | .sync => some 0x120
  | .dat _ => some 0x318
  | .perf _ => some 0x118
  | .memc _ => some 0x138
  | .pcie => some 0x128
  | .peer q => if q = 0 then some 0x138 else none
  | .clk => some 0x140
  | .island _ => some 0x140
  | .pwr => some 0x118
  | .part _ => some 0x148
  | _ => none

/-- The IRQ_STATUS bits that a page has (R53, R54): its block's bits and, except on CHIP and SEC,
VIOL. -/
def irqMask (c : PageClass) : Word :=
  match c with
  | .chip => 0x7
  | .sec => 0x3
  | .mgmt => 0x80000007
  | .part p => if p = 0 then 0x8000001F else 0x8000000F
  | .dat _ => 0x80000007
  | .peer q => if q = 0 then 0x8000000F else 0x80000007
  | .pcie => 0x80000007
  | .clk => 0x80000007
  | .pwr => 0x8000001F
  | .bist => 0x80000001
  | .memc _ => 0x80000007
  | .disp => 0x80000003
  | .sync => 0x80000001
  | .core _ => 0x8000000F
  | .dma _ => 0x81FFFFFF
  | .mtx _ => 0x80000003
  | .spad _ => 0x8000001F
  | .stripe _ => 0x80000007
  | .island _ => 0x80000001
  | .perf _ => 0x80000001
  | .syncObj _ => 0x80000000
  | .ring _ => 0x80000000
  | .fn _ => 0

/-- The PF0 vector that a page's interrupt raises (R428). -/
def pageVector (c : PageClass) : Nat :=
  match c with
  | .chip | .mgmt | .sec | .pcie | .clk | .pwr | .bist => 0
  | .part p | .dat p => 1 + p
  | .memc i => 1 + i / 16
  | .core t | .dma t | .mtx t | .spad t | .stripe t | .island t | .perf t =>
    if t < 32 then 1 + t / 8 else 5
  | .disp | .sync | .syncObj _ | .ring _ | .fn _ => 6
  | .peer _ => 7

/-- BLK_CTRL of these pages is written by system firmware alone (R421, R437, R485, R516). -/
def fwOnlyCtrl (c : PageClass) : Bool :=
  match c with
  | .mgmt | .pcie | .memc _ | .island _ => true
  | _ => false

/-- BLK_CTRL is read-only on the CHIP and SEC pages (R51). -/
def roCtrl (c : PageClass) : Bool :=
  match c with
  | .chip | .sec => true
  | _ => false

end Sys2Proof.Machine
end

