-- ==== Sys2Proof/Machine/MeshState.lean ====
section
/-! DEFINITION. What travels on the mesh between cores (R93, R298 to R314) and to the memory
channels (R94, R409): requests in the order they were sent, and their answers. -/

namespace Sys2Proof.Machine

/-- Which engine of a core sent a request: a context, or a DMA channel. -/
inductive Agent where
  | ctx (c : CtxId)
  | dma (ch : Fin 8)
  deriving DecidableEq, Repr

/-- What a request over the mesh asks of its target core. Addresses are local to the target;
`issued` is the D-space address as the sender wrote it (R314). The bytes that a masked write leaves
alone are `none` (R148, R176); `want` tells which bytes of a read the sender's elements name, all where the
list ends (R173). `dmaRead` and `dmaWrite` are the accesses of a tagged DMA channel to a slot of another core: the
first of them to a slot waits for its tag there, the last changes it (R301, R304, R351). -/
inductive MeshBody where
  | read (id pos addr len : Nat) (want : List Bool)
  | write (addr : Nat) (data : List (Option Byte)) (issued : Word)
  | tagged (op : Nat) (fn : TagFn) (size : MemSize) (addr : Nat) (data issued : Word)
  | cancel
  | credit (op : Nat) (put : Bool) (mbx : BitVec 6) (data : Word)
  | dmaRead (pos addr len slot : Nat) (first last : Bool)
  | dmaWrite (addr : Nat) (data : List (Option Byte)) (issued : Word) (slot : Nat) (first last : Bool)
  deriving DecidableEq, Repr

/-- A request over the mesh: sending logical core and agent, the function it acts for (R313), and
the target core. -/
structure MeshReq where
  src : LCore
  agent : Agent
  func : Func
  dst : LCore
  body : MeshBody
  deriving DecidableEq, Repr

/-- The answer to a request, at the core that sent it; `landed` names the write of a DMA channel that a memory channel has
performed, by its first byte. -/
inductive MeshAns where
  | data (id pos : Nat) (bytes : List Byte) (marks : List Bool)
  | written
  | landed (pos : Nat)
  | refused (cause : Byte) (issued : Word)
  | tagged (op : Nat) (value : Word) (marked : Bool) (issued : Word)
  | taggedRefused (op : Nat) (issued : Word)
  | cancelled
  | credit (op : Nat) (result : Word)
  | lost
  deriving DecidableEq, Repr

/-- An answer on its way to a core. -/
structure MeshResp where
  dst : LCore
  agent : Agent
  ans : MeshAns
  deriving DecidableEq, Repr

/-- Whose access a request to a memory channel is (R401, R409); a DMA write is known by its first byte. `gone` is a write
whose sender has been reset since: nothing waits for its answer (R533). -/
inductive HbmAgent where
  | gone (lc : LCore) (agent : Agent)
  | load (lc : LCore) (c : CtxId) (id pos : Nat)
  | store (lc : LCore) (c : CtxId)
  | dmaRead (lc : LCore) (ch : Fin 8) (line : Nat)
  | dmaWrite (lc : LCore) (ch : Fin 8) (pos : Nat)
  deriving DecidableEq, Repr

/-- A translated request waiting for a slot of its channel (R409); `data` for a write; `old` marks one
whose translation a DAT_INV has dropped since (R400). -/
structure HbmReq where
  agent : HbmAgent
  func : Func
  dpa : Nat
  len : Nat
  data : Option (List (Option Byte))
  part : Part
  old : Bool
  deriving DecidableEq, Repr

/-- A request that a context sends beyond its core (R81, R176). -/
inductive FarReq where
  | mesh (r : MeshReq)
  | hbm (r : HbmReq)
  deriving DecidableEq, Repr

/-- Where a load writes what it reads: a data register; a data register for a tagged load in an HBM window,
which zero-extends and is an acquire (R132, R301); the active elements of a group of `g` registers whose
elements are `w` bits wide (R81, R176); or the results of its bundle, at a place, where the load must be performed
before the bundle's other accesses (R115, R132). -/
inductive LoadDst where
  | data (rd : BitVec 5) (size : MemSize)
  | acquire (rd : BitVec 5) (size : MemSize)
  | vec (v : BitVec 5) (g w : Nat) (act : VReg)
  | place (pos : Nat) (size : MemSize) (tagged : Bool)
  deriving DecidableEq, Repr

/-- A remote or HBM load whose data has not all arrived: `reqs` are its requests without an answer, each by
the first element it covers and whether it goes to HBM. `pc` is its bundle's address, `dad` its address as
issued, `bad` the lowest element that came with a mark. -/
structure Load where
  id : Nat
  ctx : CtxId
  dst : LoadDst
  reqs : List (Nat × Bool)
  pc : BitVec 20
  dad : Word
  bad : Option Nat
  deriving DecidableEq, Repr

/-- An entry of the store buffer (R130): its 64-byte block, the bytes it holds by local address, and
the contexts that wrote it. -/
structure SbEntry where
  block : Nat
  bytes : Tab (Option Byte)
  owners : List CtxId
  deriving DecidableEq, Repr

/-- A line of the instruction store as a fetch has read it (R125, R126): its number and its 16 words. -/
structure FetchLine where
  line : Nat
  words : List Word
  deriving DecidableEq, Repr

/-- An entry of the branch-target buffer (R127): the branch, its target, and the target's first line. -/
structure BtbEntry where
  branch : Nat
  target : Nat
  line : FetchLine
  deriving DecidableEq, Repr

/-- A tag region (R300, R307). -/
structure TReg where
  first : BitVec 14 := 0
  count : BitVec 15 := 0
  tagged : Bool := false
  deriving DecidableEq, Repr

/-- A mailbox and its credit word (R307, R309). -/
structure Mbx where
  base : BitVec 24 := 0
  size : BitVec 16 := 0
  sender : BitVec 6 := 0
  func : BitVec 4 := 0
  en : Bool := false
  credit : BitVec 16 := 0
  grant : BitVec 16 := 0
  deriving DecidableEq, Repr

/-- A row of the watch table (R318). -/
structure WatchRow where
  bank : BitVec 6
  row : Byte
  count : Nat
  deriving DecidableEq, Repr

/-- A nominated repair row, which system firmware remaps at the next job completion, or at once where the remap is
forced; `forced` marks a row whose remap is due, for either reason (R318). -/
structure Nominee where
  bank : BitVec 6
  row : Byte
  forced : Bool
  deriving DecidableEq, Repr

/-- An entry of a bank's remap table (R323). -/
structure RemapEntry where
  row : Byte
  fused : Bool
  deriving DecidableEq, Repr

end Sys2Proof.Machine
end

