-- ==== Sys2Proof/Machine/BoardState.lean ====
section
/-! DEFINITION. The board and its service (R21 to R41), the endpoint (R422 to R437), the memory
system (R391 to R421) and the persistent log and trace (R522 to R525). -/

namespace Sys2Proof.Machine

/-- CORE_MAP[n] (R25); RANK and FILE follow from the tile. -/
structure MapEntry where
  tile : Tile
  castled : Bool
  out : Bool
  mtxOut : Bool
  deriving DecidableEq, Repr

/-- CHIP_SPARE.STATE (R28). -/
inductive SpareState where
  | idle | copying | castled | testing | failed
  deriving DecidableEq, Repr

/-- CHIP_SPARE[s] (R28), with the step of R540 a castling has reached, whether it is a return
castling (R29), and whether a firing has taken it to sweep the core's own tile (R508). -/
structure Spare where
  state : SpareState := .idle
  lcore : LCore := 0
  retest : Bool := false
  step : BitVec 3 := 0
  back : Bool := false
  fire : Bool := false
  deriving DecidableEq, Repr

/-- CHIP_SVC_STATE.STATE (R34). -/
inductive SvcState where
  | boot | ready | degraded | failed
  deriving DecidableEq, Repr

/-- The service registers (R37 to R39). -/
structure Svc where
  state : SvcState := .boot
  parts : BitVec 4 := 0
  cause : Byte := 0
  seq : Byte := 0
  count : Word := 0
  part : Vector Word 4 := Vector.replicate 4 0
  deriving DecidableEq, Repr

/-- The board (R14 to R41). `castle` holds the castle-table entry of each spare: the logical core
routed to it (R21); `mtxSaved` names cores whose MTX page the driver had enabled when the array failed
(R541). -/
structure Board where
  map : Vector MapEntry 32
  gen : Word := 0
  spares : Vector Spare 2 := Vector.replicate 2 {}
  castle : Vector (Option LCore) 2 := Vector.replicate 2 none
  mtxSaved : List LCore := []
  svc : Svc := {}
  latch : Tab (List Word) := []
  islandsOut : List Island := []
  channelsOut : List (Fin 64) := []
  mesh : List MeshReq := []
  answers : List MeshResp := []
  /-- Requests answered RETRY, held by the sender's router or port (R304, R533). -/
  retried : List MeshReq := []
  deriving DecidableEq, Repr

/-- The severity of an error (R422, PCI Express): correctable, non-fatal, fatal. -/
inductive ErrKind where
  | correctable | nonFatal | fatal
  deriving DecidableEq, Repr

/-- A message the endpoint issues (R422, R423, R429, R430). -/
inductive Sent where
  | msix (f : Func) (vec : BitVec 6)
  | drs
  | crs
  | poisoned
  | error (f : Func) (k : ErrKind)
  deriving DecidableEq, Repr

/-- Advanced Error Reporting and the reporting enables of a function (R422). The layout and the reset values are
PCI Express's (PRESUMED). -/
structure Aer where
  uncorr : Word := 0
  uncorrMask : Word := 0x00400000
  severity : Word := 0x00462030
  corr : Word := 0
  corrMask : Word := 0x00002000
  report : Vector Bool 3 := Vector.replicate 3 false
  deriving DecidableEq, Repr

/-- The endpoint (R422 to R437). `bars` holds the base addresses of PF0's BAR0, BAR2 and BAR4 and then of the VFs',
0 where none is assigned; `mps` Max Payload Size as PCI Express codes it. MSI-X tables go by 64 × function + vector; `sent` is the model's own
record of what has left the device, newest first. -/
structure Endpoint where
  dlUp : Bool := false
  speed : BitVec 3 := 0
  width : BitVec 5 := 0
  lost : Bool := false
  returned : Bool := false
  needFlr : BitVec 16 := 0
  cfgReady : Bool := false
  numVfs : BitVec 16 := 0
  vfEnable : Bool := false
  d3hot : BitVec 16 := 0
  bars : Tab DWord := []
  mps : BitVec 3 := 0
  aer : Tab Aer := []
  msixEn : BitVec 16 := 0
  maskAll : BitVec 16 := 0
  flr : BitVec 16 := 0
  bar2Log : Vector (BitVec 3) 16 := Vector.replicate 16 4
  unmask : Tab Bool := []
  /-- The address and data words of the MSI-X tables (R424), by 4 × (64 × function + vector) + word. -/
  msixTable : Tab Word := []
  pba : Tab Bool := []
  cond : Tab Bool := []
  sent : List Sent := []
  /-- The data of the latest host or firmware read, the model's own output. -/
  rdata : DWord := 0
  rbytes : List Byte := []
  deriving DecidableEq, Repr

/-- A cached translation (R400): the page of a function, 2 MiB or 64 KiB. -/
structure TlbEntry where
  func : Func
  big : Bool
  page : Nat
  writable : Bool
  dpa : Nat
  deriving DecidableEq, Repr

/-- One translation unit and its stack (R402 to R411): cached translations, latest refusal, thermal
share, token buckets, the deficit condition as last evaluated, self-refresh and heat. -/
structure DatUnit where
  tlb : List TlbEntry := []
  faultDva : DWord := 0
  faultInfo : Word := 0
  therm : Nat := 256
  bucket : Vector Nat 16 := Vector.replicate 16 0
  bucketTime : DWord := 0
  deficit : Bool := false
  set : List (Fin 16) := List.finRange 16
  selfRefresh : Bool := false
  hot : Bool := false
  temp : Nat := 0
  deriving DecidableEq, Repr

/-- One channel's own state (R404, R409, R411, R415): the function last served in round robin, the scrub
position with the time its pass began, the slots since its scrub came last, the times of the correctable errors of each
row, the rows repaired, and the reads that have waited through its latest pause. -/
structure Channel where
  rr : Nat := 0
  scrubPos : BitVec 25 := 0
  scrubFrom : DWord := 0
  behind : Bool := false
  uncorrAddr : DWord := 0
  slots : Nat := 0
  rowErrors : Tab (List DWord) := []
  repairs : List Nat := []
  paused : List HbmAgent := []
  deriving DecidableEq, Repr

/-- The memory system. `mem` goes by device physical address; `marks` and `faults`, a correctable error that no read has
found yet, by line. -/
structure Hbm where
  mem : Tab Byte := []
  marks : Tab Bool := []
  faults : Tab Bool := []
  queue : List HbmReq := []
  units : Vector DatUnit 4 := Vector.replicate 4 {}
  channels : Tab Channel := []
  wide : Bool := false
  modeLatched : Bool := false
  invBusy : Bool := false
  deriving DecidableEq, Repr

/-- A record of the persistent log (R522). -/
structure LogRec where
  seq : Word
  cls : BitVec 3
  ack : Bool
  code : Byte
  page : BitVec 16
  island : BitVec 9
  func : BitVec 4
  count : BitVec 16
  first : DWord
  last : DWord
  addr : DWord
  info0 : DWord
  info1 : DWord
  flushed : Bool
  deriving DecidableEq, Repr

/-- The log by place, as held by the management controller and as flash holds it (R522, R523), and the
trace ring's write count (R525). -/
structure Journal where
  places : Tab (Option LogRec) := []
  flash : Tab (Option LogRec) := []
  /-- Places of the flash whose record fails its CRC (R483). -/
  spoiled : List Nat := []
  seq : Word := 0
  traceWptr : Word := 0
  /-- Trace entries that wait for their place in HBM. -/
  traceHeld : List (List Byte) := []
  deriving DecidableEq, Repr

end Sys2Proof.Machine
end

