-- ==== Sys2Proof/Machine/ClockState.lean ====
section
/-! DEFINITION. Clock islands, rails, power, temperature, firing, the kiln log and BIST (R491 to
R519). -/

namespace Sys2Proof.Machine

/-- An island (R505, R509, R515): its set point, gating, temperature, wear and margin; `lim0` and `lim1`
are CPRLIM at the two voltages of its last sweep, `v0` and `v1` in mV; `swept` the temperature and time of
that sweep; `flags` the detector events since the previous firing. -/
structure Isl where
  fset : BitVec 11 := 1600
  gated : Bool := false
  temp : BitVec 12 := 0
  age : BitVec 16 := 0
  lim0 : BitVec 12 := 0
  lim1 : BitVec 12 := 0
  v0 : Nat := 0
  v1 : Nat := 0
  swept : Option (BitVec 12 × DWord) := none
  days : BitVec 16 := 0xFFFF
  warn : Bool := false
  failed : Bool := false
  tedcap : BitVec 11 := 1900
  droop : Bool := false
  flags : Nat := 0
  /-- Swept, and by a forced gating, in the present firing (R511). -/
  isSwept : Bool := false
  forced : Bool := false
  /-- FSET and AGE at its last entry in the kiln log (R512). -/
  entry : BitVec 11 × BitVec 16 := (0, 0)
  deriving DecidableEq, Repr

/-- The state of a rail (R497, R518): set and measured voltage in mV, and the voltage it slews to. -/
structure Rail where
  set : BitVec 12 := 0
  meas : BitVec 12 := 0
  goal : Option (BitVec 12) := none
  deriving DecidableEq, Repr

/-- CLK_FIRING_CTRL.SCOPE (R517): a partition, the islands on VDD_SYS, or one island. -/
inductive FireGroup where
  | part (p : Part) | system | island (i : Island)
  deriving DecidableEq, Repr

/-- A firing asked for (R507): the groups it covers, whether it is full, and its cause. -/
structure FireReq where
  groups : List FireGroup
  full : Bool
  cause : Byte
  deriving DecidableEq, Repr

/-- A firing under way: its request, the group it is at, the groups to come, the islands of the group not
yet swept, the voltage and the set points that wait for rails (R498, R509), and what the rails and set points were before
(R510). -/
structure Firing where
  req : FireReq
  group : FireGroup
  rest : List FireGroup
  todo : List Island
  choice : Option (Nat × List (Island × BitVec 11))
  number : Word
  undo : List (Fin 13 × BitVec 12) × List (Island × BitVec 11) := ([], [])
  deriving DecidableEq, Repr

/-- A record of the kiln log (R511): a summary with its cause and rail voltages, or island entries of 64
bits. -/
inductive KilnBody where
  | summary (cause : Byte) (rails : List (BitVec 12)) (records : Nat)
  | islands (entries : List DWord)
  deriving DecidableEq, Repr

/-- A kiln record with its header (R511): `kept` says that compaction has kept it as part of a snapshot, and `crcDiff` is
the CRC that it carries, XORed with the CRC-32 of the rest of it. -/
structure KilnRec where
  kept : Bool
  seq : Word
  time : DWord
  firing : Word
  body : KilnBody
  crcDiff : Word := 0
  deriving DecidableEq, Repr

/-- The BIST engine (R514, R519). -/
structure Bist where
  busy : Bool := false
  result : BitVec 2 := 0
  code : Byte := 0
  rows : BitVec 10 := 0
  misr : DWord := 0
  targets : List Island := []
  deriving DecidableEq, Repr

/-- Clocks, power and ageing. `ref100` and `xtal25` are the references at the pins; `tcap` goes by tile,
and `hold` names the tiles whose MDUTY is held (R502); `estimate` is the power estimate in mW, as of the measurement at
`measured`; `fsUp` the global time of the latest rise of FSCALE; `skipped` names tiles whose firing is retried later, with
the times of their skipping; `faulty` the rails whose regulators have failed in BOOT. The kiln log's records begin at the
place `kilnStart` of its region. -/
structure Clocks where
  ref100 : Bool := false
  xtal25 : Bool := false
  locked : Bool := false
  isl : Tab Isl := []
  tcap : Tab Nat := []
  hold : List Tile := []
  fscale : Nat := 256
  mduty : Nat := 16
  estimate : Nat := 0
  measured : Option DWord := none
  fsUp : DWord := 0
  pwrNow : BitVec 10 := 0
  rails : Vector Rail 13 := Vector.replicate 13 {}
  tjTemp : BitVec 12 := 0
  tjIsland : BitVec 9 := 0
  firing : Option Firing := none
  requests : List FireReq := []
  skipped : List (Tile × DWord) := []
  faulty : List (Fin 13) := []
  scope : BitVec 3 := 0
  cause : Byte := 0
  fired : DWord := 0
  began : DWord := 0
  number : Word := 0
  full : Nat := 0
  kilnSeq : Word := 0
  kiln : List KilnRec := []
  kilnStart : Nat := 0
  bist : Bist := {}
  deriving DecidableEq, Repr

end Sys2Proof.Machine
end

