-- ==== Sys2Proof/Machine/CtxState.lean ====
section
/-! DEFINITION. A context of a core: its registers, its state and what it waits for (R75, R77, R86,
R88, R94, R142, R168, R170, R178). -/

namespace Sys2Proof.Machine

/-- The states of a context (R77). -/
inductive CtxRun where
  | idle | ready | running | blocked | halted
  deriving DecidableEq, Repr

/-- A loop set: start, end and count (R118). -/
structure LoopSet where
  ls : BitVec 20 := 0
  le : BitVec 20 := 0
  lc : BitVec 16 := 0
  deriving DecidableEq, Repr

/-- A deferred fault (R135): its cause, its EADDR, and for uncorrectable data of a vector load the
element index with the destination group's first register and size (R183). -/
structure Deferred where
  cause : Byte
  eaddr : Word
  velem : Option (BitVec 12 × BitVec 5 × Nat)
  deriving DecidableEq, Repr

/-- A tagged access as a tag unit holds it: the local address, the store's data, the address as issued, and
whether it comes from a context of the core itself (R131, R301, R303, R305). -/
structure TagAcc where
  fn : TagFn
  size : MemSize
  addr : Nat
  data : Word
  dad : Word
  own : Bool := false
  deriving DecidableEq, Repr

/-- What a BLOCKED context waits for. `op` is the place of the waiting operation in its bundle; `dad`
the D-space address as the program wrote it; `q` names a full queue: 0 the matrix queue, 1 the stripe
queue, 2 + c DMA channel c; `since` is when the wait began, where it has a bound (R303 to R305, R311, R385, R192,
R264, R332). -/
inductive CtxWait where
  | none
  | load (id : Nat)
  | tag (op : Nat) (acc : TagAcc) (since : DWord)
  | remoteTag (op : Nat) (dad : Word) (cancelled : Bool) (since : DWord)
  | credit (op : Nat)
  | sync (op : Nat) (obj : BitVec 13) (since : Option DWord)
  | queue (q : Nat)
  deriving DecidableEq, Repr

/-- Why a check timer fired (R526): lack of progress, or a deadline. -/
inductive ChkFire where
  | progress | deadline
  deriving DecidableEq, Repr

/-- The register classes of a context that `ctx.reset` clears, and the ones it keeps. -/
structure Ctx where
  run : CtxRun := .idle
  block : BitVec 4 := 0
  wait : CtxWait := .none
  /-- Results of operations of the present bundle that are already performed, by place (R115, R132, R303). -/
  done : List (Nat × Word) := []
  /-- A load of the present bundle that is on its way and must end before the bundle's other accesses (R115,
  R132). -/
  held : Option Nat := none
  /-- The fault that the present bundle takes when it issues again (R305, R385, R301). -/
  fault : Option (Byte × Word) := none
  pc : Word := 0
  a : Vector Word 16 := Vector.replicate 16 0
  d : Vector Word 32 := Vector.replicate 32 0
  acc : Vector Acc 8 := Vector.replicate 8 0
  v : Vector VReg 32 := Vector.replicate 32 0
  va : Vector VAcc 8 := Vector.replicate 8 0
  p : Vector VReg 8 := Vector.replicate 8 0
  loops : Vector LoopSet 4 := Vector.replicate 4 {}
  wr : Vector WinReg 8 := Vector.replicate 8 0
  lut : Vector (Tab Word) 2 := Vector.replicate 2 []
  vl : BitVec 12 := 0
  sew : BitVec 2 := 0
  grp : BitVec 2 := 0
  hbmWin : Vector DWord 8 := Vector.replicate 8 0
  func : Func := 0
  status : Word := 0
  epc : BitVec 20 := 0
  ecause : BitVec 9 := 0
  eaddr : Word := 0
  excbase : BitVec 20 := 0
  jobentry : BitVec 20 := 0
  kstack : Word := 0
  velem : Word := 0
  lsel : BitVec 2 := 0
  /-- The first bundle after an `eret` resumes a vector access at VELEM.INDEX (R181). -/
  resuming : Bool := false
  timeHi : Word := 0
  jobSeq : Word := 0
  cycles : Word := 0
  deferred : Option Deferred := none
  /-- Data registers that hold uncorrectable data of a remote or HBM load, with its address (R317). -/
  poison : List (BitVec 5 × Word) := []
  /-- CORE_EXC_CAUSE and CORE_EXC_ADDR (R138). -/
  excCause : BitVec 10 := 0
  excAddr : Word := 0
  /-- Remote and HBM stores not yet acknowledged (R132). -/
  stores : Nat := 0
  /-- Requests of the latest bundle that wait for one of the core's 32 places (R81, R176). -/
  sending : List FarReq := []
  trkSel : Word := 0
  trkLatch : Tab Word := []
  stopReq : Bool := false
  irqs : List Word := []
  chk : Option ChkFire := none
  deriving DecidableEq, Repr

end Sys2Proof.Machine
end

