-- ==== Sys2Proof/Machine/EngineState.lean ====
section
/-! DEFINITION. The engines of a core: DMA channels (R326 to R355), the matrix queue and its trackers
(R188 to R198, R225), and the stripe engine (R259 to R276). -/

namespace Sys2Proof.Machine

/-! ### DMA -/

/-- The states of a channel (R329, R334). -/
inductive DmaRun where
  | idle | ready | active | waiting | parked | error | draining
  deriving DecidableEq, Repr

/-- Where a command's descriptors come from (R331, R332): the registers, a copied descriptor, or a chain
in place at an address. -/
inductive DmaSrc where
  | regs | copied | chain
  deriving DecidableEq, Repr

/-- A command in a slot (R326, R327): its source, its first descriptor or that descriptor's address, its
owner with the copy of the HBM windows, and the matrix job that started it, if one did (R215). -/
structure DmaCmd where
  src : DmaSrc
  desc : BitVec 512
  addr : Nat
  ctx : CtxId
  func : Func
  win : Vector DWord 8
  job : Option (BitVec 16)
  deriving DecidableEq, Repr

/-- Where a running descriptor stands (R345): its start checks or its chain line still to come, its
bytes moving, or done with its link to be read again. -/
inductive DmaPhase where
  | start | moving | link
  deriving DecidableEq, Repr

/-- A tag wait of a channel (R301, R352): the slot of a core, and whether the slot must be FULL. -/
structure DmaWait where
  core : LCore
  slot : Nat
  full : Bool
  deriving DecidableEq, Repr

/-- A channel. `line` is the address of the descriptor that runs in place; `pos` how many bytes are
issued, `prog` DMA_CH_PROG; `localWrites` the local writes performed and not yet acknowledged, with the bytes before and
the bytes written (R350); `outs` the position and size of every write not yet acknowledged; `reads` the remote
and HBM lines asked for, by D-space line, with their data once it has come; `half` says that the half
interrupt is raised; `begun` are the slots whose first access has passed, and `first` the slot of another core whose
first access is on its way (R301, R304); `cipher` the ciphertext that a
DECRYPT has read and `key` the key it took when it started (R474). -/
structure DmaCh where
  src : Word := 0
  dst : Word := 0
  xcnt : BitVec 24 := 0
  ycnt : BitVec 16 := 0
  sstride : Word := 0
  dstride : Word := 0
  ctrl : BitVec 19 := 0
  link : Word := 0
  run : DmaRun := .idle
  dbpend : Bool := false
  status : Byte := 0
  ctx : CtxId := 0
  func : Func := 0
  prog : Word := 0
  cur : Option DmaCmd := none
  pend : Option DmaCmd := none
  phase : DmaPhase := .start
  desc : BitVec 512 := 0
  line : Option Nat := none
  pos : Nat := 0
  localWrites : List (Nat × List Byte × List Byte) := []
  outs : List (Nat × Nat) := []
  reads : List (Nat × Option (List Byte × List Bool)) := []
  half : Bool := false
  wait : Option DmaWait := none
  since : DWord := 0
  granted : Option DmaWait := none
  begun : List (LCore × Nat) := []
  first : Option DmaWait := none
  mismatch : Option Nat := none
  cipher : List Byte := []
  key : BitVec 256 := 0
  deriving DecidableEq, Repr

/-! ### Matrix array -/

/-- How far a job in the matrix queue has come (R193, R194). -/
inductive MtxStage where
  | queued | feeding | fed | output | finished
  deriving DecidableEq, Repr

/-- The tile that a stripe stream gives to a job (R266): stream, output row, first column, width. -/
structure Tile2 where
  stream : Fin 8
  y : Nat
  xt : Nat
  tw : Nat
  deriving DecidableEq, Repr

/-- A matrix job: its descriptor, sequence number and submitter, and what it has come to. `sums` holds
result (m, n) at 128 × m + n: from the start of its feed the kept sums that it continues (R209), later its own. `checked`
says that it has passed its set-up and waits at feed start (R232, R269). -/
structure MtxJob where
  desc : BitVec 1024
  seq : BitVec 16
  ctx : CtxId
  func : Func
  stage : MtxStage
  status : Byte
  errAddr : Word
  clipped : Nat
  tile : Option Tile2
  sums : Tab Word
  checked : Bool := false
  deriving DecidableEq, Repr

/-- Sums kept by KEEP (R209), with the job they came from. -/
structure Kept where
  seq : BitVec 16
  m : Nat
  n : Nat
  sums : Tab Word
  deriving DecidableEq, Repr

/-- A scale tracker (R225); `win` goes by window index. -/
structure Tracker where
  cfg : Word := 0
  thr : Word := 0
  init : Word := 0x3F800000
  scale : Word := 0x3F800000
  inv : Word := 0x3F800000
  fill : BitVec 5 := 0
  boost : BitVec 2 := 0
  dels : Byte := 0
  steps : BitVec 16 := 0
  curMax : Word := 0
  curCount : Word := 0
  curClip : Word := 0
  lastCount : Word := 0
  lastClip : Word := 0
  win : Vector Word 16 := Vector.replicate 16 0
  deriving DecidableEq, Repr

/-- The matrix queue, codebook tables (by 256 × table + entry), kept sums and trackers. -/
structure Mtx where
  queue : List MtxJob := []
  next : BitVec 16 := 0
  doneSeq : BitVec 16 := 0xFFFF
  errSeq : BitVec 16 := 0
  errStatus : Byte := 0
  errCtx : CtxId := 0
  errAddr : Word := 0
  cb : Tab (BitVec 16) := []
  cbValid : Bool := false
  cb256 : Bool := false
  cbv : BitVec 2 := 0
  cbShared : Bool := false
  kept : Option Kept := none
  trk : Tab Tracker := []
  deriving DecidableEq, Repr

/-! ### Stripe engine -/

/-- How far a stripe has come: waiting in its stream, active, failed and absorbing jobs, or cancelled
(R268, R270, R274). -/
inductive StripeStage where
  | waiting | active | failed | cancelled
  deriving DecidableEq, Repr

/-- A stripe in the queue. `taken` counts the tiles given to jobs or absorbed, `fed` those whose feed is
done; `wound` says that its wind is complete. -/
structure Stripe where
  desc : BitVec 1024
  seq : BitVec 16
  ctx : CtxId
  func : Func
  stage : StripeStage
  status : Byte
  taken : Nat
  fed : Nat
  wound : Bool
  since : Option DWord := none
  deriving DecidableEq, Repr

/-- A stream (R260 to R263, R268): its trigger count, NR, carry rows, error state, the layer fields and
extent of its latest stripe. `under` says that the stream is under way. -/
structure Stream where
  trigs : Byte := 0
  nr : Nat := 0
  carry : List Nat := []
  error : Bool := false
  under : Bool := false
  prev : Option (BitVec 1024) := none
  deriving DecidableEq, Repr

/-- The stripe engine: queue, streams, and the coil buffer by byte offset with its marks by word. -/
structure StripeEngine where
  queue : List Stripe := []
  next : BitVec 16 := 0
  doneSeq : BitVec 16 := 0xFFFF
  errSeq : BitVec 16 := 0
  errStatus : Byte := 0
  errStream : Fin 8 := 0
  errCtx : CtxId := 0
  jobErrSeq : BitVec 16 := 0
  jobErrCause : BitVec 2 := 0
  jobErrStream : Fin 8 := 0
  tstream : Fin 8 := 0
  streams : Vector Stream 8 := Vector.replicate 8 {}
  coil : Tab Byte := []
  coilMarks : Tab Bool := []
  deriving DecidableEq, Repr

end Sys2Proof.Machine
end

