-- ==== Sys2Proof/Machine/CoreState.lean ====
section
/-! DEFINITION. A core tile: its contexts and what they share (R75, R124 to R134, R293 to R323). -/

namespace Sys2Proof.Machine

/-- What the check timers and the engine watches have counted, in ns: by context since it retired its last bundle, and by
engine (matrix, stripe, DMA) since it last moved (R526, R527). -/
structure Timers where
  chk : Vector Nat 4 := Vector.replicate 4 0
  eng : Vector Nat 3 := Vector.replicate 3 0
  deriving DecidableEq, Repr

/-- A core. `mem` goes by local D-space address, `marks` by 64-bit word, `tags` (FULL) by slot, `remap`
by 8 × BANKID + entry; `lateWrites` are writes that wait for a bank which is paused or cleared (R319, R321). -/
structure Core where
  ctxs : Vector Ctx 4 := Vector.replicate 4 {}
  last : CtxId := 3
  quantum : Nat := 0
  sb : List SbEntry := []
  loads : List Load := []
  loadId : Nat := 0
  fetchBuf : List FetchLine := []
  resume : Vector (Option FetchLine) 4 := Vector.replicate 4 none
  btb : List BtbEntry := []
  mem : Tab Byte := []
  marks : Tab Bool := []
  tags : Tab Bool := []
  tregs : Tab TReg := []
  mbx : Tab Mbx := []
  setup : Byte := 0
  /-- Remote tagged accesses that wait here, oldest first (R304). -/
  parked : List MeshReq := []
  /-- Everything that waits on a tag of this core, oldest first: its own contexts and channels, and the
  senders of parked requests (R302). -/
  waiters : List (LCore × Agent) := []
  watch : List WatchRow := []
  nominees : List Nominee := []
  remap : Tab (Option RemapEntry) := []
  rmapBusy : Bool := false
  rmapResult : BitVec 2 := 0
  clearing : Bool := false
  lateWrites : List (Nat × List Byte) := []
  nocrAddr : Word := 0
  nocrInfo : Word := 0
  uncorrAddr : Word := 0
  /-- Engines that system firmware has found stalled, by ENGINE (R527, R529). -/
  stalled : BitVec 4 := 0
  timers : Timers := {}
  dma : Vector DmaCh 8 := Vector.replicate 8 {}
  mtx : Mtx := {}
  str : StripeEngine := {}
  deriving DecidableEq, Repr

end Sys2Proof.Machine
end

