-- ==== Sys2Proof/Machine/RingState.lean ====
section
/-! DEFINITION. Rings, jobs and synchronisation objects as the dispatcher tile and the
synchronisation block hold them (R356 to R390, R536). -/

namespace Sys2Proof.Machine

/-- The staged registers of a ring record (R357). -/
structure RingCfg where
  base : DWord := 0
  cbase : DWord := 0
  cfg : Word := 0
  affinity : Word := 0
  limits : Word := 0
  ageWm : Word := 0
  seq0 : Word := 0
  deriving DecidableEq, Repr

/-- RING_STATUS.STATE (R359). -/
inductive RingRun where
  | idle | active | draining | error
  deriving DecidableEq, Repr

/-- A ring (R357 to R376). `flags` is RING_STATUS[19:16]; `reserved` counts completion records promised
and not written (R367); `cancelTo` is the tail at CANCEL (R360); `bells` are the doorbell records,
oldest first (R376); `counters` are FETCHED, COMPLETED, SHED, DBDROPS. -/
structure Ring where
  staged : RingCfg := {}
  live : RingCfg := {}
  nextSeq : Word := 0
  tail : Word := 0
  head : Word := 0
  ctail : Word := 0
  chead : Word := 0
  run : Bool := false
  irqen : BitVec 4 := 0
  state : RingRun := .idle
  refused : Bool := false
  code : Byte := 0
  flags : BitVec 4 := 0
  errSeq : Word := 0
  errCause : Byte := 0
  committed : Bool := false
  reserved : Nat := 0
  cancelTo : Option Word := none
  bells : List (Word × DWord) := []
  aged : Bool := false
  counters : Vector DWord 4 := Vector.replicate 4 0
  ovf : BitVec 4 := 0
  snapshot : Option (Vector DWord 4 × BitVec 4) := none
  deriving DecidableEq, Repr

/-- How far a fetched job has come (R365, R384): waiting for its gate, or ready. -/
inductive JobStage where
  | gate | ready
  deriving DecidableEq, Repr

/-- A job: its ring, the copy of its 64-byte descriptor, when and in which order it was fetched, when its
doorbell announced it (R376), and how far it has come. `again` marks a bystander of a recovery that goes ahead of fetched
jobs (R539); `tStart` is when it was last assigned, 0 while it never was (R368). -/
structure Job where
  ring : BitVec 14
  desc : BitVec 512
  fetched : DWord
  told : DWord
  order : Nat
  stage : JobStage
  again : Bool
  tStart : DWord := 0
  deriving DecidableEq, Repr

/-- A job held in a job entry of a core (R373), with the context it runs on once started and the address
of its descriptor copy (R82). `cancel`
marks a job that a function-level reset has asked to stop (R432); `replay` one that a recovery is
replaying (R537). -/
structure CoreJob where
  job : Job
  tStart : DWord
  ctx : Option CtxId
  addr : Word
  cancel : Bool
  replay : Bool
  deriving DecidableEq, Repr

/-- Why the dispatcher reads a descriptor (R371, R360, R375). -/
inductive FetchKind where
  | job | shed | cancel
  deriving DecidableEq, Repr

/-- A descriptor read in flight: the ring, why, and the tracking entry set aside for it. -/
structure Fetch where
  ring : BitVec 14
  kind : FetchKind
  entry : Nat
  index : Word
  deriving DecidableEq, Repr

/-- A job that retires (R368, R369): its ring and descriptor, its status, where it ran, its result and times; `quiet` is
the retirement of a function-level reset. -/
structure Retire where
  ring : BitVec 14
  desc : BitVec 512
  status : Byte
  ran : Option (LCore × CtxId)
  result : BitVec 16
  tStart : DWord
  tEnd : DWord
  quiet : Bool
  deriving DecidableEq, Repr

/-- What waits at the dispatcher for a partition (R397, R533): a write of a function at an address, or a retirement
whose record cannot be written yet. -/
inductive Late where
  | write (func : Func) (dva : DWord) (bytes : List Byte)
  | retire (x : Retire)
  deriving DecidableEq, Repr

/-- The dispatcher (R371 to R373): tracking entries, job entries by logical core, reads in flight, where
its round robins stand, and the records that wait to be written; `returned` are jobs that cores have given back and
that wait for a tracking entry (R140, R378, R539). -/
structure Dispatch where
  track : Tab (Option Job) := []
  jobs : Vector (List CoreJob) 32 := Vector.replicate 32 []
  fetches : List Fetch := []
  order : Nat := 0
  fn : Func := 0
  credit : Nat := 0
  lastRing : Tab Nat := []
  late : List Late := []
  returned : List Job := []
  deriving DecidableEq, Repr

/-- Who waits on an object (R384). -/
inductive Waiter where
  | ctx (lc : LCore) (c : CtxId)
  | gate (entry : Nat)
  deriving DecidableEq, Repr

/-- A waiter slot in use. -/
structure WaitSlot where
  who : Waiter
  obj : BitVec 13
  thr : DWord
  deriving DecidableEq, Repr

/-- An operation on an object (R381). -/
inductive SyncOp where
  | add (a : DWord)
  | set (a : DWord)
  | cas (e a : DWord)
  | wait (t : DWord)
  | read
  deriving DecidableEq, Repr

/-- The source of an operation on its way to a bank (R382, R390). -/
inductive SyncSrc where
  | ctx (lc : LCore) (c : CtxId) (op : Nat)
  | dma | matrix | stripe | dispatcher | host | peer
  deriving DecidableEq, Repr

/-- An operation on its way to its bank. -/
structure SyncReq where
  src : SyncSrc
  func : Func
  obj : BitVec 13
  op : SyncOp
  deriving DecidableEq, Repr

/-- The answer of a bank to a context. -/
structure SyncAns where
  lc : LCore
  c : CtxId
  op : Nat
  value : DWord
  ok : Bool
  deriving DecidableEq, Repr

/-- The result registers of a SYNC object page (R387). -/
structure CasResult where
  done : Bool := false
  success : Bool := false
  old : DWord := 0
  deriving DecidableEq, Repr

/-- The synchronisation block (R379 to R390). -/
structure SyncBlock where
  objs : Tab DWord := []
  slots : Tab (Option WaitSlot) := []
  queue : List SyncReq := []
  answers : List SyncAns := []
  cas : Tab CasResult := []
  refInfo : Word := 0
  deriving DecidableEq, Repr

end Sys2Proof.Machine
end

