-- ==== Sys2Proof/Machine/FaultState.lean ====
section
/-! DEFINITION. Partitions under hangs, recovery and replay (R526 to R545). -/

namespace Sys2Proof.Machine

/-- PART_STATE.STATE (R544). -/
inductive PartRun where
  | serving | recovering | replaying | offline
  deriving DecidableEq, Repr

/-- A job that a recovery handles, with the core it was on (R536, R539). -/
structure HeldJob where
  lc : LCore
  job : CoreJob
  deriving DecidableEq, Repr

/-- What section 4 of a dump holds of a core: its matrix and stripe queues with their descriptors, its streams, and its
DMA channels with both command slots (R531). -/
structure DumpEngines where
  lc : LCore
  jobs : List MtxJob
  stripes : List Stripe
  streams : Vector Stream 8
  dma : Vector DmaCh 8
  deriving DecidableEq, Repr

/-- Writes lost in a recovery: the DPA of the first line, the number of lines and the source function (R531). -/
structure LostWrite where
  dpa : Nat
  lines : Nat
  func : Func
  deriving DecidableEq, Repr

/-- The contents of a dump's sections 1 to 8 and 10 (R531): registers at declaration by offset (a PART page's from 0x1000
on), the contexts of named cores and of the others, engines, job entries, rings, objects with their waiter slots, lost writes,
and islands that did not answer. -/
structure DumpBody where
  regs : List (Nat × Word) := []
  named : List (LCore × Vector Ctx 4) := []
  others : List (LCore × Vector Ctx 4) := []
  engines : List DumpEngines := []
  jobs : List HeldJob := []
  rings : List (Nat × Ring) := []
  objects : List (BitVec 13 × DWord × List (Nat × WaitSlot)) := []
  lost : List LostWrite := []
  silent : List Nat := []
  deriving DecidableEq, Repr

/-- A crash dump in a partition's region (R530, R531): the header's words, the number that tells one dump from another,
and what its sections hold. -/
structure Dump where
  info : Word
  time : DWord
  gen : Word
  serial : Nat
  body : DumpBody := {}
  deriving DecidableEq, Repr

/-- A partition (R529 to R545). `suspects` wait for replay in order of T_START; `bystanders` wait for
step 6; `castle` names the cores to castle without a copy in step 4, `later` those whose castling waits for step
6, and `back` those whose return castling the recovery has abandoned (R31, R535, R542);
`runtime` says that the core runtime stands in the instruction store, of which `istore` holds bytes written besides
(R124, R482). -/
structure PartState where
  run : PartRun := .serving
  step : BitVec 3 := 0
  dumpValid : Bool := false
  dumpLost : Bool := false
  dump : Option Dump := none
  result : BitVec 2 := 0
  hangInfo : Word := 0
  hangTime : DWord := 0
  /-- The registers of dump section 1 as at declaration (R531). -/
  atHang : List (Nat × Word) := []
  recoverUs : Word := 0
  nSuspects : BitVec 6 := 0
  nDone : BitVec 6 := 0
  nGuilty : BitVec 6 := 0
  nUnresolved : BitVec 6 := 0
  lostWrites : BitVec 16 := 0
  offline : Bool := false
  suspects : List HeldJob := []
  /-- The ring and SEQ of each suspect replayed (R538). -/
  replayed : List (BitVec 14 × Word) := []
  bystanders : List HeldJob := []
  replayCore : Option LCore := none
  castle : List LCore := []
  later : List LCore := []
  back : List LCore := []
  istore : Tab (Option Byte) := []
  runtime : Bool := false
  /-- Counts of cores and channels in service when the recovery began, for RESULT (R544). -/
  before : Nat := 0
  deriving DecidableEq, Repr

end Sys2Proof.Machine
end

