-- ==== Sys2Proof/Machine/MgmtState.lean ====
section
/-! DEFINITION. Boot, flash and the management controller (R477 to R489), and the pins and straps
(R549 to R555). -/

namespace Sys2Proof.Machine

/-- A slot of the flash (R478, R479): whether the image it left the factory with lies under what has been
written since, the bytes written, and the blocks of 2,048 bytes that a loss of power has left unreadable. -/
structure Slot where
  factory : Bool := false
  bytes : Tab (Option Byte) := []
  torn : List Nat := []
  deriving DecidableEq, Repr

/-- A copy of the boot header (R478). `active` and `pending` name slot B by true; `crcDiff` is the CRC that the copy
carries, XORed with the CRC-32 of the rest of it. -/
structure BootHeader where
  active : Bool := false
  pending : Option Bool := none
  tries : BitVec 2 := 0
  seq : Word := 0
  crcDiff : Word := 0
  deriving DecidableEq, Repr

/-- The flash's two copies of the boot header (R478), the second unwritten when the device leaves the factory, and the two
slots. -/
structure Flash where
  copies : Vector BootHeader 2 := #v[{}, { crcDiff := 0xFFFFFFFF }]
  slotA : Slot := { factory := true }
  slotB : Slot := {}
  deriving DecidableEq, Repr

/-- A mailbox command that runs (R486, R487). -/
structure MbCmd where
  op : Byte
  len : BitVec 12
  arg : Word
  deriving DecidableEq, Repr

/-- The management controller. `selected` says that the bisque stage has chosen a slot; `from_` is the
global time at which the boot started; `fused` the fused minimum SVN. -/
structure Mgmt where
  flash : Flash := {}
  selected : Bool := false
  stage : BitVec 4 := 0
  slot : Bool := false
  fallback : Bool := false
  trial : Bool := false
  err : Byte := 0
  bootFrom : DWord := 0
  bootUs : Word := 0
  verActive : Word := 0
  verOther : Word := 0
  fused : Byte := 0
  svnActive : Byte := 0
  cmd : Option MbCmd := none
  result : Byte := 0
  rlen : BitVec 12 := 0
  /-- The global times of the losses of the host that system firmware has reported on the management network, newest
  first (R435): the model's own record. -/
  lossReports : List DWord := []
  /-- The islands whose end of life it has reported there, with the times, newest first (R513): the model's own record. -/
  eolReports : List (BitVec 9 × DWord) := []
  deriving DecidableEq, Repr

/-- The pins and straps: PWR_OK, PERST_N and QSPI_RST_N as their levels, the sampled straps, THERMTRIP_N driven low,
production test, and the other outputs at high impedance (R504, R550 to R552, R554). -/
structure Pins where
  pwrOk : Bool := true
  perstN : Bool := true
  peerId : BitVec 3 := 0
  mfgTest : Bool := false
  thermtrip : Bool := false
  prodTest : Bool := false
  hiZ : Bool := false
  qspiRstN : Bool := true
  gpio : BitVec 16 := 0
  deriving DecidableEq, Repr

end Sys2Proof.Machine
end

