-- ==== Sys2Proof/Machine/PeerState.lean ====
section
/-! DEFINITION. The Vabor ports, peer routing, peer queues and time alignment (R438 to R454). -/

namespace Sys2Proof.Machine

/-- PEER_STATUS.STATE (R441, R453). -/
inductive PortRun where
  | disabled | detect | train | ident | key | active | retrain | down | isolated
  deriving DecidableEq, Repr

/-- The answer to a peer's request (R447, R449), the model's own record of the latest. -/
inductive PeerReply where
  | none | written | data (bytes : List Byte) (marked : Bool) | refused (status : Byte) | retry
  deriving DecidableEq, Repr

/-- A request of a peer transfer (R446, R447), as it leaves for device `dev`, function `tfunc`; `odd` marks one of an
odd-numbered queue (R444). -/
structure Packet where
  dev : BitVec 3
  odd : Bool
  tfunc : Func
  op : PacketOp
  deriving DecidableEq, Repr

/-- What a flit carries (R439): nothing, a request, the answer to one, the payload of a packet for another device, a
time exchange, or a part of a key exchange. -/
inductive Cargo where
  | idle
  | request (p : Packet)
  | response (r : PeerReply)
  | forward (payload : VReg) (dev : BitVec 3) (odd : Bool)
  | time
  | keys (k : KeyExchange)
  deriving DecidableEq, Repr

/-- A flit sent, with what it carries, as the layout of a packet in a payload is not given, and how often it has been
replayed (R440). -/
structure TxFlit where
  flit : Flit
  cargo : Cargo
  replays : Nat
  deriving DecidableEq, Repr

/-- A port. `txSeq` numbers the next flit of types 1 to 3, `rxGood` the last good one received, `ack` the
last one the neighbour acknowledged; `buffer` keeps the flits it may have to replay, oldest first, `waiting` what waits
for flit space or credit (R440); `eph` is the ephemeral private key of
its latest key exchange, and `session` holds the key it sends with and the key it receives with; `sent` and `got` count
new flits in a session (R471); credits held and credits to return are in 64-byte units. `out` is the model's own record
of the flits that have left, newest first. -/
structure Port where
  run : PortRun := .disabled
  width : BitVec 4 := 0
  nbrId : BitVec 3 := 0
  nbrPort : BitVec 2 := 0
  serial : DWord := 0
  encrypted : Bool := false
  cause : BitVec 2 := 0
  eph : BitVec 384 := 0
  session : Option (BitVec 256 × BitVec 256) := none
  failed : Bool := false
  txSeq : BitVec 12 := 0
  rxGood : BitVec 12 := 0xFFF
  ack : BitVec 12 := 0xFFF
  nak : Bool := false
  buffer : List TxFlit := []
  waiting : List Cargo := []
  sent : DWord := 0
  got : DWord := 0
  reqCredit : Nat := 0
  respCredit : Nat := 0
  owedReq : Nat := 0
  owedResp : Nat := 0
  out : List TxFlit := []
  /-- The offset of the latest time exchange and its path delay, in ns (R450). -/
  offset : DWord := 0
  delay : DWord := 0
  deriving DecidableEq, Repr

/-- PQ_CTRL.STATE (R453). -/
inductive PqRun where
  | idle | active | error
  deriving DecidableEq, Repr

/-- A peer descriptor in flight (R445): its index, its bits, its status where it is already known to fail, the time of
its start or of the latest RETRY, the requests that it has sent and the port that they left by, and those answered RETRY
that wait to be sent again (R448, R449). -/
structure PeerXfer where
  index : Word
  desc : BitVec 512
  failed : Option Byte
  since : DWord
  sends : List PacketOp
  port : Fin 4
  again : List PacketOp
  deriving DecidableEq, Repr

/-- A peer queue (R445). -/
structure PeerQueue where
  run : Bool := false
  state : PqRun := .idle
  head : Word := 0
  committed : Bool := false
  errStat : Byte := 0
  flight : List PeerXfer := []
  deriving DecidableEq, Repr

/-- The peer side of the device. `rate` is the correction of CHIP_TIME's rate in ppm, `steady` since when
the offset estimate has stayed within 40 ns; `fresh` says that the path to the master is new and that CHIP_TIME
has not yet stepped to it, `joined` that devices have been joined to this one's part of the domain since its latest step
(R451); `alone` since when there is no path to another master (R452). -/
structure Peer where
  ports : Vector Port 4 := Vector.replicate 4 {}
  queues : Tab PeerQueue := []
  routes : Vector Byte 8 := Vector.replicate 8 0
  master : BitVec 3 := 0
  locked : Bool := false
  ofs : Word := 0
  rate : Int := 0
  /-- What the corrected rate has gained or lost and CHIP_TIME does not show yet, in 10^-6 ns (R450). -/
  drift : Int := 0
  steady : Option DWord := none
  fresh : Bool := false
  joined : Bool := false
  alone : Option DWord := none
  reply : PeerReply := .none
  deriving DecidableEq, Repr

end Sys2Proof.Machine
end

