-- ==== Sys2Proof/Machine/SecState.lean ====
section
/-! DEFINITION. The security engine, ownership and tenancy (R455 to R476). -/

namespace Sys2Proof.Machine

/-- A model-key slot in use (R473). -/
structure KeySlot where
  fmask : BitVec 16
  key : BitVec 256
  deriving DecidableEq, Repr

/-- A bounce region (R464): its function, and its base and length in 2 MiB units. -/
structure Bounce where
  func : Func
  base : BitVec 19
  len : BitVec 20
  deriving DecidableEq, Repr

/-- SEC_STATE.MODE (R476). -/
inductive SecMode where
  | standard | saggar | debug
  deriving DecidableEq, Repr

/-- What a wedging leads to (R455, R460): whether the device stays owned, its tenant's key, and the mode. -/
structure NextTenancy where
  owned : Bool
  tenant : Option (BitVec 776)
  mode : SecMode
  deriving DecidableEq, Repr

/-- The answer to a message of the management network or the DOE mailbox (R458), the model's own record
of what the device last answered. -/
structure Reply where
  result : Byte := 0
  data : List Byte := []
  deriving DecidableEq, Repr

/-- The security engine. `owner` and `tenant` are the records in flash (R455), with the pending flag of a
wedging and what it leads to; `nonce` is the latest one with its time, until a command uses it (R457);
`doe` the open session on PF0's mailbox with the key its requester proved, if any (R459); `claimOpen`
says that the window for CLAIM runs, and `opened` is the global time of its start, the end of the cold reset (R456). -/
structure Sec where
  owner : Option (BitVec 776) := none
  tenant : Option (BitVec 776) := none
  flag : Bool := false
  next : Option NextTenancy := none
  mode : SecMode := .standard
  /-- The mode of the tenancy as flash records it. -/
  kept : SecMode := .standard
  wedging : Bool := false
  phase : BitVec 3 := 0
  claimOpen : Bool := false
  opened : DWord := 0
  epoch : Word := 0
  wedgeUs : Word := 0
  wedgeFrom : DWord := 0
  measure : BitVec 384 := 0
  aliasMode : SecMode := .standard
  keys : Tab (Option KeySlot) := []
  bounce : List Bounce := []
  nonce : Option (BitVec 256 × DWord) := none
  mgmt : Bool := false
  doe : Option (Option (BitVec 776)) := none
  reply : Reply := {}
  deriving DecidableEq, Repr

/-- A change of tenancy is under way, or waits for the boot to complete it (R462). -/
def Sec.busy (x : Sec) : Bool := x.wedging || x.flag

end Sys2Proof.Machine
end

