-- ==== Sys2Proof/Machine/State.lean ====
section
/-! DEFINITION. The machine's state, its reset, and the reasons a step can stop. -/

namespace Sys2Proof.Machine

/-- Why the block stops. -/
inductive Fault where
  /-- Raised by no command: every command of the table has an effect. Safe. -/
  | unreachable
  deriving DecidableEq, Repr

/-- Why a command is refused. -/
inductive Refusal where
  /-- The command has no meaning in this model yet. Safe. -/
  | notModelled (mnemonic : String)
  deriving DecidableEq, Repr

/-- The V832. -/
structure State where
  /-- Commands that wait, first in, first out. -/
  pending : List Instr
  /-- CHIP_TIME, in ns (R73). -/
  time : DWord
  pages : Tab Page
  board : Board
  cores : Vector Core 34
  host : Endpoint
  hbm : Hbm
  journal : Journal
  rings : Tab Ring
  disp : Dispatch
  sync : SyncBlock
  parts : Vector PartState 4
  dumpSerial : Nat
  sec : Sec
  mgmt : Mgmt
  pins : Pins
  clocks : Clocks
  peer : Peer
  /-- The model's own count of undefined values taken. -/
  free : Nat
  deriving DecidableEq, Repr

/-- CORE_MAP after reset: every logical core on its own tile (R25). -/
def mapReset : Vector MapEntry 32 :=
  Vector.ofFn fun n => ⟨⟨n.val, by omega⟩, false, false, false⟩

/-- The machine after reset. -/
def State.reset : State where
  pending := []
  time := 0
  pages := []
  board := { map := mapReset }
  cores := Vector.replicate 34 {}
  host := {}
  hbm := {}
  journal := {}
  rings := []
  disp := {}
  sync := {}
  parts := Vector.replicate 4 {}
  dumpSerial := 0
  sec := {}
  mgmt := {}
  pins := {}
  clocks := {}
  peer := {}
  free := 0

end Sys2Proof.Machine
end

