-- ==== Sys2Proof/Machine/Ops.lean ====
section
/-! DEFINITION. The named operations on the state: cores and contexts, pages, counters, interrupts and
MSI-X (R25, R53, R67, R69, R428, R429). -/

namespace Sys2Proof.Machine

/-- One nanosecond passes (R73). -/
def State.tick (s : State) : State :=
  let x := s.peer.drift + s.peer.rate
  let c : Int := if 10 ^ 6 ≤ x then 1 else if x ≤ -10 ^ 6 then -1 else 0
  { s with
    time := s.time + BitVec.ofInt 64 (1 + c)
    peer := { s.peer with drift := x - 10 ^ 6 * c } }

/-- How far global time moves in that nanosecond. -/
def State.tickBy (s : State) : Nat := (s.tick.time - s.time).toNat

/-- A bound in µs has passed since a time. -/
def State.passed (s : State) (since : DWord) (us : Nat) : Bool := decide (1000 * us ≤ (s.time - since).toNat)

/-- The copy of the boot header is valid: its CRC-32 fits (R478). -/
def BootHeader.valid (h : BootHeader) : Bool := h.crcDiff == 0

/-- The copy that holds the highest valid sequence number (R478). -/
def Flash.newest (x : Flash) : Fin 2 :=
  let a := x.copies.get 0
  let b := x.copies.get 1
  if b.valid && (!a.valid || decide (a.seq.toNat < b.seq.toNat)) then 1 else 0

/-- The header in force (R478). DESIGN CHOICE: with neither copy valid, that of a device that leaves the factory. -/
def Flash.inForce (x : Flash) : BootHeader :=
  let h := x.copies.get x.newest
  if h.valid then h else {}

/-- MGMT_BOOT.STAGE (R482, R485). DESIGN CHOICE: a boot on its way reaches each step at its typical time. -/
def State.bootStage (s : State) : BitVec 4 :=
  let reached (us : Nat) : Bool := s.passed s.mgmt.bootFrom us
  if s.mgmt.stage != 1 then s.mgmt.stage
  else if reached 427000 then 7
  else if reached 355000 then 6
  else if reached 350000 then 5
  else if reached 150000 then 4
  else if reached 110000 then 3
  else if reached 80000 then 2
  else if reached 2000 then 1
  else 0

/-- The device's links and its management network are up: PWR_OK is high, and no production test runs (R551, R554). -/
def State.awake (s : State) : Bool := s.pins.pwrOk && !s.pins.prodTest

/-- PCIE_FN[f].EN: PF0 after configuration-ready, VF f while VF Enable is 1 and NumVFs reaches it
(R437). -/
def State.fnEnabled (s : State) (f : Func) : Bool :=
  s.host.cfgReady && (f == 0 || (s.host.vfEnable && decide (f.val ≤ s.host.numVfs.toNat)))

/-- The core of a tile. -/
def State.core (s : State) (t : Tile) : Core := s.cores.get t

/-- The state with the core of a tile changed. -/
def State.modCore (s : State) (t : Tile) (f : Core → Core) : State :=
  { s with cores := s.cores.set t.val (f (s.cores.get t)) t.isLt }

/-- A core after an event of its engines, which `k` stood before: the watch of each engine that has moved starts again, and
the engine is no longer stalled (R527, R529). -/
def Core.paced (k q : Core) : Core :=
  let m := [q.mtx != k.mtx, q.str != k.str, q.dma != k.dma]
  if m.any id then
    { q with
      timers := { q.timers with eng := Vector.ofFn fun e => if listAt false m e.val then 0 else q.timers.eng.get e }
      stalled := bitsOf 4 4 fun e => bit q.stalled e && !(decide (1 ≤ e) && listAt false m (e - 1)) }
  else q

/-- What an event of a tile's engines has made of the state `s`, with the engines' watches. -/
def State.paced (s : State) (t : Tile) (r : State) : State :=
  let q := (s.core t).paced (r.core t)
  if q = r.core t then r else r.modCore t fun _ => q

/-- A context of a tile's core. -/
def State.ctx (s : State) (t : Tile) (c : CtxId) : Ctx := (s.core t).ctxs.get c

/-- The core with a context changed. -/
def Core.modCtx (k : Core) (c : CtxId) (f : Ctx → Ctx) : Core :=
  { k with ctxs := k.ctxs.set c.val (f (k.ctxs.get c)) c.isLt }

/-- The state with a context changed. -/
def State.modCtx (s : State) (t : Tile) (c : CtxId) (f : Ctx → Ctx) : State :=
  s.modCore t (Core.modCtx · c f)

/-- The physical tile that serves a logical core (R25). -/
def State.tileOf (s : State) (n : LCore) : Tile := (s.board.map.get n).tile

/-- The logical core that a tile serves, if any (R25). -/
def State.lcoreOf (s : State) (t : Tile) : Option LCore :=
  (List.finRange 32).find? fun n => decide ((s.board.map.get n).tile = t)

/-- The partition that a logical core belongs to (R15): logical cores 8p to 8p + 7. -/
def partOf (n : LCore) : Part := ⟨n.val / 8, by omega⟩

/-- The logical core that a spare's tile serves or is to serve: from the moment castling begins until that core is
castled back (R15, R28). -/
def Spare.serves (p : Spare) : Option LCore :=
  if p.state == .copying || p.state == .castled then some p.lcore else none

/-- The partition that a tile belongs to: its own, or the one a spare has joined from the moment castling begins;
none for any other spare (R15, R17). -/
def State.joined (s : State) (t : Tile) : Option Part :=
  if h : t.val < 32 then some ⟨t.val / 8, by omega⟩
  else (s.board.spares.get ⟨(t.val - 32) % 2, Nat.mod_lt _ (by omega)⟩).serves.map partOf

/-- The partition whose memory a tile's core reaches (R17). -/
def State.tilePart (s : State) (t : Tile) : Part := (s.joined t).getD 0

/-- The page with a number. -/
def State.page (s : State) (P : Nat) : Page := Tab.get {} s.pages P

/-- The state with a page changed. -/
def State.modPage (s : State) (P : Nat) (f : Page → Page) : State :=
  { s with pages := Tab.mod {} s.pages P f }

/-- A configuration word in force (R56). -/
def State.live (s : State) (c : PageClass) (off : Nat) : Word :=
  Tab.get (regReset c off) (s.page (pageNo c)).live off

/-- A configuration word as a read returns it (R56). -/
def State.staged (s : State) (c : PageClass) (off : Nat) : Word :=
  Tab.get (regReset c off) (s.page (pageNo c)).staged off

/-- Whether a page's BLK_CTRL.ENABLE is 1; the pages of R51 and R387 read 1 always. -/
def State.enabled (s : State) (c : PageClass) : Bool :=
  match c with
  | .chip | .sec | .syncObj _ => true
  | c => (s.page (pageNo c)).enable

/-- The ring with a number. -/
def State.ring (s : State) (r : Nat) : Ring := Tab.get {} s.rings r

/-- The state with a ring changed. -/
def State.modRing (s : State) (r : Nat) (f : Ring → Ring) : State :=
  { s with rings := Tab.mod {} s.rings r f }

/-- The device is in saggar mode (R463). -/
def State.saggar (s : State) : Bool := s.sec.mode == .saggar

/-! ### Counters -/

/-- A counter of kind `k` at `v`, moved on by `n`, with whether it wrapped or saturated (R67, R69). -/
def bump (k : CounterKind) (v : DWord) (n : Nat) : DWord × Bool :=
  let x := v.toNat + n
  match k with
  | .wrap64 => (BitVec.ofNat 64 x, decide (2 ^ 64 ≤ x))
  | .sat64 => if 2 ^ 64 ≤ x then (BitVec.allOnes 64, true) else (BitVec.ofNat 64 x, false)
  | .perf48 => (BitVec.ofNat 64 (x % 2 ^ 48), decide (2 ^ 48 ≤ x))
  | .sat32 => if 2 ^ 32 ≤ x then (0xFFFFFFFF, true) else (BitVec.ofNat 64 x, false)

/-- The kind of a page's counter `i`. -/
def counterKind (c : PageClass) (i : Nat) : CounterKind := ((counterList c).getD i (0, .wrap64)).2

/-! ### Interrupts and MSI-X -/

/-- The page asserts its interrupt (R53). -/
def Page.irq (p : Page) : Bool := p.irqStatus &&& p.irqEnable != 0

/-- The ring's interrupt sources that are enabled (R369, R437). -/
def Ring.irq (r : Ring) : Bool := r.flags &&& r.irqen != 0

/-- RING_CFG.VEC in force. -/
def Ring.vec (r : Ring) : Nat := (fld r.live.cfg 16 6).toNat

/-- The condition of vector `v` of function `f`: the OR of its sources (R428, R429). -/
def State.vecSources (s : State) (f : Func) (v : Nat) : Bool :=
  (f == 0 && s.pages.any fun e =>
    match pageClass e.1 with
    | some c => pageVector c == v && e.2.irq
    | none => false) ||
  s.rings.any fun e => e.1 / 1024 == f.val && e.2.vec == v && e.2.irq

/-- The key of a vector in the MSI-X tables. -/
def vecKey (f : Func) (v : Nat) : Nat := 64 * f.val + v

/-- A bit per function. -/
def fnBit (x : BitVec 16) (f : Func) : Bool := bit x f.val

/-- A counter of a page moved on, without its interrupt. -/
def Page.bump (p : Page) (c : PageClass) (i n : Nat) : Page :=
  let r := Machine.bump (counterKind c i) (Tab.get 0 p.counters i) n
  { p with
    counters := Tab.set 0 p.counters i r.1
    ovf := if r.2 then setBit p.ovf i true else p.ovf }

/-- The MSI-X message of a vector is sent; where the vector or function is masked, the host is lost or
the function is being reset, its PBA bit is set; with MSI-X disabled nothing is sent (R429, R435). -/
def State.sendVec (s : State) (f : Func) (v : Nat) : State :=
  if !fnBit s.host.msixEn f then s
  else if fnBit s.host.maskAll f || !Tab.get false s.host.unmask (vecKey f v) || s.host.lost then
    { s with host := { s.host with pba := Tab.set false s.host.pba (vecKey f v) true } }
  else
    { s with
      host := { s.host with
        sent := .msix f (BitVec.ofNat 6 v) :: s.host.sent
        pba := Tab.set false s.host.pba (vecKey f v) false }
      pages := Tab.mod {} s.pages (pageNo .pcie) (Page.bump · .pcie 3 1) }

/-- The condition of a vector evaluated: a message when it rises, and, after a write that has cleared a source
(`again`), when it still holds; where it no longer holds, nothing is pending (R429, PCI Express). -/
def State.evalVec (s : State) (f : Func) (v : Nat) (again : Bool) : State :=
  let now := s.vecSources f v
  let old := Tab.get false s.host.cond (vecKey f v)
  let s := { s with host := { s.host with
    cond := Tab.set false s.host.cond (vecKey f v) now
    pba := if now then s.host.pba else Tab.set false s.host.pba (vecKey f v) false } }
  if now && (!old || again) then s.sendVec f v else s

/-- IRQ_STATUS bits of a page set, as an event sets them (R53). -/
def State.raise (s : State) (c : PageClass) (bits : Word) : State :=
  (s.modPage (pageNo c) fun p => { p with irqStatus := p.irqStatus ||| (bits &&& irqMask c) }).evalVec
    0 (pageVector c) false

/-- RING_STATUS flag bits set (R357, R369). -/
def State.raiseRing (s : State) (r : Nat) (bits : BitVec 4) : State :=
  let s := s.modRing r fun x => { x with flags := x.flags ||| bits }
  s.evalVec ⟨r / 1024 % 16, Nat.mod_lt _ (by omega)⟩ (s.ring r).vec false

/-- Counter `i` of a page moved on by `n`; a performance counter that wraps raises the PERF page's
overflow interrupt (R69). -/
def State.count (s : State) (c : PageClass) (i n : Nat) : State :=
  let r := bump (counterKind c i) (Tab.get 0 (s.page (pageNo c)).counters i) n
  let s := s.modPage (pageNo c) (Page.bump · c i n)
  match counterKind c i with
  | .perf48 => if r.2 then s.raise c 1 else s
  | _ => s

/-- A ring counter moved on (R357). -/
def Ring.count (r : Ring) (i : Fin 4) (n : Nat) : Ring :=
  let x := bump .wrap64 (r.counters.get i) n
  { r with
    counters := r.counters.set i.val x.1 i.isLt
    ovf := if x.2 then setBit r.ovf i.val true else r.ovf }

/-- The function of a ring (R356). -/
def ringFn (r : Nat) : Func := ⟨r / 1024 % 16, Nat.mod_lt _ (by omega)⟩

/-! ### Clock islands (R491, R515) -/

/-- The nominal frequency of an island in MHz (R491). -/
def nominal (i : Nat) : BitVec 11 :=
  if i < 284 then 1600
  else if i < 289 then 1000
  else if i < 291 then 1600
  else if i = 291 then 400
  else if i = 292 then 800
  else 1000

/-- The island is adaptive (R491): the islands of the core tiles. -/
def adaptive (i : Nat) : Bool := decide (i < 272)

/-- An island after reset. -/
def islReset (i : Nat) : Isl := { fset := nominal i }

/-- An island. -/
def State.isl (s : State) (i : Nat) : Isl := Tab.get (islReset i) s.clocks.isl i

/-- The state with an island changed. -/
def State.modIsl (s : State) (i : Nat) (f : Isl → Isl) : State :=
  { s with clocks := { s.clocks with isl := Tab.set (islReset i) s.clocks.isl i (f (s.isl i)) } }

/-- The clocks changed. -/
def State.modClk (s : State) (f : Clocks → Clocks) : State := { s with clocks := f s.clocks }

/-! ### Service (R33) -/

/-- An island works. -/
def State.islandOk (s : State) (i : Nat) : Bool := s.board.islandsOut.all fun x => x.val != i

/-- A logical core's own islands work: control, vector, AM, DMA and router (R33). -/
def State.coreWorks (s : State) (n : LCore) : Bool :=
  let t := 8 * (s.tileOf n).val
  !(s.board.map.get n).out && [0, 1, 4, 6, 7].all fun k => s.islandOk (t + k)

/-- Its matrix array, WM and PM islands work too (R33). -/
def State.matrixWorks (s : State) (n : LCore) : Bool :=
  let t := 8 * (s.tileOf n).val
  s.coreWorks n && !(s.board.map.get n).mtxOut && [2, 3, 5].all fun k => s.islandOk (t + k)

/-- A channel is in service: itself, its controller island and its partition's PHY (R16, R33). -/
def State.channelIn (s : State) (p : Part) (c : Nat) : Bool :=
  (s.board.channelsOut.all fun x => x.val != 16 * p.val + c) &&
    s.islandOk (272 + 2 * p.val + (if c < 8 then 0 else 1)) && s.islandOk (280 + p.val)

end Sys2Proof.Machine
end

