-- ==== Sys2Proof/Machine/Memory.lean ====
section
/-! DEFINITION. HBM: physical addresses and channels, marked lines, translation, and the accesses of
agents other than cores (R391 to R403, R405, R415 to R420). -/

namespace Sys2Proof.Machine

/-- The partition is recovering (R39). -/
def State.recovering (s : State) (p : Part) : Bool :=
  match (s.parts.get p).run with
  | .recovering => true
  | _ => false

/-- The stack and stack offset of a device physical address (R391, R394). -/
def State.stackOf (s : State) (dpa : Nat) : Part × Nat :=
  if s.hbm.wide then
    (⟨dpa / 4096 % 4, Nat.mod_lt _ (by omega)⟩, dpa / 16384 * 4096 + dpa % 4096)
  else
    (⟨dpa / 0x600000000 % 4, Nat.mod_lt _ (by omega)⟩, dpa % 0x600000000)

/-- The interleave set of a stack (R393). -/
def State.ileave (s : State) (p : Part) : List (Fin 16) := (s.hbm.units.get p).set

/-- The address lies in a populated range (R391). -/
def State.populated (s : State) (dpa : Nat) : Bool :=
  let x := s.stackOf dpa
  decide (dpa < 0x1800000000) && decide (x.2 < 0x60000000 * (s.ileave x.1).length)

/-- The channel of the stack that holds the address (R392). -/
def State.channelOf (s : State) (dpa : Nat) : Fin 16 :=
  let x := s.stackOf dpa
  let set := s.ileave x.1
  listAt 0 set (x.2 / 256 % set.length)

/-- A line is readable: it is populated and its channel is in service (R418). -/
def State.lineOk (s : State) (dpa : Nat) : Bool :=
  s.populated dpa && s.channelIn (s.stackOf dpa).1 (s.channelOf dpa).val

/-- The line carries an uncorrectable mark, or its channel has gone out of service (R416, R418). -/
def State.hbmMarked (s : State) (dpa : Nat) : Bool :=
  !s.lineOk dpa || Tab.get false s.hbm.marks (dpa / 64)

/-- A byte of HBM as a read returns it. -/
def State.hbmByte (s : State) (dpa : Nat) : Byte :=
  if s.lineOk dpa then Tab.get 0 s.hbm.mem dpa else 0

/-- `n` bytes of HBM. -/
def State.hbmBytes (s : State) (dpa n : Nat) : List Byte :=
  (List.range n).map fun i => s.hbmByte (dpa + i)

/-- Some line of the range carries a mark. -/
def State.hbmAnyMark (s : State) (dpa n : Nat) : Bool :=
  n != 0 && (List.range ((dpa + n - 1) / 64 - dpa / 64 + 1)).any fun i =>
    s.hbmMarked (dpa / 64 * 64 + 64 * i)

/-- The MEMC page of the channel that holds an address (R15). -/
def State.memcOf (s : State) (dpa : Nat) : PageClass :=
  .memc (16 * (s.stackOf dpa).1.val + (s.channelOf dpa).val)

/-- A channel's own state. -/
def State.chan (s : State) (i : Nat) : Channel := Tab.get {} s.hbm.channels i

/-- The state with a channel's own state changed. -/
def State.modChan (s : State) (i : Nat) (f : Channel → Channel) : State :=
  { s with hbm := { s.hbm with channels := Tab.mod {} s.hbm.channels i f } }

/-- A unit changed. -/
def State.modUnit (s : State) (p : Part) (f : DatUnit → DatUnit) : State :=
  { s with hbm := { s.hbm with units := s.hbm.units.set p.val (f (s.hbm.units.get p)) p.isLt } }

/-! ### Reservations (R405 to R409) -/

/-- DAT_DELIVER.CHANNELS: in-service channels of the interleave set. -/
def State.setChannels (s : State) (p : Part) : Nat :=
  ((s.ileave p).filter fun c => s.channelIn p c.val).length

/-- D as exact arithmetic gives it (R407). -/
def State.deliver (s : State) (p : Part) : Nat :=
  696 * s.setChannels p * (s.hbm.units.get p).therm / (16 * 256)

/-- RSV of a function in the live table. -/
def State.rsv (s : State) (p : Part) (f : Func) : Nat := (s.live (.dat p.val) (0x200 + 4 * f.val)).toNat

/-- The sum of the live reservations. -/
def State.rsvSum (s : State) (p : Part) : Nat :=
  (List.finRange 16).foldl (fun n f => n + s.rsv p f) 0

/-- EFF (R408). -/
def State.eff (s : State) (p : Part) (f : Func) : Nat :=
  if s.recovering p then 0
  else if s.rsvSum p ≤ s.deliver p then s.rsv p f
  else s.rsv p f * s.deliver p / s.rsvSum p

/-- What the token bucket of a function holds at the present time: it fills at EFF, up to 100 µs of it (R409). -/
def State.tokens (s : State) (p : Part) (f : Func) : Nat :=
  min ((s.hbm.units.get p).bucket.get f + (s.time - (s.hbm.units.get p).bucketTime).toNat * s.eff p f)
    (100000 * s.eff p f)

/-- The token buckets of a unit filled up to the present time (R409). -/
def State.fillBuckets (s : State) (p : Part) : State :=
  s.modUnit p fun u => { u with bucket := Vector.ofFn (s.tokens p), bucketTime := s.time }

/-- The index of an address's channel among the 64. -/
def State.chanOf (s : State) (dpa : Nat) : Nat := 16 * (s.stackOf dpa).1.val + (s.channelOf dpa).val

/-- The bytes of a request debited to its function, where it is within its reservation; any other takes its turn in the
round robin of its channel (R405, R409). -/
def State.debit (s : State) (f : Func) (dpa cost : Nat) : State :=
  let p := (s.stackOf dpa).1
  let s := s.fillBuckets p
  let b := (s.hbm.units.get p).bucket.get f
  if 64 ≤ b then s.modUnit p fun u => { u with bucket := u.bucket.set f.val (b - cost) f.isLt }
  else s.modChan (s.chanOf dpa) fun x => { x with rr := f.val }

/-! ### Requests at a channel (R393, R404, R405, R415, R416, R420, R421) -/

/-- The island that takes the writes of a page (R23): that of its block, or of the first of several. -/
def pageIsland : PageClass → Option Nat
  | .core t => some (8 * t)
  | .mtx t => some (8 * t + 2)
  | .spad t => some (8 * t + 4)
  | .dma t | .stripe t => some (8 * t + 6)
  | .memc i => some (272 + i / 8)
  | _ => none

/-- The island behind a page is gated: it accepts no write, and a sender sees back-pressure (R494). -/
def State.gatedPage (s : State) (c : PageClass) : Bool :=
  match pageIsland c with
  | some i => (s.isl i).gated
  | none => false

/-- The controller of a channel serves: its page is enabled and its island goes on (R421, R494). -/
def State.memcOn (s : State) (c : PageClass) : Bool := s.enabled c && !s.gatedPage c

/-- The channel of a line takes requests: its controller serves, or it has gone out of service and is not
accessed at all (R393, R421). -/
def State.lineServed (s : State) (dpa : Nat) : Bool := !s.lineOk dpa || s.memcOn (s.memcOf dpa)

/-- The parts of `[dpa, dpa + n)` in its lines, each one request (R405). -/
def linePieces (dpa n : Nat) : List (Nat × Nat) :=
  (List.range ((dpa + n - 1) / 64 - dpa / 64 + 1)).filterMap fun i =>
    let lo := max dpa ((dpa / 64 + i) * 64)
    let hi := min (dpa + n) ((dpa / 64 + i + 1) * 64)
    if lo < hi then some (lo, hi - lo) else none

/-- The context or channel whose request it is. -/
def HbmAgent.source : HbmAgent → LCore × Agent
  | .load lc c _ _ => (lc, .ctx c)
  | .store lc c => (lc, .ctx c)
  | .gone lc g => (lc, g)
  | .dmaRead lc ch _ => (lc, .dma ch)
  | .dmaWrite lc ch _ => (lc, .dma ch)

/-- Two requests are performed in their order: those of one context to one partition (R133), and the writes of one
channel (R351). -/
def HbmReq.before (q r : HbmReq) : Bool :=
  q.agent.source == r.agent.source && q.part == r.part && (match r.agent.source.2 with
    | .ctx _ => true
    | .dma _ => q.data.isSome && r.data.isSome)

/-- The requests whose turn has come: no earlier one has to be performed before them. -/
def hbmTurns : List HbmReq → List HbmReq → List HbmReq
  | _, [] => []
  | past, r :: rs => if past.any (·.before r) then hbmTurns (past ++ [r]) rs else r :: hbmTurns (past ++ [r]) rs

/-- The requests that wait at a channel and may be served (R133, R351, R409). -/
def State.waiting (s : State) (p : Part) (c : Fin 16) : List HbmReq :=
  (hbmTurns [] s.hbm.queue).filter fun r => (s.stackOf r.dpa).1 == p && s.channelOf r.dpa == c

/-- A request of a function that comes to a channel now has to wait for those that are queued there (R409): for every one
within its reservation, which is older; and, where the function is not within its own, for the other functions whose turn in
the round robin comes first, and for what the function itself has there. -/
def State.outranked (s : State) (f : Func) (dpa : Nat) : Bool :=
  let x := s.stackOf dpa
  let mine := s.waiting x.1 (s.channelOf dpa)
  let within (g : Func) : Bool := decide (64 ≤ s.tokens x.1 g)
  !mine.isEmpty && s.lineOk dpa && (mine.any (within ·.func) || !within f && (mine.any (·.func == f) ||
    roundRobin 16 (((s.chan (s.chanOf dpa)).rr + 1) % 16) (fun g => g == f.val || mine.any (·.func.val == g)) != some f.val))

/-- A request to one line waits: its stack recovers, its channel takes no request, or others come before it (R409, R421,
R533). -/
def State.hbmLineHeld (s : State) (f : Func) (dpa : Nat) : Bool :=
  s.recovering (s.stackOf dpa).1 || !s.lineServed dpa || s.outranked f dpa

/-- Some line of a function's range waits. -/
def State.hbmHeld (s : State) (f : Func) (dpa n : Nat) : Bool := (linePieces dpa n).any fun p => s.hbmLineHeld f p.1

/-- The pieces of an access that lie in one 4 KiB page each: offset and length. -/
def pagePieces (off len : Nat) : List (Nat × Nat) :=
  (List.range ((off + len - 1) / 4096 - off / 4096 + 1)).filterMap fun i =>
    let lo := max off ((off / 4096 + i) * 4096)
    let hi := min (off + len) ((off / 4096 + i + 1) * 4096)
    if lo < hi then some (lo, hi - lo) else none

/-- A line holds a correctable error. -/
def State.hbmFault (s : State) (dpa : Nat) : Bool := s.lineOk dpa && Tab.get false s.hbm.faults (dpa / 64)

/-- The channel line of an address, by which rows and the scrub count (R392). -/
def State.chanLine (s : State) (dpa : Nat) : Nat :=
  let x := (s.stackOf dpa).2
  x / 256 / (s.ileave (s.stackOf dpa).1).length * 4 + x / 64 % 4

/-- The pseudo-channel of a channel's line (R392). -/
def pseudoChannel (line : Nat) : Nat := line / 4 % 2

/-- The row of a channel's line: 1 KiB of one pseudo-channel. PRESUMED: the specification gives no size of a row. -/
def rowOfLine (line : Nat) : Nat := line / 32 * 2 + pseudoChannel line

/-- 24 hours in nanoseconds. -/
def dayNs : Nat := 86400000000000

/-- A correctable error of a row at a time, with those of the 24 h before; eight stay until the row is repaired
(R411). -/
def Channel.rowError (x : Channel) (row : Nat) (now : DWord) : Channel :=
  let old := Tab.get [] x.rowErrors row
  let near := if 8 ≤ old.length then old else old.filter fun t => decide ((now - t).toNat < dayNs)
  { x with rowErrors := Tab.set [] x.rowErrors row (now :: near) }

/-- A correctable error of a line corrected, written back and counted (R411, R415). -/
def State.hbmCorrect (s : State) (dpa : Nat) : State :=
  if !s.hbmFault dpa then s
  else
    let s := { s with hbm := { s.hbm with faults := Tab.set false s.hbm.faults (dpa / 64) false } }
    (s.modChan (s.chanOf dpa) fun x => x.rowError (rowOfLine (s.chanLine dpa)) s.time).count (s.memcOf dpa) 2 1

/-- An uncorrectable read of a line counted, with its address (R416, R421). -/
def State.hbmBad (s : State) (dpa : Nat) : State :=
  let a := dpa / 64 * 64
  ((s.modChan (s.chanOf a) fun x => { x with uncorrAddr := BitVec.ofNat 64 a }).count (s.memcOf a) 3 1).raise
    (s.memcOf a) 1

/-- One request of a function that reads a line: debited and counted, unless the channel is not read at all; errors
corrected or counted (R393, R405, R415, R416). -/
def State.lineRead (s : State) (f : Func) (dpa : Nat) : State :=
  let bad := s.hbmMarked dpa
  let s := if s.lineOk dpa then ((s.debit f dpa 64).count (s.memcOf dpa) 0 64).hbmCorrect dpa else s
  if bad then s.hbmBad dpa else s

/-- The counts of a write of `n` bytes of a line: in saggar mode a partial one is a read and a write, and a marked line
stays marked and counts as read (R405, R416, R420). -/
def State.lineWritten (s : State) (f : Func) (dpa n : Nat) : State :=
  if s.saggar && n != 64 then
    let s := (((s.debit f dpa 128).count (s.memcOf dpa) 1 128).count (s.memcOf dpa) 5 1).hbmCorrect dpa
    if s.hbmMarked dpa then s.hbmBad dpa else s
  else (s.debit f dpa 64).count (s.memcOf dpa) 1 64

/-- The reads of a channel that have waited through its latest pause still wait (R404). -/
def State.pausePending (s : State) (i : Nat) : Bool :=
  s.hbm.queue.any fun r => r.data.isNone && (s.chan i).paused.contains r.agent

/-- A pause of a channel: the reads that wait are noted (R404, R411). -/
def State.pauseChan (s : State) (i : Nat) : State :=
  let reads := (s.hbm.queue.filter fun r => r.data.isNone && s.chanOf r.dpa == i).map (·.agent)
  s.modChan i fun x => { x with paused := reads }

/-! ### Translation (R396 to R401) -/

/-- Who asks for a translation: DAT_FAULT_INFO.SRC (R402). -/
inductive XlateSrc where
  | core | dma | dispatcher | host | peer
  deriving DecidableEq, Repr

/-- The code of a source in DAT_FAULT_INFO (R402). -/
def XlateSrc.code : XlateSrc → BitVec 3
  | .core => 0
  | .dma => 1
  | .dispatcher => 2
  | .host => 3
  | .peer => 4

/-- The outcome of a translation: an address, a refusal with its cause, or an access held: by the
recovering stack that its walk reads, or because no partition translates (R397, R399, R400). -/
inductive Xlate where
  | ok (dpa : Nat)
  | refused (cause : Nat)
  | held (at_ : Option Part)
  deriving DecidableEq, Repr

/-- The access is held. -/
def Xlate.isHeld : Xlate → Bool
  | .held _ => true
  | _ => false

/-- A page as the tables give it: its base, whether it is 2 MiB, and whether writes may pass. -/
structure PageHit where
  base : Nat
  big : Bool
  writable : Bool
  deriving DecidableEq, Repr

/-- The outcome of a table walk. -/
inductive Walk where
  | hit (p : PageHit)
  | refused (cause : Nat)
  | held (at_ : Part)
  deriving DecidableEq, Repr

/-- DAT_ROOT, DAT_PALO and DAT_PAHI of a function, in force (R402). -/
def State.datRoot (s : State) (f : Func) : Word := s.live (.dat 0) (0x100 + 16 * f.val)

/-- The function translates: DAT_ROOT.EN. -/
def State.datEn (s : State) (f : Func) : Bool := bit (s.datRoot f) 31

/-- The range of a VF in bytes: from PALO, up to PAHI (R402). -/
def State.vfRange (s : State) (f : Func) : Nat × Nat :=
  ((s.live (.dat 0) (0x104 + 16 * f.val)).toNat * 2 ^ 21,
    (s.live (.dat 0) (0x108 + 16 * f.val)).toNat * 2 ^ 21)

/-- The range of bytes lies inside the range of a VF that translates (R399). -/
def State.inVfRange (s : State) (lo n : Nat) : Bool :=
  (List.finRange 16).any fun f =>
    f != 0 && s.datEn f && decide ((s.vfRange f).1 < lo + n) && decide (lo < (s.vfRange f).2)

/-- A table entry read: refused with cause 6 where the read is unpopulated or marked, or the table lies
in a VF's range; held while the request waits at its channel, as any other of its function (R399, R400, R405, R409,
R421). -/
def State.readEntry (s : State) (f : Func) (table size i : Nat) (checkVf : Bool) : DWord ⊕ Walk :=
  let a := table + 8 * i
  if !s.populated a then .inr (.refused 6)
  else if checkVf && s.inVfRange table size then .inr (.refused 6)
  else if s.hbmLineHeld f a then .inr (.held (s.stackOf a).1)
  else if s.hbmMarked a then .inr (.refused 6)
  else .inl (leVal 64 (s.hbmBytes a 8))

/-- The bits of an entry that the format names (R398). -/
def entryOk (e : DWord) (mask : DWord) : Bool := bit e 0 && e &&& ~~~mask == 0

/-- The table walk of a DVA (R398). -/
def State.walk (s : State) (f : Func) (dva : Nat) : Walk :=
  let root := (s.datRoot f &&& 0x0FFFFFFF).toNat * 4096
  match s.readEntry f root 8192 (dva / 2 ^ 30 % 1024) false with
  | .inr w => w
  | .inl e1 =>
    if !entryOk e1 0xFFFFFFF001 then .refused 1
    else match s.readEntry f ((fld e1 12 28).toNat * 4096) 4096 (dva / 2 ^ 21 % 512) true with
      | .inr w => w
      | .inl e2 =>
        if bit e2 2 then
          if !entryOk e2 0xFFFFE00007 then .refused 1
          else .hit ⟨(fld e2 21 19).toNat * 2 ^ 21, true, bit e2 1⟩
        else if !entryOk e2 0xFFFFFFFF03 then .refused 1
        else match s.readEntry f ((fld e2 8 32).toNat * 256) 256 (dva / 2 ^ 16 % 32) true with
          | .inr w => w
          | .inl e3 =>
            if !entryOk e3 0xFFFFFF0003 then .refused 1
            else .hit ⟨(fld e3 16 24).toNat * 2 ^ 16, false, bit e2 1 && bit e3 1⟩

/-- The addresses of the entries that a walk reads, in their order (R398, R405). -/
def State.walkReads (s : State) (f : Func) (dva : Nat) : List Nat :=
  let read (a : Nat) (checkVf : Bool) (table size : Nat) : Bool :=
    s.populated a && !(checkVf && s.inVfRange table size) && !s.hbmLineHeld f a
  let root := (s.datRoot f &&& 0x0FFFFFFF).toNat * 4096
  let a1 := root + 8 * (dva / 2 ^ 30 % 1024)
  if !read a1 false root 8192 then []
  else a1 :: (match s.readEntry f root 8192 (dva / 2 ^ 30 % 1024) false with
    | .inr _ => []
    | .inl e1 =>
      let t2 := (fld e1 12 28).toNat * 4096
      let a2 := t2 + 8 * (dva / 2 ^ 21 % 512)
      if !entryOk e1 0xFFFFFFF001 || !read a2 true t2 4096 then []
      else a2 :: (match s.readEntry f t2 4096 (dva / 2 ^ 21 % 512) true with
        | .inr _ => []
        | .inl e2 =>
          let t3 := (fld e2 8 32).toNat * 256
          let a3 := t3 + 8 * (dva / 2 ^ 16 % 32)
          if bit e2 2 || !entryOk e2 0xFFFFFFFF03 || !read a3 true t3 256 then [] else [a3]))

/-- The cached translation of a DVA (R400). -/
def DatUnit.find (u : DatUnit) (f : Func) (dva : Nat) : Option PageHit :=
  (u.tlb.find? fun e =>
    e.func == f && e.page == dva / 2 ^ (if e.big then 21 else 16)).map fun e =>
      ⟨e.dpa, e.big, e.writable⟩

/-- A translation entered in a unit's cache of 4,096, the oldest leaving first. -/
def DatUnit.enter (u : DatUnit) (f : Func) (dva : Nat) (p : PageHit) : DatUnit :=
  { u with tlb := (⟨f, p.big, dva / 2 ^ (if p.big then 21 else 16), p.writable, p.base⟩
      :: u.tlb).take 4096 }

/-- The tests on a page that the tables gave (R399), in the order of their causes. -/
def State.pageCause (s : State) (unit : Part) (f : Func) (src : XlateSrc) (write : Bool)
    (p : PageHit) : Nat :=
  let size := if p.big then 2 ^ 21 else 2 ^ 16
  if write && !p.writable then 2
  else if f != 0 && !(decide ((s.vfRange f).1 ≤ p.base) && decide (p.base + size ≤ (s.vfRange f).2))
    then 3
  else if src == .core && !s.hbm.wide && (s.stackOf p.base).1 != unit then 4
  else if !(s.populated p.base && s.populated (p.base + size - 1)) then 8
  else 0

/-- A refusal recorded in the translating unit (R401). -/
def State.xlateFault (s : State) (unit : Part) (f : Func) (dva : DWord) (src : XlateSrc) (write : Bool)
    (cause : Nat) : State :=
  let info : Word := (BitVec.ofNat 32 f.val) ||| (src.code.setWidth 32 <<< 4) |||
    (BitVec.ofNat 32 cause <<< 7) ||| (b2v 32 write <<< 11)
  let s := s.modUnit unit fun u => { u with faultDva := dva, faultInfo := info }
  (s.count (.dat unit.val) 2 1).raise (.dat unit.val) 1

/-- The entries that a translation by a unit reads: none where the access is refused before a walk, or its translation
is cached (R396, R400). -/
def State.xlateReads (s : State) (unit : Part) (f : Func) (dva : DWord) (extra : Nat) : List Nat :=
  if decide (2 ^ 40 ≤ dva.toNat) || extra != 0 || !s.enabled (.dat unit.val) || !s.datEn f ||
      ((s.hbm.units.get unit).find f dva.toNat).isSome then []
  else s.walkReads f dva.toNat

/-- The translation of an access by a unit (R396 to R401). `extra` is a cause that the access brings
with it (7 in saggar mode), 0 if none. The reads of its walk count towards the function (R405). The log records of a
refusal and of the errors found are `State.xlate`'s. -/
def State.xlateBare (s : State) (unit : Part) (f : Func) (dva : DWord) (src : XlateSrc) (write : Bool)
    (extra : Nat) : Xlate × State :=
  let refuse (cause : Nat) (s : State) := (Xlate.refused cause, s.xlateFault unit f dva src write cause)
  if dva.toNat ≥ 2 ^ 40 then refuse 5 s
  else if extra != 0 then refuse extra s
  else if !s.enabled (.dat unit.val) || !s.datEn f then refuse 1 s
  else
    let a := dva.toNat
    let done (p : PageHit) (s : State) :=
      match s.pageCause unit f src write p with
      | 0 => (Xlate.ok (p.base + a % (if p.big then 2 ^ 21 else 2 ^ 16)), s)
      | c => refuse c s
    match (s.hbm.units.get unit).find f a with
    | some p => done p (s.count (.dat unit.val) 0 1)
    | none =>
      let walk := s.walk f a
      let s := (s.xlateReads unit f dva extra).foldl (fun s a => s.lineRead f a) s
      match walk with
      | .held q => (.held (some q), s)
      | .refused c => refuse c ((s.count (.dat unit.val) 0 1).count (.dat unit.val) 1 1)
      | .hit p =>
        let s := ((s.count (.dat unit.val) 0 1).count (.dat unit.val) 1 1).modUnit unit
          (DatUnit.enter · f a p)
        done p s

/-- A partition is in service (R33): not recovering, at least 8 channels and a core, not offline. -/
def State.partIn (s : State) (p : Part) : Bool :=
  !s.recovering p && !(s.parts.get p).offline &&
    decide (8 ≤ countIdx 16 fun c => s.channelIn p c) &&
    (List.finRange 32).any fun n => partOf n == p && s.coreWorks n

/-- The unit that translates accesses that are not a core's: of the lowest partition in service; none
while none is (R397). -/
def State.sharedUnit (s : State) : Option Part := (List.finRange 4).find? s.partIn

/-- Some partition recovers. -/
def State.anyRecovering (s : State) : Bool := (List.finRange 4).any s.recovering

/-- The translation of an access that is not a core's (R397). -/
def State.xlateSharedBare (s : State) (f : Func) (dva : DWord) (src : XlateSrc) (write : Bool)
    (extra : Nat) : Xlate × State :=
  match s.sharedUnit with
  | some u => s.xlateBare u f dva src write extra
  | none =>
    if s.anyRecovering then (.held none, s)
    else (.refused 9, s.xlateFault 0 f dva src write 9)

/-! ### Accesses -/

/-- The line of an address with its mark cleared where a write covers all 64 bytes (R416). -/
def clearMarks (m : Tab Bool) (dpa n : Nat) : Tab Bool :=
  (List.range ((dpa + n - 1) / 64 - dpa / 64 + 1)).foldl (fun m i =>
    let l := dpa / 64 + i
    if dpa ≤ 64 * l ∧ 64 * l + 64 ≤ dpa + n then Tab.set false m l false else m) m

/-- Bytes written to HBM; a byte whose channel is out of service is dropped (R393). -/
def State.hbmWrite (s : State) (dpa : Nat) (bs : List Byte) : State :=
  let go := (List.range bs.length).foldl (fun (m : Tab Byte) i =>
    if s.lineOk (dpa + i) then Tab.set 0 m (dpa + i) (listAt 0 bs i) else m) s.hbm.mem
  { s with hbm := { s.hbm with
      mem := go
      marks := if bs.isEmpty then s.hbm.marks else clearMarks s.hbm.marks dpa bs.length
      faults := if bs.isEmpty then s.hbm.faults else clearMarks s.hbm.faults dpa bs.length } }

/-- Bytes that a function writes to a range, each line at its channel: counted there, or dropped and counted as such
where the channel is out of service (R393, R405, R420). The log record of a correctable error that a merge finds is
`State.hbmStore`'s. -/
def State.hbmStoreBare (s : State) (f : Func) (dpa : Nat) (bs : List Byte) : State :=
  (linePieces dpa bs.length).foldl (fun s p =>
    if s.lineOk p.1 then s.lineWritten f p.1 p.2 else s.count (s.memcOf p.1) 3 1) (s.hbmWrite dpa bs)

end Sys2Proof.Machine
end

