-- ==== Sys2Proof/Machine/Access.lean ====
section
/-! DEFINITION. Which accesses of the host reach the device: functions, their states, and BOOT (R42,
R422, R425, R426, R431, R432, R436). -/

namespace Sys2Proof.Machine

/-- The endpoint serves as R431 describes for BOOT: STATE is BOOT, or wedging runs (R460). -/
def State.inBoot (s : State) : Bool := s.board.svc.state == .boot || s.sec.wedging

/-- Where the base address of a function's BAR0, BAR2 or BAR4 stands: PF0's own, or the VFs' in PF0's SR-IOV
capability (R422, R424). -/
def barKey (vf : Bool) (bar : Fin 3) : Nat := if vf then 3 + bar.val else bar.val

/-- A BAR of a function has been assigned an address (R436). DESIGN CHOICE: a base address of 0 is none. -/
def Endpoint.assigned (h : Endpoint) (f : Func) (bar : Fin 3) : Bool := Tab.get 0 h.bars (barKey (f != 0) bar) != 0

/-- Accesses of a function to one of its BARs reach the endpoint: the link is up, the function is enabled and in D0,
and the BAR is assigned (R422, R434, R436). -/
def State.barReached (s : State) (f : Func) (bar : Fin 3) : Bool :=
  s.fnEnabled f && !s.host.lost && !fnBit s.host.d3hot f && s.host.assigned f bar

/-- BAR0 accesses of a function pass the endpoint, which a reset of the function stops (R432). -/
def State.barOpen (s : State) (f : Func) : Bool := s.barReached f 0 && !fnBit s.host.flr f

/-- BAR4 accesses of a function pass the endpoint, which a reset of the function stops (R432). -/
def State.bar4Open (s : State) (f : Func) : Bool := s.barReached f 2 && !fnBit s.host.flr f

/-- SYNC_ALLOC of a function in force: its first page index and how many (R390). -/
def State.syncAlloc (s : State) (f : Func) : Nat × Nat :=
  let w := s.live .sync (0x40 + 4 * f.val)
  ((fld w 0 6).toNat, (fld w 6 7).toNat)

/-- The function that owns an object (R380). -/
def State.syncOwner (s : State) (obj : BitVec 13) : Option Func :=
  (List.finRange 16).find? fun f =>
    let a := s.syncAlloc f
    decide (a.1 ≤ obj.toNat / 128) && decide (obj.toNat / 128 < a.1 + a.2)

/-- The page that an access of a function to BAR0 page number `v` reaches: PF0 sees the whole map, a VF
its view (R424, R425). -/
def State.viewPage (s : State) (f : Func) (v : Nat) : Option PageClass :=
  if f = 0 then pageClass v
  else if v = 0 then some .chip
  else if v = 1 then some (.fn f.val)
  else if v = 2 then some .sec
  else if 0x40 ≤ v ∧ v < 0x80 then some (.ring (64 * f.val + (v - 0x40)))
  else if 0x80 ≤ v ∧ v - 0x80 < (s.syncAlloc f).2 then some (.syncObj ((s.syncAlloc f).1 + (v - 0x80)))
  else none

/-- The page responds in BOOT (R431). -/
def bootPage (c : PageClass) : Bool :=
  match c with
  | .chip | .mgmt | .sec | .pcie => true
  | _ => false

/-- The page that an access reaches: firmware reaches every page. -/
def State.reach (s : State) (w : Who) (v : Nat) : Option PageClass :=
  match w with
  | .firmware => pageClass v
  | .func f =>
    if !s.barOpen f then none
    else match s.viewPage f v with
      | some c => if s.inBoot && !bootPage c then none else some c
      | none => none

/-- The page a command by its true page number may write: firmware's, PF0's, or one in a VF's view. A VF's
view of the CHIP page is read-only (R425). -/
def State.mayWrite (s : State) (w : Who) (c : PageClass) : Bool :=
  match w with
  | .firmware => true
  | .func f =>
    s.barOpen f && (!s.inBoot || bootPage c) && (f == 0 || (match c with
      | .sec => true
      | .ring k => k / 64 == f.val
      | .fn g => g == f.val
      | .syncObj k =>
        decide ((s.syncAlloc f).1 ≤ k) && decide (k < (s.syncAlloc f).1 + (s.syncAlloc f).2)
      | _ => false))

/-- The access comes from PF0 or system firmware. -/
def Who.pfOrFw (w : Who) : Bool :=
  match w with
  | .firmware => true
  | .func f => f == 0

/-- The function of an access; firmware counts as PF0 where a function is named. -/
def Who.fn (w : Who) : Func :=
  match w with
  | .firmware => 0
  | .func f => f

end Sys2Proof.Machine
end

