-- ==== Sys2Proof/Machine/Glaze.lean ====
section
/-! DEFINITION. The glaze codec (R283 to R288). -/

namespace Sys2Proof.Machine

/-- The code width: 3 at rate 1/2, 5 at rate 3/4 (R285). -/
def glazeBits (rate34 : Bool) : Nat := if rate34 then 5 else 3

/-- The bytes of a block (R283). -/
def glazeSize (rate34 : Bool) : Nat := if rate34 then 12 else 8

/-- An INT8 value with its sign bit inverted; a UINT8 value as it is (R284). -/
def glazeSign (signed : Bool) (v : Nat) : Nat := if signed then (v + 128) % 256 else v

/-- The scale of a block: the least s with (hi - lo) >> s within the code range (R285). -/
def glazeScale (range b : Nat) : Nat := (firstIdx 9 fun s => decide (range / 2 ^ s ≤ 2 ^ b - 1)).getD 8

/-- A block of 16 values encoded: the bytes of R283, lowest first (R284, R285). -/
def glazeEnc (signed rate34 : Bool) (vals : List Byte) : List Byte :=
  let v := vals.map fun x => glazeSign signed x.toNat
  let lo := v.foldl min 255
  let hi := v.foldl max 0
  let b := glazeBits rate34
  let s := glazeScale (hi - lo) b
  let codes := (List.range 16).foldl (fun n i =>
    n + (listAt 0 v i - lo) / 2 ^ s * 2 ^ (16 + b * i)) 0
  leBytes (BitVec.ofNat 96 (lo + 256 * s + codes)) (glazeSize rate34)

/-- Value `i` of a block decoded (R284, R285). -/
def glazeDec (signed rate34 : Bool) (block : List Byte) (i : Nat) : Byte :=
  let n := ofLe block
  let b := glazeBits rate34
  let s := n / 256 % 8
  let code := n / 2 ^ (16 + b * i) % 2 ^ b
  let v := min 255 (n % 256 + code * 2 ^ s + (if 0 < s then 2 ^ (s - 1) else 0))
  BitVec.ofNat 8 (glazeSign signed v)

/-- The map pixel that position `i` of the block at band `b`, block column `bx` takes on encoding (R287): a position outside
a map of `h` rows and `w` columns takes the pixel at the clamped coordinates within the block. -/
def glazePlace (h w b bx i : Nat) : Nat × Nat := (min (4 * b + i / 4) (h - 1), min (4 * bx + i % 4) (w - 1))

/-- The rows of band `b` that lie inside a map of `h` rows: those alone are written on decoding (R287). -/
def glazeRows (h b : Nat) : Nat := min 4 (h - 4 * b)

end Sys2Proof.Machine
end

