-- ==== Sys2Proof/Machine/Zirnoip.lean ====
section
/-! DEFINITION. The Zirnoip-2 instruction words: what operation a long or short form holds, which
operand fields are ILLEGAL, and which registers an operation reads and writes (R101, R104 to R113,
R154 to R172, R306, R310, R383, R562 to R572). -/

namespace Sys2Proof.Machine

/-- A 4-bit address register in a 5-bit field; the spare upper bit must be 0 (R106). -/
def areg (x : BitVec 5) : Option (BitVec 4) := if bit x 4 then none else some (x.setWidth 4)

/-- A register of a class of eight whose number lies in the low bits of a 5-bit field (R562). -/
def low3 (x : BitVec 5) : Option (BitVec 3) :=
  if fld x 3 2 = 0 then some (x.setWidth 3) else none

/-- A register of a class of eight at bits [21:19] with [23:22] 0 (R565). -/
def high3 (x : BitVec 5) : Option (BitVec 3) := low3 x

/-- The value if a condition holds. -/
def when {α : Type} (b : Bool) (x : Option α) : Option α := if b then x else none

/-- The LM operand fields; AM 1, 5 and 7 need bits [6:0] to be 0 (R106). -/
def memOf (w : BitVec 30) : Option MemAddr :=
  let am := fld w 21 3
  let m : MemAddr := ⟨am, fld w 12 4, fld w 0 12, fld w 7 5⟩
  if am = 1 ∨ am = 5 ∨ am = 7 then
    if fld w 0 7 = 0 then some { m with off := 0 } else none
  else some { m with dx := 0 }

/-- The tagged variant of the LM layout (R569). -/
def tagOf (w : BitVec 30) : Option TagAddr :=
  let am := fld w 21 3
  let m : TagAddr := ⟨am, fld w 12 4, fld w 0 9, fld w 4 5⟩
  if am = 1 ∨ am = 5 ∨ am = 7 then
    if fld w 0 4 = 0 then some { m with off := 0 } else none
  else some { m with dx := 0 }

/-- The integer functions of major 0x1E (R157). -/
def vintOf (n : Nat) : Option VIntFn :=
  [VIntFn.add, .sub, .adds, .addus, .subs, .subus, .and, .or, .xor, .min, .max, .minu, .maxu, .sll,
    .sra, .srl][n]?

/-- A long operation (R104, R107). DESIGN CHOICE: the pg field of `vlutld` and `vlutst` and the W field of `vbexp.acc`,
which their rules give no use, are ignored (R161, R168 do not say that they must be 0). -/
def decodeLong (w : BitVec 30) : Option Op :=
  let major := (fld w 24 6).toNat
  let rd := fld w 19 5
  let rs1 := fld w 14 5
  let rs2 := fld w 9 5
  let func := (fld w 0 9).toNat
  let imm := fld w 0 14
  let mem (f : MemAddr → Op) := (memOf w).map f
  -- the VR fields (R154)
  let pg := fld w 6 3
  let wd := fld w 4 2
  let vfn := (fld w 0 4).toNat
  match major with
  | 0x00 =>
    match func with
    | 0 => some (.alu .add rd rs1 rs2)
    | 1 => some (.alu .sub rd rs1 rs2)
    | 2 => some (.alu .and rd rs1 rs2)
    | 3 => some (.alu .or rd rs1 rs2)
    | 4 => some (.alu .xor rd rs1 rs2)
    | 5 => some (.alu .sll rd rs1 rs2)
    | 6 => some (.alu .srl rd rs1 rs2)
    | 7 => some (.alu .sra rd rs1 rs2)
    | 8 => some (.alu .min rd rs1 rs2)
    | 9 => some (.alu .max rd rs1 rs2)
    | 10 => some (.alu .minu rd rs1 rs2)
    | 11 => some (.alu .maxu rd rs1 rs2)
    | 12 => when (rs2 == 0) (some (.mov rd rs1))
    | 16 => when (rs2 == 0) ((low3 rs1).map fun p => .mfp rd p)
    | 17 => when (rs2 == 0) ((low3 rd).map fun p => .mtp p rs1)
    | _ => none
  | 0x01 => some (.aluImm .addi rd rs1 imm)
  | 0x02 => some (.aluImm .andi rd rs1 imm)
  | 0x03 => some (.aluImm .ori rd rs1 imm)
  | 0x04 => some (.aluImm .xori rd rs1 imm)
  | 0x05 =>
    when (fld w 7 7 == 0) <|
      match (fld w 5 2).toNat with
      | 0 => some (.aluImm .slli rd rs1 (fld w 0 5 |>.setWidth 14))
      | 1 => some (.aluImm .srli rd rs1 (fld w 0 5 |>.setWidth 14))
      | 2 => some (.aluImm .srai rd rs1 (fld w 0 5 |>.setWidth 14))
      | _ => none
  | 0x06 =>
    (high3 rd).bind fun p =>
      match func with
      | 0 => some (.cmp .eq p rs1 rs2)
      | 1 => some (.cmp .ne p rs1 rs2)
      | 2 => some (.cmp .lt p rs1 rs2)
      | 3 => some (.cmp .ltu p rs1 rs2)
      | 4 => some (.cmp .le p rs1 rs2)
      | 5 => some (.cmp .leu p rs1 rs2)
      | _ => none
  | 0x07 =>
    if bit w 18 then when (fld w 14 4 == 0) (some (.movhi rd (fld w 0 14)))
    else some (.movi rd (fld w 0 18))
  | 0x08 =>
    match func with
    | 0 => some (.mul .mul rd rs1 rs2)
    | 1 => some (.mul .mulh rd rs1 rs2)
    | 2 => some (.mul .mulhu rd rs1 rs2)
    | _ => none
  | 0x09 =>
    (high3 rd).bind fun a =>
      match func with
      | 0 => some (.mac .mac a rs1 rs2)
      | 1 => some (.mac .macu a rs1 rs2)
      | 2 => some (.mac .msu a rs1 rs2)
      | _ => none
  | 0x0A =>
    (high3 rd).bind fun a =>
      match func with
      | 0 => when (rs1 == 0 && rs2 == 0) (some (.clrAcc a))
      | 1 => some (.movAccFrom a rs1 rs2)
      | _ => none
  | 0x0B =>
    (low3 rs1).bind fun a =>
      match func with
      | 0 => some (.movAcc false rd a rs2)
      | 1 => some (.movAcc true rd a rs2)
      | _ => none
  | 0x0C =>
    match func with
    | 0 => (areg rd).bind fun d => (areg rs1).map fun a => .adda d a rs2
    | 1 => (areg rd).bind fun d => (areg rs1).map fun a => .suba d a rs2
    | 2 => when (rs2 == 0) ((areg rd).map fun d => .movaD d rs1)
    | 3 => when (rs2 == 0) ((areg rd).bind fun d => (areg rs1).map fun a => .movaA d a)
    | 4 => when (rs2 == 0) ((areg rs1).map fun a => .movd rd a)
    | 5 => (high3 rd).bind fun p => (areg rs1).bind fun a => (areg rs2).map fun b => .cmpa .eq p a b
    | 6 => (high3 rd).bind fun p => (areg rs1).bind fun a => (areg rs2).map fun b => .cmpa .lt p a b
    | 7 => (high3 rd).bind fun p => (areg rs1).bind fun a => (areg rs2).map fun b => .cmpa .le p a b
    | _ => none
  | 0x0D => (areg rd).bind fun d => (areg rs1).map fun a => .addaImm d a imm
  | 0x10 => mem (.load .byte (fld w 16 5))
  | 0x11 => mem (.load .half (fld w 16 5))
  | 0x12 => mem (.load .word (fld w 16 5))
  | 0x13 => mem (.store .byte (fld w 16 5))
  | 0x14 => mem (.store .half (fld w 16 5))
  | 0x15 => mem (.store .word (fld w 16 5))
  | 0x16 | 0x17 =>
    let fn : TagFn :=
      if major = 0x16 then (if bit w 9 then .take else .peek) else (if bit w 9 then .put else .stT)
    (tagOf w).bind fun m =>
      match (fld w 10 2).toNat with
      | 0 => some (.tagged fn .byte (fld w 16 5) m)
      | 1 => some (.tagged fn .half (fld w 16 5) m)
      | 2 => some (.tagged fn .word (fld w 16 5) m)
      | _ => none
  | 0x18 => some (.br (fld w 21 3) (bit w 20) (fld w 0 20))
  | 0x19 => some (.call (fld w 21 3) (bit w 20) (fld w 0 20))
  | 0x1A => some (.loop (fld w 22 2) (.imm (fld w 6 16)) ((fld w 0 6).setWidth 17))
  | 0x1B => some (.loop (fld w 22 2) (.reg (fld w 17 5)) (fld w 0 17))
  | 0x1C =>
    when (rd == 0 && rs1 == 0) <|
      match imm.toNat with
      | 1 => some .yield
      | 2 => some .fenceSp
      | 3 => some .ret
      | 4 => some .fenceRm
      | 5 => some .ifl
      | 6 => some .ctxEnd
      | _ => none
  | 0x1E => (vintOf vfn).map fun fn => .vint fn rd rs1 rs2 pg wd
  | 0x1F =>
    let pg := fld w 11 3
    let wd := fld w 9 2
    let imm6 := fld w 0 6
    match (fld w 6 3).toNat with
    | 0 => some (.vimm .addi rd rs1 pg wd imm6)
    | 1 => some (.vimm .slli rd rs1 pg wd imm6)
    | 2 => some (.vimm .srai rd rs1 pg wd imm6)
    | 3 => some (.vimm .srli rd rs1 pg wd imm6)
    | 4 => when (rs1 == 0) (some (.vimm .movi rd 0 pg wd imm6))
    | _ => none
  | 0x20 =>
    match vfn with
    | 0 => some (.vint .mulq rd rs1 rs2 pg wd)
    | 1 => some (.vint .mulh rd rs1 rs2 pg wd)
    | 2 => some (.vun .abs rd rs1 pg wd)
    | 3 => some (.vun .neg rd rs1 pg wd)
    | 4 => (low3 rs1).map fun a => .vnarrow .narrow rd a rs2 pg wd
    | 5 => (low3 rs1).map fun a => .vnarrow .narrowu rd a rs2 pg wd
    | 6 => (low3 rs1).map fun a => .vnarrow .narrowd rd a rs2 pg wd
    | 7 => some (.vint .avg rd rs1 rs2 pg wd)
    | _ => none
  | 0x21 =>
    when (wd == 0) <| (low3 rd).bind fun a =>
      match vfn with
      | 0 => some (.vmac .h a rs1 rs2 pg)
      | 1 => some (.vmac .hsu a rs1 rs2 pg)
      | 2 => some (.vmac .huu a rs1 rs2 pg)
      | 3 => some (.vmac .msuH a rs1 rs2 pg)
      | 4 => some (.vmac .b a rs1 rs2 pg)
      | 5 => some (.vmac .bsu a rs1 rs2 pg)
      | 6 => some (.vmac .buu a rs1 rs2 pg)
      | 7 => some (.vmac .msuB a rs1 rs2 pg)
      | 8 => when (rs1 == 0 && rs2 == 0) (some (.vacc .clr a 0 0 pg))
      | 9 => some (.vacc .movVa a rs1 rs2 pg)
      | 10 => some (.vacc .movVau a rs1 rs2 pg)
      | _ => none
  | 0x22 =>
    match vfn with
    | 0 => some (.vfp .add rd rs1 rs2 pg wd)
    | 1 => some (.vfp .sub rd rs1 rs2 pg wd)
    | 2 => some (.vfp .mul rd rs1 rs2 pg wd)
    | 3 => some (.vfp .fma rd rs1 rs2 pg wd)
    | 4 => some (.vfp .fms rd rs1 rs2 pg wd)
    | 5 => some (.vfp .min rd rs1 rs2 pg wd)
    | 6 => some (.vfp .max rd rs1 rs2 pg wd)
    | 7 => some (.vfp .abs rd rs1 rs2 pg wd)
    | 8 => some (.vfp .neg rd rs1 rs2 pg wd)
    | _ => none
  | 0x23 =>
    match vfn with
    | 0 => when (fld w 6 6 == 0) (some (.vsetl rd rs1 wd (fld w 12 2)))
    | 1 => some (.vsetlR rs1)
    | 2 => some (.vgetl rd)
    | 3 => (low3 rd).map fun p => .vcmp .eq p rs1 rs2 pg wd
    | 4 => (low3 rd).map fun p => .vcmp .lt p rs1 rs2 pg wd
    | 5 => (low3 rd).map fun p => .vcmp .ltu p rs1 rs2 pg wd
    | 6 => (low3 rd).map fun p => .vcmp .le p rs1 rs2 pg wd
    | 7 => (low3 rd).map fun p => .vcmp .feq p rs1 rs2 pg wd
    | 8 => (low3 rd).map fun p => .vcmp .flt p rs1 rs2 pg wd
    | 9 => (low3 rd).bind fun p => (low3 rs1).bind fun a => (low3 rs2).map fun b => .pred .and p a b pg wd
    | 10 => (low3 rd).bind fun p => (low3 rs1).bind fun a => (low3 rs2).map fun b => .pred .or p a b pg wd
    | 11 => (low3 rd).bind fun p => (low3 rs1).bind fun a => (low3 rs2).map fun b => .pred .xor p a b pg wd
    | 12 => (low3 rd).bind fun p => (low3 rs1).bind fun a => (low3 rs2).map fun b => .pred .not p a b pg wd
    | 13 => (low3 rd).bind fun p => (low3 rs1).bind fun a => (low3 rs2).map fun b => .pred .any p a b pg wd
    | 14 => (low3 rd).bind fun p => (low3 rs1).bind fun a => (low3 rs2).map fun b => .pred .all p a b pg wd
    | _ => (low3 rs1).bind fun a => (low3 rs2).map fun _ => .pcnt rd a pg wd
  | 0x24 =>
    let go (fn : VPermFn) := some (Op.vperm fn rd rs1 rs2 pg wd)
    match vfn with
    | 0 => go .perm
    | 1 => go .slideup
    | 2 => go .slidedn
    | 3 => go .zipLo
    | 4 => go .zipHi
    | 5 => go .unzipE
    | 6 => go .unzipO
    | 7 => go .rev
    | 8 => go .trn
    | 9 => go .bcast
    | _ => none
  | 0x25 =>
    let go (fn : VRedFn) := some (Op.vred fn rd rs1 rs2 pg wd)
    match vfn with
    | 0 => go .sum
    | 1 => go .sumu
    | 2 => go .max
    | 3 => go .min
    | 4 => go .maxi
    | 5 => go .mini
    | 6 => go .bexp
    | 7 => when (fld rs1 3 2 == 0) (go .bexpAcc)
    | 8 => go .fsum
    | 9 => go .fmaxi
    | 10 => go .fmini
    | _ => none
  | 0x26 =>
    -- bits [13:10] of the vs2 field must be 0 and bit [9] selects the table (R169)
    when (fld w 10 4 == 0) <|
      match vfn with
      | 0 => some (.vlut false (fld w 9 1) rd rs1 pg wd)
      | 1 => some (.vlut true (fld w 9 1) rd rs1 pg wd)
      | _ => none
  | 0x27 =>
    (low3 rs1).bind fun wr =>
      if bit w 0 then when (rd == 0 && fld w 1 8 == 0) (some (.vdwin wr rs2))
      else when (!bit w 1) ((low3 rd).map fun a =>
        .vdwmac a wr rs2 (fld w 7 2) (fld w 5 2) (bit w 4) (bit w 3) (bit w 2))
  | 0x28 | 0x29 | 0x2A | 0x2B =>
    let x := bit w 22
    let off : VOff := if x then .reg (fld w 4 5) (fld w 2 2) else .imm (fld w 0 9)
    let fn : VMemFn :=
      match major with
      | 0x28 => .unit
      | 0x29 => .strided
      | 0x2A => .twoD
      | _ => .indexed
    when (!bit w 21 && (!x || fld w 0 2 == 0))
      (some (.vmem fn (bit w 23) (fld w 16 5) (fld w 12 4) (fld w 9 3) off))
  | 0x2C =>
    let cvt (fn : VCvtFn) := when (wd == 0) (some (Op.vcvt fn rd rs1 pg))
    match vfn with
    | 0 => cvt .sW
    | 1 => cvt .wS
    | 2 => cvt .sBf
    | 3 => cvt .bfS
    | 4 => cvt .sE4
    | 5 => cvt .sE5
    | 6 => cvt .e4S
    | 7 => cvt .e5S
    | 8 => some (.vext rd rs1 rs2 pg wd)
    | 9 => some (.vins rd rs1 rs2 pg wd)
    | 10 => cvt .hB
    | 11 => cvt .hBu
    | _ => none
  | 0x2D =>
    let x := bit w 22
    let off : VOff := if x then .reg (fld w 4 5) (fld w 2 2) else .imm (fld w 0 9)
    when (!bit w 21 && fld w 17 4 == 0 && (!x || fld w 0 2 == 0))
      (some (.vlutMem (bit w 23) (fld w 16 1) (fld w 12 4) off))
  | 0x2E => mem (.mjob (fld w 16 5))
  | 0x2F => mem (.dma (fld w 16 5))
  | 0x30 => mem (.dmac (fld w 16 5))
  | 0x31 => mem (.sjob (fld w 16 5))
  | 0x32 => mem (.inp (fld w 16 5))
  | 0x33 => mem (.out (fld w 16 5))
  | 0x34 => mem (.crget (fld w 16 5))
  | 0x35 => mem (.crput (fld w 16 5))
  | 0x36 =>
    match (fld w 21 3).toNat with
    | 0 => some (.sync .add (fld w 16 5) (fld w 12 4) (fld w 0 12))
    | 1 => some (.sync .set (fld w 16 5) (fld w 12 4) (fld w 0 12))
    | 2 => some (.sync .cas (fld w 16 5) (fld w 12 4) (fld w 0 12))
    | _ => none
  | 0x37 =>
    match (fld w 21 3).toNat with
    | 0 => some (.sync .wait (fld w 16 5) (fld w 12 4) (fld w 0 12))
    | 1 => some (.sync .rd (fld w 16 5) (fld w 12 4) (fld w 0 12))
    | _ => none
  | 0x3C =>
    when (fld w 5 9 == 0) <|
      match rd.toNat with
      | 0 => some (.mfsr rs1 (fld w 0 5))
      | 1 => some (.mtsr (fld w 0 5) rs1)
      | _ => none
  | 0x3D =>
    match rd.toNat with
    | 0 => when (fld w 12 2 == 0) (some (.outp rs1 (fld w 0 12)))
    | 1 => some (.tagmode rs1 imm)
    | _ => none
  | 0x3E =>
    when (rs1 == 0 && imm == 0) <|
      match rd.toNat with
      | 0 => some .eret
      | 1 => some .ctxReset
      | 2 => some .irqOn
      | 3 => some .irqOff
      | _ => none
  | _ => none

/-- A short operation (R104, R105, R108). -/
def decodeShort (x : BitVec 15) : Option Op :=
  let d1 : BitVec 5 := (fld x 6 4).setWidth 5
  let d2 : BitVec 5 := (fld x 2 4).setWidth 5
  let ab : BitVec 4 := (fld x 3 3).setWidth 4
  let imm3 := fld x 0 3
  let z2 := fld x 0 2 == 0
  let simm6 : BitVec 14 := (fld x 0 6).signExtend 14
  let p2 : BitVec 3 := (fld x 8 2).setWidth 3
  let s4 : BitVec 5 := (fld x 4 4).setWidth 5
  let s0 : BitVec 5 := (fld x 0 4).setWidth 5
  let at_ (off : Nat) : MemAddr := ⟨0, ab, BitVec.ofNat 12 off, 0⟩
  let wd : BitVec 2 := fld x 0 2 + 1
  let vw (fn : VIntFn) := when (fld x 0 2 != 3) (some (Op.vint fn d1 d1 d2 0 wd))
  match (fld x 10 5).toNat with
  | 0x00 => when (fld x 0 10 == 0) (some .nop)
  | 0x01 => when z2 (some (.mov d1 d2))
  | 0x02 => when z2 (some (.alu .add d1 d1 d2))
  | 0x03 => when z2 (some (.alu .sub d1 d1 d2))
  | 0x04 => when z2 (some (.alu .and d1 d1 d2))
  | 0x05 => when z2 (some (.alu .or d1 d1 d2))
  | 0x06 => when z2 (some (.alu .xor d1 d1 d2))
  | 0x07 => some (.aluImm (if bit x 5 then .srai else .slli) d1 d1 ((fld x 0 5).setWidth 14))
  | 0x08 => some (.aluImm .addi d1 d1 simm6)
  | 0x09 => some (.movi d1 ((fld x 0 6).signExtend 18))
  | 0x0A => some (.cmp .lt p2 s4 s0)
  | 0x0B => some (.cmp .eq p2 s4 s0)
  | 0x0C => some (.addaImm ((fld x 7 3).setWidth 4) ((fld x 7 3).setWidth 4)
      ((fld x 0 7).signExtend 14))
  | 0x0D => when (imm3 == 0) (some (.movaD ((fld x 7 3).setWidth 4) ((fld x 3 4).setWidth 5)))
  | 0x0E => some (.load .word d1 (at_ (imm3.toNat * 4)))
  | 0x0F => some (.store .word d1 (at_ (imm3.toNat * 4)))
  | 0x10 => some (.load .half d1 (at_ (imm3.toNat * 2)))
  | 0x11 => some (.store .half d1 (at_ (imm3.toNat * 2)))
  | 0x12 => some (.load .byte d1 (at_ imm3.toNat))
  | 0x13 => some (.store .byte d1 (at_ imm3.toNat))
  | 0x14 => some (.vmem .unit false d1 ab 0 (.short imm3))
  | 0x15 => some (.vmem .unit true d1 ab 0 (.short imm3))
  | 0x16 => vw .add
  | 0x17 => vw .sub
  | 0x18 => some (.vmac .h p2 s4 s0 0)
  | 0x19 => when z2 (some (.vun .mov d1 d2 0 0))
  | 0x1A => vw .max
  | 0x1B => vw .min
  | 0x1C => some (.br 0 false ((fld x 0 10).signExtend 20))
  | 0x1D => some (.br p2 (bit x 7) ((fld x 0 7).signExtend 20))
  | 0x1E =>
    match (fld x 0 10).toNat with
    | 1 => some .yield
    | 2 => some .fenceSp
    | 3 => some .ret
    | _ => none
  | _ => none

/-- The operations of an instruction word: one long, or two short, the upper first (R104). `none` in
the list is an undefined operation. -/
def decodeWord (w : Word) : List (Option Op) :=
  if bit w 30 then [decodeShort (fld w 15 15), decodeShort (fld w 0 15)]
  else [decodeLong (fld w 0 30)]

/-! ### Operand fields that are ILLEGAL -/

/-- AM values 2 and 3, and a mode-4 to mode-6 load into its own index register, are ILLEGAL (R101,
R102). -/
def amOk (am : BitVec 3) : Bool := am != 2 && am != 3

/-- A load of mode 5 whose data register is its index register is ILLEGAL; modes 4 and 6 have no index
register (R102). -/
def loadOk (am : BitVec 3) (rd dx : BitVec 5) : Bool := amOk am && !(am == 5 && rd == dx)

/-- The low 16 registers of a class of 32, which a short operation reaches (R105). -/
def low16 (r : BitVec 5) : Bool := decide (r.toNat < 16)

/-- The low 8 address registers, which a short operation reaches (R105). -/
def low8 (r : BitVec 4) : Bool := decide (r.toNat < 8)

/-- The low 4 predicates or accumulators, which a short operation reaches (R105). -/
def low4 (r : BitVec 3) : Bool := decide (r.toNat < 4)

/-- The value fits a signed field of `k` bits. -/
def fits {n : Nat} (k : Nat) (v : BitVec n) : Bool :=
  decide (-(2 ^ (k - 1) : Int) ≤ v.toInt) && decide (v.toInt < (2 ^ (k - 1) : Int))

/-- The operand of a short scalar load or store: a base with 3 bits of offset in units of the access (R101,
R108). -/
def shortMem (size : MemSize) (m : MemAddr) : Bool :=
  let n := match size with
    | .byte => 1
    | .half => 2
    | .word => 4
  m.am == 0 && m.dx == 0 && low8 m.ab && decide (m.off.toNat % n = 0) && decide (m.off.toNat / n < 8)

/-- The operation has a short form that reaches its operands (R105, R108). -/
def Op.shortForm : Op → Bool
  | .nop | .yield | .fenceSp | .ret => true
  | .mov rd rs => low16 rd && low16 rs
  | .alu fn rd a b =>
    (match fn with
      | .add | .sub | .and | .or | .xor => true
      | _ => false) && rd == a && low16 rd && low16 b
  | .aluImm fn rd a imm =>
    rd == a && low16 rd && (match fn with
      | .slli | .srai => decide (imm.toNat < 32)
      | .addi => fits 6 imm
      | _ => false)
  | .movi rd imm => low16 rd && fits 6 imm
  | .cmp fn pd a b =>
    (match fn with
      | .lt | .eq => true
      | _ => false) && low4 pd && low16 a && low16 b
  | .addaImm ad x imm => ad == x && low8 ad && fits 7 imm
  | .movaD ad rs => low8 ad && low16 rs
  | .load size rd m => low16 rd && shortMem size m
  | .store size rs m => low16 rs && shortMem size m
  | .vmem fn _ v ab pg off =>
    fn == .unit && pg == 0 && low16 v && low8 ab && (match off with
      | .short _ => true
      | _ => false)
  | .vint fn vd a b pg w =>
    (match fn with
      | .add | .sub | .max | .min => true
      | _ => false) && vd == a && low16 vd && low16 b && pg == 0 && w != 0
  | .vmac fn va a b pg => fn == .h && low4 va && low16 a && low16 b && pg == 0
  | .vun fn vd a pg w => fn == .mov && low16 vd && low16 a && pg == 0 && w == 0
  | .br p neg soff => (p == 0 && !neg && fits 10 soff) || (low4 p && fits 7 soff)
  | _ => false

/-- The operation is defined for its operand fields, whatever the machine's state (R101, R102, R107,
R154 to R172, R306, R310, R332, R383, R567, R571). DESIGN CHOICE: a `vlutld` or `vlutst` with a scale that is not 0 is
none, as R172 has it for the forms of that layout that use no scale. -/
def Op.legal : Op → Bool
  | .load _ rd m => loadOk m.am rd m.dx
  | .store _ _ m => amOk m.am
  | .tagged fn _ r m =>
    match fn with
    | .peek | .take => loadOk m.am r m.dx
    | .stT | .put => amOk m.am
  | .inp _ m | .out _ m => m.am == 0 || m.am == 1
  | .crget _ m | .crput _ m => m.am == 0
  | .mjob _ m | .dma _ m | .dmac _ m | .sjob _ m => m.am == 0 || m.am == 1
  | .movAccFrom _ _ sh => decide (sh.toNat ≤ 8)
  | .sync fn d _ _ =>
    match fn with
    | .cas => fld d 0 2 == 0
    | _ => fld d 0 1 == 0
  | .tagmode _ operand => decide (operand.toNat ≤ 2)
  | .vsetl _ _ sew _ => sew != 3
  | .vacc fn _ _ sh _ =>
    match fn with
    | .clr => true
    | _ => decide (sh.toNat ≤ 23)
  | .vfp _ _ _ _ _ w => w == 0 || w == 1
  | .vcmp fn _ _ _ _ w =>
    match fn with
    | .feq | .flt => w == 0 || w == 1
    | _ => true
  | .vred fn _ _ _ _ w =>
    match fn with
    | .fsum | .fmaxi | .fmini => w == 0 || w == 1
    | _ => true
  | .vun fn vd a pg w => fn != .mov || Op.shortForm (.vun fn vd a pg w)
  | .vmem fn store v ab pg off =>
    match fn, off with
    | .unit, .imm _ => true
    | .unit, .short i => Op.shortForm (.vmem .unit store v ab pg (.short i))
    | .unit, .reg _ sc => sc == 0
    | .strided, .reg _ sc => sc == 0
    | .twoD, .reg rx sc => sc == 0 && fld rx 0 1 == 0
    | .indexed, .reg _ _ => true
    | _, _ => false
  | .vlutMem _ _ _ off =>
    match off with
    | .imm _ => true
    | .reg _ sc => sc == 0
    | .short _ => false
  | .vdwmac va _ _ k dil c32 _ _ =>
    let kk := 2 * k.toNat + 3
    let p := if c32 then 8 else 16
    fld va 0 1 == 0 && k != 3 && decide ((kk - 1) * (dil.toNat + 1) ≤ p)
  | _ => true

end Sys2Proof.Machine
end

