-- ==== Sys2Proof/Machine/Operands.lean ====
section
/-! DEFINITION. The unit classes, registers and privilege of an operation, and the bundle rules that
follow from them (R86, R111 to R113, R146, R149, R150). -/

namespace Sys2Proof.Machine

/-- The unit classes of R111. -/
inductive UnitClass where
  | control | addrGen | loadStore | alu | mac | vecArith | vecMac | command
  deriving DecidableEq, Repr

/-- The unit classes an operation counts against; a vector memory access counts as two (R111, R149,
R150). DESIGN CHOICE: a gather or scatter counts as its two load/store operations alone, though R149 lists its address
generation in the XL pipe: R111 limits operations, and that is not said to be one. -/
def Op.units : Op → List UnitClass
  | .nop => []
  | .alu .. | .mov .. | .mfp .. | .mtp .. | .aluImm .. | .movi .. | .movhi .. | .cmp .. => [.alu]
  | .mul .. | .mac .. | .clrAcc .. | .movAccFrom .. | .movAcc .. => [.mac]
  | .adda .. | .addaImm .. | .suba .. | .movaD .. | .movaA .. | .movd .. | .cmpa .. => [.addrGen]
  | .load .. | .store .. | .tagged .. | .inp .. | .out .. | .inAt .. | .outAt .. | .crget ..
  | .crput .. | .sync .. | .vlutMem .. => [.loadStore]
  | .br .. | .call .. | .ret | .loop .. | .yield | .fenceSp | .fenceRm | .ifl | .ctxEnd => [.control]
  | .outp .. | .mfsr .. | .mtsr .. | .tagmode .. | .eret | .ctxReset | .irqOn | .irqOff => []
  | .mjob .. | .dma .. | .dmac .. | .sjob .. => [.command]
  | .vint .. | .vimm .. | .vun .. | .vnarrow .. | .vfp .. | .vsetl .. | .vsetlR .. | .vgetl ..
  | .vcmp .. | .pred .. | .pcnt .. | .vperm .. | .vred .. | .vcvt .. | .vext .. | .vins ..
  | .vlut .. | .vdwin .. => [.vecArith]
  | .vmac .. | .vacc .. | .vdwmac .. => [.vecMac]
  | .vmem .. => [.loadStore, .loadStore]

/-- The privileged instructions (R88, R107). -/
def Op.privileged : Op → Bool
  | .outp .. | .mfsr .. | .mtsr .. | .tagmode .. | .eret | .ctxReset | .irqOn | .irqOff => true
  | _ => false

/-- The limit of a class per bundle (R111). -/
def UnitClass.limit : UnitClass → Nat
  | .control | .mac | .vecMac | .command => 1
  | .addrGen | .loadStore | .alu | .vecArith => 2

/-- A register by class and number. -/
inductive Reg where
  | a (n : Nat) | d (n : Nat) | acc (n : Nat) | v (n : Nat) | va (n : Nat) | p (n : Nat) | wr (n : Nat)
  | loop (n : Nat)
  deriving DecidableEq, Repr

/-- A vector group of `g` registers (R146). -/
def vgrp (g : Nat) (r : BitVec 5) : List Reg := (List.range g).map fun i => Reg.v (r.toNat + i)

/-- An accumulator group. -/
def vagrp (g : Nat) (r : BitVec 3) : List Reg := (List.range g).map fun i => Reg.va (r.toNat + i)

/-- The base register that an addressing mode updates (R101). -/
def amWrites (am : BitVec 3) (ab : BitVec 4) : List Reg :=
  if am = 4 ∨ am = 5 ∨ am = 6 then [.a ab.toNat] else []

/-- The registers an address reads (R101). -/
def amReads (am : BitVec 3) (ab : BitVec 4) (dx : BitVec 5) : List Reg :=
  if am = 1 ∨ am = 5 ∨ am = 7 then [.a ab.toNat, .d dx.toNat] else [.a ab.toNat]

/-- A predicate that is written; p0 is not (R86, R112). -/
def pw (p : BitVec 3) : List Reg := if p = 0 then [] else [.p p.toNat]

/-- The registers an operation writes, with groups of `g` registers (R112); of those that `ctx.reset` clears
(R572), the ones that a pending load can have for its destination (R81). DESIGN CHOICE: VL and VTYPE are no register
here, so two of `vsetl` and `vsetl.r` may share a bundle and the later one's stand (R112 and R143 do not say). -/
def Op.writes (g : Nat) : Op → List Reg
  | .alu _ rd _ _ | .mov rd _ | .mfp rd _ | .aluImm _ rd _ _ | .movi rd _ | .movhi rd _
  | .mul _ rd _ _ | .movAcc _ rd _ _ | .movd rd _ | .inAt rd _ | .mfsr rd _ | .vsetl rd _ _ _
  | .vgetl rd | .pcnt rd _ _ _ | .vext rd _ _ _ _ => [.d rd.toNat]
  | .inp rd _ => [.d rd.toNat]
  | .mtp p _ | .cmp _ p _ _ | .cmpa _ p _ _ | .vcmp _ p _ _ _ _ | .pred _ p _ _ _ _ => pw p
  | .mac _ acc _ _ | .clrAcc acc | .movAccFrom acc _ _ => [.acc acc.toNat]
  | .adda ad _ _ | .addaImm ad _ _ | .suba ad _ _ | .movaD ad _ | .movaA ad _ => [.a ad.toNat]
  | .load _ rd m => .d rd.toNat :: amWrites m.am m.ab
  | .store _ _ m => amWrites m.am m.ab
  | .tagged fn _ r m =>
    match fn with
    | .peek | .take => .d r.toNat :: amWrites m.am m.ab
    | .stT | .put => amWrites m.am m.ab
  | .call .. => [.a 14]
  | .loop k _ _ => [.loop k.toNat]
  | .crget d _ | .crput d _ => [.d d.toNat]
  | .mjob d _ | .sjob d _ => [.d d.toNat]
  | .dma .. | .dmac .. => []
  | .sync fn d _ _ =>
    match fn with
    | .add | .set => []
    | .cas => [.d d.toNat, .d (d.toNat + 1), .d (d.toNat + 2)]
    | .wait | .rd => [.d d.toNat, .d (d.toNat + 1)]
  | .vint _ vd _ _ _ _ | .vimm _ vd _ _ _ _ | .vun _ vd _ _ _ | .vnarrow _ vd _ _ _ _
  | .vfp _ vd _ _ _ _ | .vperm _ vd _ _ _ _ | .vcvt _ vd _ _ | .vins vd _ _ _ _
  | .vlut _ _ vd _ _ _ => vgrp g vd
  | .vmac _ va _ _ _ | .vacc _ va _ _ _ => vagrp g va
  | .vred fn rd _ rd2 _ _ =>
    match fn with
    | .maxi | .mini | .fmaxi | .fmini => [.d rd.toNat, .d rd2.toNat]
    | _ => [.d rd.toNat]
  | .vdwin wr _ => [.wr wr.toNat]
  | .vdwmac va _ _ _ _ _ _ _ => [.va va.toNat, .va (va.toNat + 1)]
  | .vmem _ store v _ _ _ => if store then [] else vgrp g v
  | .ctxReset => (List.range 32).flatMap fun k => [.d k, .v k]
  | .nop | .br .. | .ret | .yield | .fenceSp | .fenceRm | .ifl | .ctxEnd | .out .. | .outAt ..
  | .outp .. | .mtsr .. | .tagmode .. | .eret | .irqOn | .irqOff | .vsetlR ..
  | .vlutMem .. => []

/-- The registers an operation reads, with groups of `g` registers (R81, R114, R183): its sources, not a destination
whose inactive elements stay (R148). `ctx.end` reads d0 (R366). -/
def Op.reads (g : Nat) : Op → List Reg
  | .alu _ _ a b | .cmp _ _ a b | .mul _ _ a b | .mac _ _ a b => [.d a.toNat, .d b.toNat]
  | .mov _ a | .mtp _ a | .aluImm _ _ a _ | .movAccFrom _ a _ | .movaD _ a | .outAt a _ | .outp a _
  | .mtsr _ a | .tagmode a _ | .vsetl _ a _ _ | .vsetlR a => [.d a.toNat]
  | .movhi rd _ => [.d rd.toNat]
  | .adda _ x b | .suba _ x b => [.a x.toNat, .d b.toNat]
  | .addaImm _ x _ | .movaA _ x | .movd _ x => [.a x.toNat]
  | .cmpa _ _ x y => [.a x.toNat, .a y.toNat]
  | .load _ _ m | .inp _ m => amReads m.am m.ab m.dx
  | .store _ rs m | .out rs m => .d rs.toNat :: amReads m.am m.ab m.dx
  | .tagged fn _ r m =>
    match fn with
    | .peek | .take => amReads m.am m.ab m.dx
    | .stT | .put => .d r.toNat :: amReads m.am m.ab m.dx
  | .ret => [.a 14]
  | .ctxEnd => [.d 0]
  | .loop _ (.reg d) _ => [.d d.toNat]
  | .crget d m | .crput d m | .dma d m | .dmac d m => .d d.toNat :: amReads m.am m.ab m.dx
  | .mjob _ m | .sjob _ m => amReads m.am m.ab m.dx
  | .sync fn d ab _ =>
    match fn with
    | .cas => [.a ab.toNat, .d d.toNat, .d (d.toNat + 1), .d (d.toNat + 2), .d (d.toNat + 3)]
    | .rd => [.a ab.toNat]
    | _ => [.a ab.toNat, .d d.toNat, .d (d.toNat + 1)]
  | .vint _ _ a b _ _ => vgrp g a ++ vgrp g b
  | .vfp fn vd a b _ _ =>
    match fn with
    | .abs | .neg => vgrp g a
    | .fma | .fms => vgrp g vd ++ vgrp g a ++ vgrp g b
    | _ => vgrp g a ++ vgrp g b
  | .vcmp _ _ a b _ _ => vgrp g a ++ vgrp g b
  | .vimm fn _ a _ _ _ =>
    match fn with
    | .movi => []
    | _ => vgrp g a
  | .vun _ _ a _ _ | .vcvt _ _ a _ => vgrp g a
  | .vnarrow fn _ _ sh _ _ =>
    match fn with
    | .narrowd => [.d sh.toNat]
    | _ => []
  | .vmac _ _ a b _ => vgrp g a ++ vgrp g b
  | .vacc fn _ a _ _ =>
    match fn with
    | .clr => []
    | _ => vgrp g a
  | .vperm fn _ a b _ _ =>
    match fn with
    | .perm | .zipLo | .zipHi | .unzipE | .unzipO => vgrp g a ++ vgrp g b
    | .slideup | .slidedn => .d b.toNat :: vgrp g a
    | .rev | .trn => vgrp g a
    | .bcast => [.d a.toNat]
  | .vred fn _ a _ _ _ =>
    match fn with
    | .bexpAcc => []
    | _ => vgrp g a
  | .vext _ a b _ _ => .d b.toNat :: vgrp g a
  | .vins _ a b _ _ => [.d a.toNat, .d b.toNat]
  | .vlut _ _ _ a _ _ => vgrp g a
  | .vlutMem _ _ ab off =>
    match off with
    | .reg rx _ => [.a ab.toNat, .d rx.toNat]
    | _ => [.a ab.toNat]
  | .vdwin _ v => [.v v.toNat]
  | .vdwmac _ _ v _ _ _ _ _ => [.v v.toNat]
  | .vmem fn store v ab _ off =>
    .a ab.toNat :: (if store then vgrp g v else []) ++ (match fn, off with
      | .indexed, .reg rx _ => vgrp g rx
      | .twoD, .reg rx _ => [.d rx.toNat, .d (rx.toNat + 1)]
      | _, .reg rx _ => [.d rx.toNat]
      | _, _ => [])
  | .nop | .mfp .. | .movi .. | .clrAcc .. | .movAcc .. | .br .. | .call .. | .loop .. | .yield
  | .fenceSp | .fenceRm | .ifl | .inAt .. | .mfsr .. | .eret | .ctxReset | .irqOn | .irqOff
  | .vgetl .. | .pred .. | .pcnt .. => []

/-- Some element stands twice in a list. -/
def hasDup {α : Type} [DecidableEq α] : List α → Bool
  | [] => false
  | x :: xs => xs.contains x || hasDup xs

/-- Two operations of the list write the same register (R112). One operation's own list counts once. -/
def clash (g : Nat) : List Op → Bool
  | [] => false
  | x :: xs => ((Op.writes g x).any fun r => xs.any fun y => (Op.writes g y).contains r) || clash g xs

/-- A bundle that exceeds a limit of R111. -/
def overLimit (ops : List Op) : Bool :=
  let us := ops.flatMap Op.units
  [UnitClass.control, .addrGen, .loadStore, .alu, .mac, .vecArith, .vecMac, .command].any fun u =>
    decide (u.limit < us.count u)

end Sys2Proof.Machine
end

