-- ==== Sys2Proof/Machine/Log.lean ====
section
/-! DEFINITION. The trace ring, the persistent log and the evaluation of service (R33 to R41, R520 to
R525). -/

namespace Sys2Proof.Machine

/-- What a block reports to the log (R522). -/
structure Report where
  cls : BitVec 3
  code : Byte
  page : PageClass
  island : BitVec 9 := 0
  func : Func := 0
  addr : DWord := 0
  info0 : DWord := 0
  info1 : DWord := 0
  deriving DecidableEq, Repr

/-- Classes 2, 4, 5 and 6 are severe; an acknowledged record counts as non-severe (R520, R523). -/
def LogRec.severe (r : LogRec) : Bool :=
  !r.ack && (r.cls == 2 || r.cls == 4 || r.cls == 5 || r.cls == 6)

/-- The ERR_SUMMARY bit of a class (R55, R520). -/
def summaryBit (cls : BitVec 3) : Word :=
  if cls = 1 then 1 else if cls = 2 then 2 else if cls = 3 then 8 else 0

/-- An occurrence merges into a record (R523). -/
def LogRec.merges (r : LogRec) (x : Report) : Bool :=
  !r.ack && r.cls == x.cls && r.code == x.code && r.page == BitVec.ofNat 16 (pageNo x.page) &&
    r.func == BitVec.ofNat 4 x.func.val &&
    (x.cls != 1 && x.cls != 2 || r.addr >>> 6 == x.addr >>> 6)

/-- The log by place. -/
def State.place (s : State) (i : Nat) : Option LogRec := Tab.get none s.journal.places i

/-- A record put among records that rise in SEQ (R522). -/
def LogRec.insert (r : LogRec) : List LogRec → List LogRec
  | [] => [r]
  | x :: xs => if r.seq.toNat ≤ x.seq.toNat then r :: x :: xs else x :: LogRec.insert r xs

/-- Records in the order of SEQ. -/
def LogRec.inOrder (l : List LogRec) : List LogRec := l.foldr LogRec.insert []

/-- The places whose records are non-severe. -/
def State.nonSevere (s : State) : List (Nat × LogRec) :=
  s.journal.places.filterMap fun e =>
    match e.2 with
    | some r => if r.severe then none else some (e.1, r)
    | none => none

/-- The place of the non-severe record with the oldest LAST (R523). -/
def State.oldest (s : State) : Option Nat :=
  (s.nonSevere.foldl (fun (best : Option (Nat × LogRec)) e =>
    match best with
    | none => some e
    | some b => if e.2.last.toNat < b.2.last.toNat then some e else best) none).map (·.1)

/-- The lowest free place (R522). -/
def State.freePlace (s : State) : Option Nat := firstIdx 1024 fun i => (s.place i).isNone

/-- The state with a place of the log written. -/
def State.setPlace (s : State) (i : Nat) (r : Option LogRec) : State :=
  { s with journal := { s.journal with places := Tab.set none s.journal.places i r } }

/-- ERR_SUMMARY.CORR, UNCORR and PROTOCOL of a page fall once no unacknowledged record of class 1, 2 or 3
names it (R524). -/
def State.settlePage (s : State) (P : Nat) : State :=
  let open_ := s.journal.places.any fun e => match e.2 with
    | some r => !r.ack && r.page == BitVec.ofNat 16 P && (r.cls == 1 || r.cls == 2 || r.cls == 3)
    | none => false
  if open_ then s else s.modPage P fun p => { p with errSummary := p.errSummary &&& ~~~(0xB : Word) }

/-- A report enters the persistent log: merged, placed, evicting, or lost (R523). The page's
ERR_SUMMARY bit is set, and a severe record sets PART[0] LOG_SEVERE. A new record comes with its SEQ. -/
def State.record (s : State) (x : Report) : State × Option Word :=
  let s := s.modPage (pageNo x.page) fun p => { p with errSummary := p.errSummary ||| summaryBit x.cls }
  match firstIdx 1024 fun i => match s.place i with
      | some r => r.merges x
      | none => false with
  | some i =>
    match s.place i with
    | some r => (s.setPlace i (some { r with
        count := if r.count = 0xFFFF then r.count else r.count + 1
        last := s.time
        flushed := false }), none)
    | none => (s, none)
  | none =>
    let severe := x.cls == 2 || x.cls == 4 || x.cls == 5 || x.cls == 6
    let where? : Option Nat :=
      if severe then
        match s.freePlace with
        | some i => some i
        | none => s.oldest
      else if s.nonSevere.length < 768 then
        match s.freePlace with
        | some i => some i
        | none => s.oldest
      else s.oldest
    match where? with
    | none => (s.count (.part 0) 7 1, none)
    | some i =>
      let q := s.journal.seq + 1
      let r : LogRec := {
        seq := q, cls := x.cls, ack := false, code := x.code
        page := BitVec.ofNat 16 (pageNo x.page), island := x.island
        func := BitVec.ofNat 4 x.func.val, count := 1, first := s.time, last := s.time
        addr := x.addr, info0 := x.info0, info1 := x.info1, flushed := false }
      let old := s.place i
      let s := s.setPlace i (some r)
      let s := { s with journal := { s.journal with seq := q } }
      let s := match old with
        | some e => s.settlePage e.page.toNat
        | none => s
      (if severe then s.raise (.part 0) 0x10 else s, some q)

/-- A refused translation's log record (R520). -/
def refusal (unit : Nat) (cause : Nat) (f : Func) (dva : DWord) : Report :=
  { cls := 3, code := BitVec.ofNat 8 cause, page := .dat unit, func := f, addr := dva }

/-! ### The trace ring (R525) -/

/-- The device virtual address of entry `i` of the trace ring. -/
def State.traceAt (s : State) (i : Word) : DWord :=
  (((s.live (.part 0) 0x094).setWidth 64 <<< 32) ||| ((s.live (.part 0) 0x090 &&& 0xFFE00000).setWidth 64))
    + BitVec.ofNat 64 (32 * (i.toNat % 65536))

/-- The next entry of the trace ring, if its write can be performed now; one that translation refuses is dropped and
counted, and the refusal is on record. DESIGN CHOICE: that record is not traced itself. -/
def State.traceWrite (s : State) (bytes : List Byte) : Option State :=
  let i := s.journal.traceWptr
  let dva := s.traceAt i
  match s.xlateSharedBare 0 dva .dispatcher true 0 with
  | (.ok dpa, t) =>
    if s.hbmHeld 0 dpa 32 then none
    else
      let t := t.hbmStoreBare 0 dpa bytes
      some { t with journal := { t.journal with traceWptr := i + 1 } }
  | (.refused c, t) =>
    some (((t.count (.part 0) 8 1).record (refusal (s.sharedUnit.getD 0).val c 0 dva)).1)
  | (.held _, _) => none

/-- The entries that wait are written in their order, up to the first that waits on (R400, R525, R533). -/
def State.flushTrace (s : State) : List (List Byte) → State
  | [] => { s with journal := { s.journal with traceHeld := [] } }
  | b :: rest =>
    match s.traceWrite b with
    | some s => s.flushTrace rest
    | none => { s with journal := { s.journal with traceHeld := b :: rest } }

/-- A trace entry (R525): written at PF0 DVA BASE + 32 × (i mod 65,536), or dropped and counted while the ring is full. It
waits for the HBM behind those before it. The ring is off in saggar mode (R463). -/
def State.trace (s : State) (event : BitVec 16) (func : Func) (island : BitVec 9)
    (arg0 arg1 : DWord) : State :=
  let l := s.journal.traceHeld
  if !bit (s.live (.part 0) 0x090) 0 || s.saggar then s
  else if (s.journal.traceWptr + BitVec.ofNat 32 l.length - s.staged (.part 0) 0x09C).toNat ≥ 65536 then
    s.count (.part 0) 8 1
  else
    let w : Word := event.setWidth 32 ||| (BitVec.ofNat 32 func.val <<< 16) |||
      (island.setWidth 32 <<< 20)
    s.flushTrace (l ++ [leBytes s.time 8 ++ leBytes w 4 ++ leBytes (0 : Word) 4 ++ leBytes arg0 8 ++ leBytes arg1 8])

/-- A report enters the persistent log, and a new record is traced (R523, R525). -/
def State.log (s : State) (x : Report) : State :=
  match s.record x with
  | (s, some q) => s.trace 0x02 x.func x.island (q.setWidth 64) (x.cls.setWidth 64 ||| (x.code.setWidth 64 <<< 8))
  | (s, none) => s

/-- The records of what the read of a line finds (R415, R416, R520). -/
def State.lineReports (s : State) (dpa : Nat) : List Report :=
  let a := BitVec.ofNat 64 (dpa / 64 * 64)
  (if s.hbmFault dpa then [{ cls := 1, code := 0, page := s.memcOf dpa, addr := a }] else [])
    ++ (if s.hbmMarked dpa then [{ cls := 2, code := 0x0E, page := s.memcOf dpa, addr := a }] else [])

/-- The log records of a walk's reads, after the walk. -/
def State.logWalk (s s' : State) (unit : Part) (f : Func) (dva : DWord) (extra : Nat) : State :=
  ((s.xlateReads unit f dva extra).flatMap s.lineReports).foldl State.log s'

/-- The translation of an access by a unit, with the records of a refusal and of its walk (R396 to R401, R415, R416,
R520). -/
def State.xlate (s : State) (unit : Part) (f : Func) (dva : DWord) (src : XlateSrc) (write : Bool)
    (extra : Nat) : Xlate × State :=
  let x := s.xlateBare unit f dva src write extra
  let r := (x.1, s.logWalk x.2 unit f dva extra)
  match r.1 with
  | .refused c => (r.1, r.2.log (refusal unit.val c f dva))
  | _ => r

/-- The translation of an access that is not a core's, with the record of a refusal (R397, R520). -/
def State.xlateShared (s : State) (f : Func) (dva : DWord) (src : XlateSrc) (write : Bool)
    (extra : Nat) : Xlate × State :=
  let x := s.xlateSharedBare f dva src write extra
  let r := match s.sharedUnit with
    | some u => (x.1, s.logWalk x.2 u f dva extra)
    | none => x
  match r.1 with
  | .refused c => (r.1, r.2.log (refusal (s.sharedUnit.getD 0).val c f dva))
  | _ => r

/-- ERR_SUMMARY.CORR, UNCORR and PROTOCOL of every page fall once no unacknowledged record of class 1,
2 or 3 names the page (R524). -/
def State.settleSummary (s : State) : State :=
  let open_ (P : Nat) := s.journal.places.any fun e =>
    match e.2 with
    | some r => !r.ack && r.page == BitVec.ofNat 16 P && (r.cls == 1 || r.cls == 2 || r.cls == 3)
    | none => false
  { s with pages := Tab.mapVals {} (fun P p =>
      if open_ P then p else { p with errSummary := p.errSummary &&& ~~~(0xB : Word) }) s.pages }

/-- The records of what a partial write in saggar mode finds as it merges (R415, R416, R420). -/
def State.mergeReports (s : State) (dpa n : Nat) : List Report :=
  if s.saggar && n != 64 && s.lineOk dpa then s.lineReports dpa else []

/-- Bytes that a function writes to a range, with the records of what its merges find (R393, R405, R415, R420). -/
def State.hbmStore (s : State) (f : Func) (dpa : Nat) (bs : List Byte) : State :=
  ((linePieces dpa bs.length).flatMap fun p => s.mergeReports p.1 p.2).foldl State.log (s.hbmStoreBare f dpa bs)

/-- A function's read of a range of HBM: each line counted at its channel, its errors corrected, counted and logged
(R405, R415, R416, R520). -/
def State.hbmRead (s : State) (f : Func) (dpa n : Nat) : State :=
  (linePieces dpa n).foldl (fun s p => (s.lineReports p.1).foldl State.log (s.lineRead f p.1)) s

/-! ### Service -/

/-- CHIP_SVC_STATE as a register (R37). -/
def Svc.word (v : Svc) : Word :=
  let st : Word := match v.state with
    | .boot => 0
    | .ready => 1
    | .degraded => 2
    | .failed => 3
  st ||| (v.parts.setWidth 32 <<< 8) ||| (v.cause.setWidth 32 <<< 16) ||| (v.seq.setWidth 32 <<< 24)

/-- CHIP_SVC_COUNT as service stands (R38). -/
def State.svcCount (s : State) : Word :=
  let cores := countIdx 32 fun i => if h : i < 32 then s.coreWorks ⟨i, h⟩ else false
  let mtx := countIdx 32 fun i => if h : i < 32 then s.matrixWorks ⟨i, h⟩ else false
  let ch := countIdx 64 fun i => if h : i < 64 then s.channelIn ⟨i / 16, by omega⟩ (i % 16) else false
  let sp := countIdx 2 fun i => if h : i < 2 then (s.board.spares.get ⟨i, h⟩).state == .idle else false
  BitVec.ofNat 32 (cores + 2 ^ 8 * mtx + 2 ^ 16 * ch + 2 ^ 24 * sp)

/-- CHIP_PART_SVC[p] as service stands (R39). -/
def State.svcPart (s : State) (p : Part) : Word :=
  let mine (f : LCore → Bool) :=
    countIdx 32 fun i => if h : i < 32 then partOf ⟨i, h⟩ == p && f ⟨i, h⟩ else false
  BitVec.ofNat 32 (b2n (s.partIn p) + 2 * b2n (s.recovering p) + 2 ^ 4 * mine s.coreWorks +
    2 ^ 8 * mine s.matrixWorks + 2 ^ 12 * countIdx 16 fun c => s.channelIn p c)

/-- READY's conditions (R34). -/
def State.allWorks (s : State) : Bool :=
  (List.finRange 32).all (fun n => s.coreWorks n && s.matrixWorks n) &&
    (List.finRange 4).all fun p => s.partIn p && (List.range 16).all fun c => s.channelIn p c

/-- The minimum service set (R34): the PCI Express island with PF0 enabled, the dispatcher tile, the system tile, and
one partition. -/
def State.minimum (s : State) : Bool :=
  [284, 289, 290, 291, 292].all s.islandOk && s.fnEnabled 0 &&
    (List.finRange 4).any fun p => s.partIn p || s.recovering p

/-- CHIP_PART_SVC without RECOVERING, whose change alone is no change of a count (R37, R39). -/
def partCounts (v : Vector Word 4) : Vector Word 4 := v.map fun w => setBit w 1 false

/-- The service registers evaluated, in one step, with the cause of the change; the device enters or
leaves READY and DEGRADED, and FAILED is left only through reset (R35 to R41). SEQ and CAUSE move with STATE, PARTS
and the counts. `leave` evaluates a device that leaves BOOT. -/
def State.evalService (s : State) (cause : Byte) (leave : Bool) : State :=
  let v := s.board.svc
  let boot := v.state == .boot && !leave
  let st : SvcState :=
    if boot then .boot
    else if v.state == .failed then .failed
    else if !s.minimum then .failed
    else if s.allWorks then .ready
    else .degraded
  let cause := if st == .failed && v.state != .failed then 0x08 else cause
  let count : Word := if boot then 0 else s.svcCount
  let part := Vector.ofFn fun p => if boot then 0 else s.svcPart p
  let parts : BitVec 4 :=
    if boot then 0 else bitsOf 4 4 fun p => if h : p < 4 then s.partIn ⟨p, h⟩ else false
  if st = v.state ∧ parts = v.parts ∧ count = v.count ∧ partCounts part = partCounts v.part then
    { s with board := { s.board with svc := { v with part := part } } }
  else
    let v' : Svc := { state := st, parts, cause, seq := v.seq + 1, count, part }
    let s := { s with board := { s.board with svc := v' } }
    let s := s.raise .chip 1
    let s := if fld count 24 2 = 0 ∧ fld v.count 24 2 ≠ 0 then s.raise .chip 4 else s
    let s := if st == .failed && v.state != .failed then s.log { cls := 6, code := 8, page := .chip } else s
    s.trace 0x07 0 0 (v'.word.setWidth 64) 0

end Sys2Proof.Machine
end

