-- ==== Sys2Proof/Machine/Scratch.lean ====
section
/-! DEFINITION. A core's scratchpads: geometry, banks, the store buffer, marks, tags and mailboxes
(R91, R130, R131, R293 to R318). -/

namespace Sys2Proof.Machine

/-- The three memories (R293). -/
inductive MemKind where
  | wm | am | pm
  deriving DecidableEq, Repr

/-- The memory a local D-space address lies in, with its offset (R91, R293). -/
def memKind (a : Nat) : Option (MemKind × Nat) :=
  if a < 0x300000 then some (.wm, a)
  else if 0x400000 ≤ a ∧ a < 0x800000 then some (.am, a - 0x400000)
  else if 0x800000 ≤ a ∧ a < 0x900000 then some (.pm, a - 0x800000)
  else none

/-- The address names a byte of a local scratchpad (R91). -/
def localOk (a : Nat) : Bool := (memKind a).isSome

/-- The range of bytes lies in one local memory. -/
def localRange (a n : Nat) : Bool :=
  match memKind a, memKind (a + n - 1) with
  | some (k, _), some (j, _) => k == j
  | _, _ => false

/-- BANKID of a local address (R294). -/
def bankOf (a : Nat) : Nat :=
  match memKind a with
  | some (.wm, o) => o / 64 % 16
  | some (.am, o) => 16 + o / 64 % 32
  | some (.pm, o) => 48 + o / 64 % 16
  | none => 64

/-- The repair row of a local address within its bank (R294). -/
def rowOf (a : Nat) : Nat :=
  match memKind a with
  | some (.wm, o) => o / 64 / 16 / 16
  | some (.am, o) => o / 64 / 32 / 16
  | some (.pm, o) => o / 64 / 16 / 16
  | none => 0

/-- The slot of a local address (R293, R294). -/
def slotOf (a : Nat) : Nat :=
  match memKind a with
  | some (.wm, o) => o / 512
  | some (.am, o) => 6144 + o / 512
  | some (.pm, o) => 14336 + o / 512
  | none => 16384

/-- The repair rows of a bank (R293). -/
def bankRows (bank : Nat) : Nat := if bank < 16 then 192 else if bank < 48 then 128 else 64

/-- The bank takes no access: the tile clears, or the bank is paused for a remap (R319, R321). -/
def Core.paused (k : Core) (a : Nat) (rmapBank : Nat) : Bool :=
  k.clearing || (k.rmapBusy && bankOf a == rmapBank)

/-! ### Banks -/

/-- A byte of a bank. -/
def Core.byte (k : Core) (a : Nat) : Byte := Tab.get 0 k.mem a

/-- `n` bytes of the banks. -/
def Core.bytes (k : Core) (a n : Nat) : List Byte := Tab.range 0 k.mem a n

/-- The 64-bit word that holds the address carries an uncorrectable mark (R317). -/
def Core.marked (k : Core) (a : Nat) : Bool := Tab.get false k.marks (a / 8)

/-- Marks of words that a write covers whole end; others stay (R317). -/
def endMarks (m : Tab Bool) (a n : Nat) : Tab Bool :=
  if n = 0 then m else
  (List.range ((a + n - 1) / 8 - a / 8 + 1)).foldl (fun m i =>
    let w := a / 8 + i
    if a ≤ 8 * w ∧ 8 * w + 8 ≤ a + n then Tab.set false m w false else m) m

/-- Marks of words end where a write covers all their bytes, one by one (R317). -/
def endMarksOf (m : Tab Bool) (a : Nat) (bs : List (Option Byte)) : Tab Bool :=
  (List.range ((a + bs.length) / 8 - a / 8)).foldl (fun m i =>
    let w := a / 8 + i
    if a ≤ 8 * w ∧ (List.range 8).all fun j => (listAt none bs (8 * w + j - a)).isSome then Tab.set false m w false
    else m) m

/-- The marked words that hold bytes of `[a, a + n)`, by address (R317). -/
def Core.markedWords (k : Core) (a n : Nat) : List Nat :=
  if n = 0 then [] else
  ((List.range ((a + n - 1) / 8 - a / 8 + 1)).map fun i => 8 * (a / 8 + i)).filter k.marked

/-- Bytes written to the banks (R315, R317). -/
def Core.bankWrite (k : Core) (a : Nat) (bs : List Byte) : Core :=
  { k with mem := Tab.setRange 0 k.mem a bs, marks := endMarks k.marks a bs.length }

/-! ### Store buffer (R130, R131) -/

/-- The entry that covers a block. -/
def Core.sbEntry (k : Core) (block : Nat) : Option SbEntry := k.sb.find? fun e => e.block == block

/-- The byte that the buffer holds for an address. -/
def Core.sbByte (k : Core) (a : Nat) : Option Byte :=
  match k.sbEntry (a / 64) with
  | some e => Tab.get none e.bytes a
  | none => none

/-- What a local load finds: all its bytes, or an overlap that must drain first (R131). -/
inductive LocalRead where
  | wait
  | bytes (bs : List Byte) (marks : List Bool)
  deriving DecidableEq, Repr

/-- A local load of `n` bytes: from the buffer where it covers them all, from the banks where no entry
overlaps, otherwise it waits (R131). -/
def Core.load (k : Core) (a n : Nat) : LocalRead :=
  let held := (List.range n).map fun i => k.sbByte (a + i)
  if held.all Option.isSome then .bytes (held.map fun b => b.getD 0) (held.map fun _ => false)
  else if held.any Option.isSome then .wait
  else .bytes (k.bytes a n) ((List.range n).map fun i => k.marked (a + i))

/-- One byte enters the buffer: it merges into the entry of its block, or takes a new one (R130). -/
def Core.sbPut (k : Core) (c : CtxId) (a : Nat) (b : Byte) : Core :=
  match k.sbEntry (a / 64) with
  | some _ =>
    { k with sb := k.sb.map fun e =>
        if e.block == a / 64 then
          { e with
            bytes := Tab.set none e.bytes a (some b)
            owners := if e.owners.contains c then e.owners else c :: e.owners }
        else e }
  | none => { k with sb := k.sb ++ [⟨a / 64, [(a, some b)], [c]⟩] }

/-- A store of bytes to local scratchpad (R130). -/
def Core.sbStore (k : Core) (c : CtxId) (a : Nat) : List Byte → Core
  | [] => k
  | b :: bs => (k.sbPut c a b).sbStore c (a + 1) bs

/-- The blocks of a store that need a new entry. -/
def Core.sbNew (k : Core) (blocks : List Nat) : Nat :=
  (blocks.eraseDups.filter fun b => (k.sbEntry b).isNone).length

/-- The buffer has room for stores to these blocks (R130). -/
def Core.sbRoom (k : Core) (blocks : List Nat) : Bool := decide (k.sb.length + k.sbNew blocks ≤ 16)

/-- The buffer holds an entry of the context (R132). -/
def Core.sbOwn (k : Core) (c : CtxId) : Bool := k.sb.any fun e => e.owners.contains c

/-- The head entry drains to its bank (R130). -/
def Core.drain (k : Core) : Core :=
  match k.sb with
  | [] => k
  | e :: sb =>
    e.bytes.foldl (fun k x => match x.2 with
      | some b => { k with mem := Tab.set 0 k.mem x.1 b }
      | none => k)
      { k with
        sb := sb
        marks := (List.range 8).foldl (fun m i =>
          let a := 64 * e.block + 8 * i
          if (List.range 8).all fun j => (Tab.get none e.bytes (a + j)).isSome then
            Tab.set false m (a / 8) false
          else m) k.marks }

/-! ### Tags (R300, R301) -/

/-- A tag region (R307). -/
def Core.treg (k : Core) (i : Nat) : TReg := Tab.get {} k.tregs i

/-- A mailbox (R307). -/
def Core.mb (k : Core) (m : Nat) : Mbx := Tab.get {} k.mbx m

/-- The slot lies in a tagged region (R300). -/
def Core.tagged (k : Core) (slot : Nat) : Bool :=
  k.tregs.any fun e => e.2.tagged && decide (e.2.first.toNat ≤ slot) &&
    decide (slot < e.2.first.toNat + e.2.count.toNat)

/-- The slot is FULL. -/
def Core.full (k : Core) (slot : Nat) : Bool := Tab.get false k.tags slot

/-- A tag set FULL or EMPTY. -/
def Core.setTag (k : Core) (slot : Nat) (f : Bool) : Core := { k with tags := Tab.set false k.tags slot f }

/-- The bytes of a scalar access. -/
def MemSize.bytes : MemSize → Nat
  | .byte => 1
  | .half => 2
  | .word => 4

/-- A tagged access may be performed: its slot is raw, or its tag allows it (R301). -/
def Core.tagReady (k : Core) (fn : TagFn) (a : Nat) : Bool :=
  let slot := slotOf a
  !k.tagged slot || (match fn with
    | .peek | .take => k.full slot
    | .stT | .put => !k.full slot)

/-- A tagged access performed in one bank cycle: its value, its mark, and the core after it. A load of a core's
own takes its bytes from the store buffer where that covers them all (R131; a remote one reads the banks). A raw
slot keeps its tag (R301, R302). -/
def Core.tagAccess (k : Core) (x : TagAcc) : Word × Bool × Core :=
  let slot := slotOf x.addr
  let n := MemSize.bytes x.size
  let tagged := k.tagged slot
  match x.fn with
  | .peek | .take =>
    let r := match (if x.own then k.load x.addr n else .wait) with
      | .bytes bs marks => (leVal 32 bs, marks.any id)
      | .wait => (leVal 32 (k.bytes x.addr n), k.marked x.addr)
    (r.1, r.2, if tagged && x.fn == .take then k.setTag slot false else k)
  | .stT | .put =>
    let k := k.bankWrite x.addr (leBytes x.data n)
    (0, false, if tagged && x.fn == .put then k.setTag slot true else k)

/-! ### Uncorrectable words and nominated rows (R316 to R318) -/

/-- A row counted in the watch table of 16; a row that is not there replaces the one with the lowest
count (R318). -/
def watchCount (w : List WatchRow) (bank : BitVec 6) (row : Byte) : List WatchRow :=
  if w.any fun r => r.bank == bank && r.row == row then
    w.map fun r => if r.bank == bank && r.row == row then { r with count := r.count + 1 } else r
  else if w.length < 16 then w ++ [⟨bank, row, 1⟩]
  else
    let low := w.foldl (fun m r => Nat.min m r.count) ((w.map (·.count)).headD 0)
    match w.findIdx? fun r => r.count == low with
    | some i => w.set i ⟨bank, row, 1⟩
    | none => w

/-- The SPAD page's log report of an address. -/
def spadReport (t : Tile) (cls : BitVec 3) (code : Byte) (a : Nat) : Report :=
  { cls, code, page := .spad t.val
    island := BitVec.ofNat 9 (8 * t.val + (match memKind a with
      | some (.am, _) => 4
      | some (.pm, _) => 5
      | _ => 3))
    addr := BitVec.ofNat 64 a }

/-- A row nominated; a forced remap stays forced (R318). -/
def Core.nominate (k : Core) (x : Nominee) : Core :=
  let same (y : Nominee) : Bool := y.bank == x.bank && y.row == x.row
  if k.nominees.any same then
    { k with nominees := k.nominees.map fun y => if same y then { y with forced := y.forced || x.forced } else y }
  else { k with nominees := k.nominees ++ [x] }

/-- System firmware starts the remap of a nominated row that is due, through SPAD_RMAP_CMD: one whose remap is forced,
and every one from a job's completion on; while one runs the others wait (R318, R319). -/
def State.remapDue (s : State) (t : Tile) (job : Bool) : State :=
  let s := if job then s.modCore t fun k => { k with nominees := k.nominees.map fun x => { x with forced := true } } else s
  let k := s.core t
  match k.nominees.find? fun x => x.forced with
  | none => s
  | some x =>
    if k.rmapBusy then s
    else
      let v : Word := x.bank.setWidth 32 ||| (x.row.setWidth 32 <<< 6)
      (s.modPage (pageNo (.spad t.val)) fun p => { p with
        staged := Tab.set 0 p.staged 0x050 v, live := Tab.set 0 p.live 0x050 v }).modCore t
          fun k => { k with rmapBusy := true }

/-- A row nominated: REMAP_NEEDED is set, and a forced remap starts at once (R318, R324). -/
def State.nominate (s : State) (t : Tile) (x : Nominee) : State :=
  ((s.modCore t fun k => k.nominate x).raise (.spad t.val) 4).remapDue t false

/-- The repair row of an address, as a nominee. -/
def nomineeAt (a : Nat) (forced : Bool) : Nominee := ⟨BitVec.ofNat 6 (bankOf a), BitVec.ofNat 8 (rowOf a), forced⟩

/-- An uncorrectable word was read: its address, counter, interrupt and log; its row is nominated, with its remap
forced (R317, R318, R323). -/
def State.uncorrectable (s : State) (t : Tile) (a : Nat) : State :=
  let w := 8 * (a / 8)
  let s := s.modCore t fun k => { k with uncorrAddr := BitVec.ofNat 32 w }
  (((s.count (.spad t.val) 3 1).raise (.spad t.val) 2).log (spadReport t 2 0x0E w)).nominate t (nomineeAt w true)

/-- Marked words of a tile, reported as they are read (R317). -/
def State.reportWords (s : State) (t : Tile) (words : List Nat) : State :=
  words.foldl (fun s w => s.uncorrectable t w) s

/-- Every marked word of a read of `n` bytes is reported (R317). -/
def State.readMarks (s : State) (t : Tile) (a n : Nat) : State := s.reportWords t ((s.core t).markedWords a n)

/-- An engine has read the 64-byte row of an address and found it marked (R317). -/
def State.rowError (s : State) (t : Tile) (a : Nat) : State := s.readMarks t (64 * (a / 64)) 64

/-- The bank that a running field remap pauses: SPAD_RMAP_CMD.BANKID (R319). -/
def State.rmapBank (s : State) (t : Tile) : Nat := (fld (s.staged (.spad t.val) 0x050) 0 6).toNat

/-- The bank of an address takes no access now (R319, R321). -/
def State.bankHeld (s : State) (t : Tile) (a : Nat) : Bool := (s.core t).paused a (s.rmapBank t)

/-- The 64-byte lines of a range, by their first addresses. -/
def linesOf (a n : Nat) : List Nat :=
  if n = 0 then [] else (List.range ((a + n - 1) / 64 - a / 64 + 1)).map fun i => 64 * (a / 64 + i)

/-- Some bank that an access to `n` bytes needs takes no access now. -/
def State.spanHeld (s : State) (t : Tile) (a n : Nat) : Bool :=
  let k := s.core t
  k.clearing || (k.rmapBusy && (linesOf a n).any fun b => bankOf b == s.rmapBank t)

/-- Bytes written to a bank, once it takes accesses: until then the write waits (R319, R321). -/
def State.bankPut (s : State) (t : Tile) (a : Nat) (bs : List Byte) : State :=
  s.modCore t fun k =>
    if s.spanHeld t a bs.length then { k with lateWrites := k.lateWrites ++ [(a, bs)] } else k.bankWrite a bs

/-- The writes that wait for a bank, performed in their order. -/
def Core.landLate (k : Core) : Core :=
  k.lateWrites.foldl (fun k w => k.bankWrite w.1 w.2) { k with lateWrites := [] }

/-- A bank takes accesses again: the writes that waited are performed, but for those whose bank still takes none. -/
def State.bankResumed (s : State) (t : Tile) : State :=
  (s.core t).lateWrites.foldl (fun s w => s.bankPut t w.1 w.2) (s.modCore t fun k => { k with lateWrites := [] })

/-- A request that waits at the ports of AM for one of its addresses is counted in SPAD_PORT_WAIT (R299). -/
def State.portWait (s : State) (t : Tile) (l : List Nat) : State :=
  if l.any fun a => (match memKind a with
      | some (.am, _) => true
      | _ => false) && s.bankHeld t a then s.count (.spad t.val) 7 1
  else s

/-! ### Remap tables (R293, R319, R322) -/

/-- The first free spare row of a bank's eight (R319). -/
def Core.spareRow (k : Core) (bank : Nat) : Option Nat :=
  firstIdx 8 fun e => (Tab.get none k.remap (8 * bank + e)).isNone

/-- The row of a bank is mapped already. -/
def Core.rowMapped (k : Core) (bank row : Nat) : Bool :=
  (List.range 8).any fun e => match Tab.get none k.remap (8 * bank + e) with
    | some r => r.row.toNat == row
    | none => false

/-- The island of a bank's memory (R293). -/
def bankIsland (t : Tile) (bank : Nat) : Island :=
  if bank < 16 then ⟨8 * t.val + 3, by omega⟩
  else if bank < 48 then ⟨8 * t.val + 4, by omega⟩
  else ⟨8 * t.val + 5, by omega⟩

/-- The log record of a field remap (R319). -/
def remapReport (t : Tile) (bank row : Nat) : Report :=
  { cls := 7, code := 2, page := .spad t.val, island := BitVec.ofNat 9 (bankIsland t bank).val
    info0 := BitVec.ofNat 64 bank, info1 := BitVec.ofNat 64 row }

/-- The remap table as boot builds it: the fused entries, then those that the flashed log holds, in the order of the log,
with the banks that an entry has found without a spare row (R319, R322, R483). -/
def remapLoad (t : Tile) (old : Tab (Option RemapEntry)) (log : List LogRec) : Core × List Nat :=
  let mine (r : LogRec) : Bool := r.cls == 7 && r.code == 2 && r.page == BitVec.ofNat 16 (pageNo (.spad t.val))
  let fused := old.filter fun e => match e.2 with
    | some r => r.fused
    | none => false
  (LogRec.inOrder (log.filter mine)).foldl (fun (x : Core × List Nat) (r : LogRec) =>
    let k := x.1
    let bank := r.info0.toNat
    let row := r.info1.toNat
    if k.rowMapped bank row then x
    else match k.spareRow bank with
      | none => (k, bank :: x.2)
      | some e => ({ k with remap := Tab.set none k.remap (8 * bank + e) (some ⟨BitVec.ofNat 8 row, false⟩) }, x.2))
    ({ ({} : Core) with remap := fused }, [])

/-- The remap table that boot builds. -/
def remapAtBoot (t : Tile) (old : Tab (Option RemapEntry)) (log : List LogRec) : Tab (Option RemapEntry) :=
  (remapLoad t old log).1.remap

/-! ### D-space (R91, R92) -/

/-- Where a D-space address leads. -/
inductive Target where
  | loc (a : Nat)
  | remote (n : LCore) (a : Nat)
  | hbm (w : Fin 8) (x : Nat)
  deriving DecidableEq, Repr

/-- The target of a D-space address for a context of logical core `me`; none where R91 lists nothing.
A core's own remote range is its local map (R92). -/
def target (me : LCore) (addr : Word) : Option Target :=
  let a := addr.toNat
  if a < 0x10000000 then if localOk a then some (.loc a) else none
  else if a < 0x30000000 then
    let off := (a - 0x10000000) % 0x01000000
    let n : LCore := ⟨(a - 0x10000000) / 0x01000000 % 32, Nat.mod_lt _ (by omega)⟩
    if localOk off then some (if n = me then .loc off else .remote n off) else none
  else if a < 0x80000000 then none
  else some (.hbm ⟨(a - 0x80000000) / 0x10000000 % 8, Nat.mod_lt _ (by omega)⟩
    ((a - 0x80000000) % 0x10000000))

/-- The device virtual address behind an HBM window: none where the window's EN is 0 (R94, R95). -/
def Ctx.windowDva (x : Ctx) (w : Fin 8) (off : Nat) : Option DWord :=
  let r := x.hbmWin.get w
  if bit r 0 then some ((r &&& 0xFFFFFFFFFFE00000) + BitVec.ofNat 64 off) else none

end Sys2Proof.Machine
end

