-- ==== Sys2Proof/Machine/Context.lean ====
section
/-! DEFINITION. A context at work: its registers, its states, taking an exception and returning, and
what an operation of a bundle can come to (R75 to R85, R101, R102, R118 to R123, R127, R135 to R137). -/

namespace Sys2Proof.Machine

/-! ### Registers (R86, R88) -/

/-- A data register. -/
def Ctx.rd (x : Ctx) (r : BitVec 5) : Word := x.d.get r.toFin

/-- A data register written. -/
def Ctx.setD (x : Ctx) (r : BitVec 5) (v : Word) : Ctx :=
  { x with d := x.d.set r.toFin.val v r.toFin.isLt }

/-- An address register. -/
def Ctx.ra (x : Ctx) (r : BitVec 4) : Word := x.a.get r.toFin

/-- An address register written. -/
def Ctx.setA (x : Ctx) (r : BitVec 4) (v : Word) : Ctx :=
  { x with a := x.a.set r.toFin.val v r.toFin.isLt }

/-- A scalar accumulator. -/
def Ctx.racc (x : Ctx) (r : BitVec 3) : Acc := x.acc.get r.toFin

/-- A scalar accumulator written. -/
def Ctx.setAcc (x : Ctx) (r : BitVec 3) (v : Acc) : Ctx :=
  { x with acc := x.acc.set r.toFin.val v r.toFin.isLt }

/-- A predicate; p0 reads as all ones (R86). -/
def Ctx.rp (x : Ctx) (r : BitVec 3) : VReg := if r = 0 then BitVec.allOnes 2048 else x.p.get r.toFin

/-- A predicate written; writes to p0 are ignored (R86). -/
def Ctx.setP (x : Ctx) (r : BitVec 3) (v : VReg) : Ctx :=
  if r = 0 then x else { x with p := x.p.set r.toFin.val v r.toFin.isLt }

/-- A truth value in all 2,048 bits of a predicate (R148, R565). -/
def predAll (b : Bool) : VReg := if b then BitVec.allOnes 2048 else 0

/-- STATUS.PRIV. -/
def Ctx.priv (x : Ctx) : Bool := bit x.status 0

/-- STATUS.PPRIV. -/
def Ctx.ppriv (x : Ctx) : Bool := bit x.status 1

/-- STATUS.EXL. -/
def Ctx.exl (x : Ctx) : Bool := bit x.status 2

/-- STATUS.IE. -/
def Ctx.ie (x : Ctx) : Bool := bit x.status 3

/-- STATUS.LOOPACT[k]. -/
def Ctx.loopAct (x : Ctx) (k : Nat) : Bool := bit x.status (4 + k)

/-- STATUS.LOOPACT[k] set or cleared. -/
def Ctx.setLoopAct (x : Ctx) (k : Nat) (b : Bool) : Ctx := { x with status := setBit x.status (4 + k) b }

/-- The group size of VTYPE (R142). -/
def Ctx.g (x : Ctx) : Nat := 2 ^ x.grp.toNat

/-! ### What an operation comes to -/

/-- Where a context goes after a bundle. -/
inductive Flow where
  | seq
  | branch (pc : Word)
  | call (pc : Word)
  /-- Past a loop whose count is 0 (R119). -/
  | skip (pc : Word)
  /-- The return of `eret`. -/
  | jump (pc : Word)
  deriving DecidableEq, Repr

/-- The outcome of one operation of a bundle on the state before the bundle: an effect; an exception
with its code, EADDR, whether it is a deferred fault taken now, and what happens besides; a stall in
RUNNING; or a block with its code and what the context then waits for (R77, R80, R83). -/
inductive Res where
  | ok (f : State → State) (flow : Flow)
  | exc (code : Byte) (eaddr : Word) (deferred : Bool) (f : State → State)
  | stall (f : State → State)
  | block (code : BitVec 4) (w : CtxWait) (f : State → State)

/-- What an operation sees: the core, the context with its registers before the bundle, the state, and
the operation's place in its bundle. -/
structure Env where
  t : Tile
  lc : LCore
  c : CtxId
  x : Ctx
  s : State
  pos : Nat

/-- An effect on the context alone. -/
def Env.reg (e : Env) (f : Ctx → Ctx) : Res := .ok (fun s => s.modCtx e.t e.c f) .seq

/-- A precise exception. -/
def Env.exc (_e : Env) (code : Byte) (eaddr : Word) : Res := .exc code eaddr false id

/-- The core before the bundle. -/
def Env.core (e : Env) : Core := e.s.core e.t

/-- The result that an already performed blocking operation of this place has left (R303, R311). -/
def Env.doneVal (e : Env) : Option Word := (e.x.done.find? fun d => d.1 == e.pos).map (·.2)

/-- A word of the result that an already performed operation of this place has left (R115, R383). -/
def Env.doneWord (e : Env) (i : Nat) : Word :=
  ((e.x.done.find? fun d => d.1 == e.pos + 32 * i).map (·.2)).getD 0

/-! ### Addressing (R101, R102) -/

/-- The address used and the base update of an addressing mode. -/
def amAddr (x : Ctx) (am : BitVec 3) (ab : BitVec 4) (imm : Word) (zimm : Word) (dx : BitVec 5)
    (scale : Nat) : Word × Option Word :=
  let b := x.ra ab
  let r := x.rd dx
  match am.toNat with
  | 0 => (b + imm, none)
  | 1 => (b + r, none)
  | 4 => (b, some (b + imm))
  | 5 => (b, some (b + r))
  | 6 => (b - zimm, some (b - zimm))
  | 7 => (b + (r <<< scale), none)
  | _ => (b, none)

/-- log2 of an access size. -/
def MemSize.log2 : MemSize → Nat
  | .byte => 0
  | .half => 1
  | .word => 2

/-- The address and base update of an LM operand (R101). -/
def Ctx.lm (x : Ctx) (m : MemAddr) (size : MemSize) : Word × Option Word :=
  amAddr x m.am m.ab (m.off.signExtend 32) (m.off.setWidth 32) m.dx (MemSize.log2 size)

/-- The address and base update of a tagged LM operand (R569). -/
def Ctx.tm (x : Ctx) (m : TagAddr) (size : MemSize) : Word × Option Word :=
  amAddr x m.am m.ab (m.off.signExtend 32) (m.off.setWidth 32) m.dx (MemSize.log2 size)

/-- The base update applied. -/
def Ctx.upd (x : Ctx) (ab : BitVec 4) (u : Option Word) : Ctx :=
  match u with
  | some v => x.setA ab v
  | none => x

/-- The base updates of an operation's mode 4 to 6 access, which stand when the bundle takes a memory
exception (R102). -/
def Op.baseUpdate (o : Op) (x : Ctx) : Ctx → Ctx :=
  match o with
  | .load size _ m | .store size _ m => fun y => y.upd m.ab (x.lm m size).2
  | .tagged _ size _ m => fun y => y.upd m.ab (x.tm m size).2
  | _ => id

/-! ### Exceptions (R83 to R85, R135, R136) -/

/-- The exception saved registers and entry of a context whose EXL is 0 (R83). -/
def Ctx.enter (x : Ctx) (code : Byte) (eaddr : Word) (deferred : Bool) (epc : BitVec 20) : Ctx :=
  { x with
    epc := epc
    ecause := code.setWidth 9 ||| (b2v 9 deferred <<< 8)
    eaddr := eaddr
    status := (x.status &&& ~~~(7 : Word)) ||| 5 ||| (b2v 32 x.priv <<< 1)
    pc := x.excbase.setWidth 32
    excCause := code.setWidth 10 ||| (b2v 10 deferred <<< 8)
    excAddr := eaddr
    done := []
    held := none
    fault := none
    resuming := false }

/-- A double fault: HALTED, with the cause recorded (R85). A STOP request pending is dropped, and a fired check timer
has its context stopped (R137, R138, R528). -/
def Ctx.halt (x : Ctx) (code : Byte) (eaddr : Word) (deferred : Bool) : Ctx :=
  { x with
    run := .halted
    block := 0
    wait := .none
    excCause := code.setWidth 10 ||| (b2v 10 deferred <<< 8) ||| (1 <<< 9)
    excAddr := eaddr
    done := []
    held := none
    fault := none
    stopReq := false
    chk := none }

/-- A context takes an exception at `epc` (R83, R85). -/
def State.takeExc (s : State) (t : Tile) (c : CtxId) (code : Byte) (eaddr : Word) (deferred : Bool)
    (epc : BitVec 20) : State :=
  if (s.ctx t c).exl then
    (s.modCtx t c (Ctx.halt · code eaddr deferred)).raise (.core t.val) (BitVec.twoPow 32 c.val)
  else s.modCtx t c (Ctx.enter · code eaddr deferred epc)

/-- A deferred fault of a context recorded; a later one is counted (R135). -/
def State.defer (s : State) (t : Tile) (c : CtxId) (d : Deferred) : State :=
  match (s.ctx t c).deferred with
  | none => s.modCtx t c fun x => { x with deferred := some d }
  | some _ => s.count (.core t.val) 7 1

/-- The return from an exception: PRIV from PPRIV, EXL clear, and a mid-vector fault that may be resumed
armed (R84, R181). -/
def Ctx.eret (x : Ctx) : Ctx :=
  { x with
    status := (x.status &&& ~~~(5 : Word)) ||| b2v 32 x.ppriv
    resuming := bit x.velem 12 && bit x.velem 13
    velem := if bit x.velem 12 && !bit x.velem 13 then setBit x.velem 12 false else x.velem }

/-- A pending deferred fault at a point where one is taken (R135). -/
def Env.deferPoint (e : Env) (r : Res) : Res :=
  match e.x.deferred with
  | some d => .exc d.cause d.eaddr true fun s => s.modCtx e.t e.c fun x =>
      { x with
        deferred := none
        velem := match d.velem with
          | some (i, _, _) => (i.setWidth 32 ||| 0x000E1000)
          | none => x.velem }
  | none => r

/-! ### Selection (R77 to R79) -/

/-- The RUNNING context of a core. -/
def Core.running (k : Core) : Option CtxId :=
  (List.finRange 4).find? fun c => (k.ctxs.get c).run == .running

/-- The next READY context in round-robin order after `last` (R78). -/
def Core.nextReady (k : Core) : Option CtxId :=
  ((List.range 4).map fun i => (⟨(k.last.val + 1 + i) % 4, Nat.mod_lt _ (by omega)⟩ : CtxId)).find?
    fun c => (k.ctxs.get c).run == .ready

/-- A core that is stopped: its castling has reached the pause (R30, R540), or an island of its tile is gated (R494). -/
def State.frozen (s : State) (t : Tile) : Bool :=
  ((List.range 7).any fun k => (s.isl (8 * t.val + k)).gated) || (List.finRange 2).any fun i =>
    let p := s.board.spares.get i
    decide (2 ≤ p.step.toNat) && (t.val == 32 + i.val || s.tileOf p.lcore == t)

/-- With no context RUNNING, the next READY one becomes RUNNING; a change of context is counted
(R78, R138). -/
def State.reselect (s : State) (t : Tile) : State :=
  let k := s.core t
  match k.running with
  | some _ => s
  | none =>
    if s.frozen t then s
    else match k.nextReady with
      | none => s
      | some c =>
        let s := s.modCore t fun k =>
          { (k.modCtx c fun x => { x with run := .running }) with last := c, quantum := 0 }
        if c = k.last then s else s.count (.core t.val) 4 1

/-- A BLOCKED context becomes READY (R77). -/
def Ctx.wake (x : Ctx) : Ctx :=
  if x.run == .blocked then { x with run := .ready, block := 0, wait := .none } else x

/-- A context woken, and the core's selection made. -/
def State.wake (s : State) (t : Tile) (c : CtxId) : State := (s.modCtx t c Ctx.wake).reselect t

/-- The contexts that wait for room in a queue of the core become READY (R77, R192, R264, R332). -/
def State.wakeQueue (s : State) (t : Tile) (q : Nat) : State :=
  ((List.finRange 4).foldl (fun s c =>
    match (s.ctx t c).wait with
    | .queue n => if n = q then s.modCtx t c Ctx.wake else s
    | _ => s) s).reselect t

/-- A core-local interrupt raised at a context, with its source (R135, R194, R347); a source that is
already pending stays pending once. -/
def State.coreIrq (s : State) (t : Tile) (c : CtxId) (source : Word) : State :=
  s.modCtx t c fun x => if x.irqs.contains source then x else { x with irqs := x.irqs ++ [source] }

/-! ### Loops and branches (R118 to R123, R127) -/

/-- The loop set that a completing end bundle evaluates: the highest active set that ends there
(R121). -/
def Ctx.endLoop (x : Ctx) (pc : BitVec 20) : Option (Fin 4) :=
  [(3 : Fin 4), 2, 1, 0].find? fun k => x.loopAct k.val && (x.loops.get k).le == pc

/-- The set at an end bundle evaluated, and on its exit the lower ones in turn (R121): the address
fetched next, and the context. -/
def Ctx.loopBack (x : Ctx) (pc : BitVec 20) (seq : Word) : Nat → Word × Ctx
  | 0 => (seq, x)
  | n + 1 =>
    match x.endLoop pc with
    | none => (seq, x)
    | some k =>
      let l := x.loops.get k
      if 1 < l.lc.toNat then
        (l.ls.setWidth 32, { x with loops := x.loops.set k.val { l with lc := l.lc - 1 } k.isLt })
      else (x.setLoopAct k.val false).loopBack pc seq n

/-- A taken branch to outside a loop body clears its LOOPACT (R123). -/
def Ctx.leaveLoops (x : Ctx) (pc : Word) : Ctx :=
  (List.finRange 4).foldl (fun y k =>
    let l := x.loops.get k
    if x.loopAct k.val && (decide (pc.toNat < l.ls.toNat) || decide (l.le.toNat < pc.toNat)) then
      y.setLoopAct k.val false
    else y) x

/-- A word of the instruction store of a partition (R124): as written, or as `Config.codeByte` has it. -/
def State.codeWord (s : State) (p : Part) (a : Nat) : Word :=
  leVal 32 ((List.range 4).map fun i =>
    (Tab.get none (s.parts.get p).istore (a + i)).getD (Config.codeByte p.val (a + i)))

/-- A line of the instruction store that a tile fetches from (R124, R125). -/
def State.codeLine (s : State) (t : Tile) (line : Nat) : FetchLine :=
  ⟨line, (List.range 16).map fun i => s.codeWord (s.tilePart t) (64 * line + 4 * i)⟩

/-- The length in words of the bundle that the store of a tile's partition holds at an address: up to its first
word with E = 1, 4 at most (R104, R112). -/
def State.bundleLen (s : State) (t : Tile) (a : Nat) : Nat :=
  match firstIdx 4 fun i => bit (s.codeWord (s.tilePart t) (a + 4 * i)) 31 with
  | some i => i + 1
  | none => 4

/-- The BTB with a taken branch's target and its first line entered in its set of two, the least recently used
leaving; the first entry of a set is the latest used. A branch that is there with this target keeps its entry, line and
all (R127). The set is that of the branch's word address modulo
32: DESIGN CHOICE, since R127 does not say which bits of the address select it. -/
def btbEnter (btb : List BtbEntry) (branch target : Nat) (line : FetchLine) : List BtbEntry :=
  let set := branch / 4 % 32
  let line := ((btb.find? fun e => e.branch == branch && e.target == target).map (·.line)).getD line
  let mine := btb.filter fun e => e.branch / 4 % 32 == set && e.branch != branch
  let rest := btb.filter fun e => e.branch / 4 % 32 != set
  ⟨branch, target, line⟩ :: mine.take 1 ++ rest

/-- A bundle retires. DESIGN CHOICE: a loop whose count is 0 in the end bundle of another active set goes past its own
body first, and that set keeps its count and stays active (R119, R121 do not say which decides). The context goes on to its next bundle, and the cycle and bundle counters move
on (R100, R121, R123, R126, R127, R138). -/
def State.retire (s : State) (t : Tile) (c : CtxId) (words : Nat) (flow : Flow) : State :=
  let x := s.ctx t c
  let here : BitVec 20 := x.pc.setWidth 20
  let seq := x.pc + BitVec.ofNat 32 (4 * words)
  let r : Word × Ctx :=
    match flow with
    | .seq => x.loopBack here seq 4
    | .branch pc => (pc, x.leaveLoops pc)
    | .call pc => (pc, x)
    | .skip pc => (pc, x)
    | .jump pc => (pc, x)
  let taken := match flow with
    | .skip _ | .jump _ => false
    | .branch _ | .call _ => true
    | .seq => r.1 != seq
  let btb := if taken then btbEnter (s.core t).btb here.toNat r.1.toNat (s.codeLine t (r.1.toNat / 64))
    else (s.core t).btb
  let line := match taken, btb with
    | true, e :: _ => e.line
    | _, _ => s.codeLine t (r.1.toNat / 64)
  let s := s.modCore t fun k =>
    { (k.modCtx c fun _ => { r.2 with
        pc := r.1
        done := []
        fault := none
        cycles := x.cycles + 1
        resuming := match flow with
          | .jump _ => x.resuming
          | _ => false
        velem := match flow with
          | .jump _ => r.2.velem
          | _ => if x.resuming then setBit r.2.velem 12 false else r.2.velem }) with
      quantum := k.quantum + 1
      timers := { k.timers with chk := k.timers.chk.set c.val 0 c.isLt }
      btb := btb
      resume := k.resume.set c.val (some line) c.isLt }
  s.count (.core t.val) c.val 1

/-- A bundle has taken a cycle of issue without retiring: it counts for CTX_CYCLES and the quantum (R79, R100). -/
def State.issued (s : State) (t : Tile) (c : CtxId) : State :=
  s.modCore t fun k =>
    { (k.modCtx c fun x => { x with cycles := x.cycles + 1 }) with quantum := k.quantum + 1 }

end Sys2Proof.Machine
end

