-- ==== Sys2Proof/Machine/Flags.lean ====
section
/-! DEFINITION. The scalar results, and the compares that predicates hold in place of flags (R163,
R563 to R568). -/

namespace Sys2Proof.Machine

/-- The register operations of major 0x00 (R563). -/
def aluVal (fn : AluFn) (a b : Word) : Word :=
  let n := (b.toNat % 32)
  match fn with
  | .add => a + b
  | .sub => a - b
  | .and => a &&& b
  | .or => a ||| b
  | .xor => a ^^^ b
  | .sll => a <<< n
  | .srl => a >>> n
  | .sra => a.sshiftRight n
  | .min => if a.slt b then a else b
  | .max => if a.slt b then b else a
  | .minu => if a.ult b then a else b
  | .maxu => if a.ult b then b else a

/-- The immediate operations of majors 0x01 to 0x05 (R564). -/
def aluImmVal (fn : AluImmFn) (a : Word) (imm : BitVec 14) : Word :=
  let n := imm.toNat % 32
  match fn with
  | .addi => a + imm.signExtend 32
  | .andi => a &&& imm.signExtend 32
  | .ori => a ||| imm.setWidth 32
  | .xori => a ^^^ imm.setWidth 32
  | .slli => a <<< n
  | .srli => a >>> n
  | .srai => a.sshiftRight n

/-- The compares of major 0x06 (R565). -/
def cmpVal (fn : CmpFn) (a b : Word) : Bool :=
  match fn with
  | .eq => a == b
  | .ne => a != b
  | .lt => a.slt b
  | .ltu => a.ult b
  | .le => a.sle b
  | .leu => a.ule b

/-- The address compares of major 0x0C, unsigned (R568). -/
def cmpaVal (fn : CmpaFn) (a b : Word) : Bool :=
  match fn with
  | .eq => a == b
  | .lt => a.ult b
  | .le => a.ule b

/-- The multiplies of major 0x08 (R567). -/
def mulVal (fn : MulFn) (a b : Word) : Word :=
  match fn with
  | .mul => a * b
  | .mulh => BitVec.ofInt 32 (a.toInt * b.toInt / 2 ^ 32)
  | .mulhu => BitVec.ofNat 32 (a.toNat * b.toNat / 2 ^ 32)

/-- The multiply-accumulates of major 0x09, modulo 2^40 (R567). -/
def macVal (fn : MacFn) (acc : Acc) (a b : Word) : Acc :=
  match fn with
  | .mac => BitVec.ofInt 40 (acc.toInt + a.toInt * b.toInt)
  | .macu => BitVec.ofNat 40 (acc.toNat + a.toNat * b.toNat)
  | .msu => BitVec.ofInt 40 (acc.toInt - a.toInt * b.toInt)

/-- cround(x, s): a shift right that rounds to nearest, ties to even (R163). -/
def cround (x : Int) (s : Nat) : Int := rneShift x s

/-- `mov.acc` and `mov.accu` into a data register (R567). -/
def movAccVal (unsigned : Bool) (acc : Acc) (sh : BitVec 5) : Word :=
  let q := cround acc.toInt sh.toNat
  if unsigned then satU 32 q else satS 32 q

/-- Bit 0 of a predicate, which scalar uses read (R148). -/
def Ctx.pbit (x : Ctx) (p : BitVec 3) : Bool := bit (x.rp p) 0

/-! ### The scalar families (R563 to R568) -/

/-- Major 0x00 of two registers. -/
def semAlu (e : Env) (fn : AluFn) (rd rs1 rs2 : BitVec 5) : Res :=
  let v := aluVal fn (e.x.rd rs1) (e.x.rd rs2)
  e.reg (·.setD rd v)

/-- `mov` d,d. -/
def semMov (e : Env) (rd rs : BitVec 5) : Res :=
  let v := e.x.rd rs
  e.reg (·.setD rd v)

/-- `mfp`: bit 0 of a predicate, zero-extended. -/
def semMfp (e : Env) (rd : BitVec 5) (p : BitVec 3) : Res :=
  let v := b2v 32 (e.x.pbit p)
  e.reg (·.setD rd v)

/-- `mtp`: every bit of the predicate takes bit 0 of the register. -/
def semMtp (e : Env) (p : BitVec 3) (rs : BitVec 5) : Res :=
  let v := predAll (bit (e.x.rd rs) 0)
  e.reg (·.setP p v)

/-- Majors 0x01 to 0x05. -/
def semAluImm (e : Env) (fn : AluImmFn) (rd rs1 : BitVec 5) (imm : BitVec 14) : Res :=
  let v := aluImmVal fn (e.x.rd rs1) imm
  e.reg (·.setD rd v)

/-- `movi`: a sign-extended constant (R566). -/
def semMovi (e : Env) (rd : BitVec 5) (imm : BitVec 18) : Res :=
  e.reg (·.setD rd (imm.signExtend 32))

/-- `movhi`: bits [31:18], the low bits kept (R566). -/
def semMovhi (e : Env) (rd : BitVec 5) (imm : BitVec 14) : Res :=
  let v := setFld (e.x.rd rd) 18 imm
  e.reg (·.setD rd v)

/-- The scalar compares: the result in all bits of the predicate (R565). -/
def semCmp (e : Env) (fn : CmpFn) (pd : BitVec 3) (rs1 rs2 : BitVec 5) : Res :=
  let v := predAll (cmpVal fn (e.x.rd rs1) (e.x.rd rs2))
  e.reg (·.setP pd v)

/-- The multiplies. -/
def semMul (e : Env) (fn : MulFn) (rd rs1 rs2 : BitVec 5) : Res :=
  let v := mulVal fn (e.x.rd rs1) (e.x.rd rs2)
  e.reg (·.setD rd v)

/-- The multiply-accumulates. -/
def semMac (e : Env) (fn : MacFn) (acc : BitVec 3) (rs1 rs2 : BitVec 5) : Res :=
  let v := macVal fn (e.x.racc acc) (e.x.rd rs1) (e.x.rd rs2)
  e.reg (·.setAcc acc v)

/-- `clr.acc`. -/
def semClrAcc (e : Env) (acc : BitVec 3) : Res := e.reg (·.setAcc acc 0)

/-- `mov.acc` acc,d,sh: sext(d) << sh. -/
def semMovAccFrom (e : Env) (acc : BitVec 3) (rs sh : BitVec 5) : Res :=
  let v := (e.x.rd rs).signExtend 40 <<< sh.toNat
  e.reg (·.setAcc acc v)

/-- `mov.acc` and `mov.accu` d,acc,sh. -/
def semMovAcc (e : Env) (unsigned : Bool) (rd : BitVec 5) (acc : BitVec 3) (sh : BitVec 5) : Res :=
  let v := movAccVal unsigned (e.x.racc acc) sh
  e.reg (·.setD rd v)

/-- `adda` a,a,d. -/
def semAdda (e : Env) (ad as1 : BitVec 4) (rs : BitVec 5) : Res :=
  let v := e.x.ra as1 + e.x.rd rs
  e.reg (·.setA ad v)

/-- `adda` a,a,simm14. -/
def semAddaImm (e : Env) (ad as1 : BitVec 4) (imm : BitVec 14) : Res :=
  let v := e.x.ra as1 + imm.signExtend 32
  e.reg (·.setA ad v)

/-- `suba` a,a,d. -/
def semSuba (e : Env) (ad as1 : BitVec 4) (rs : BitVec 5) : Res :=
  let v := e.x.ra as1 - e.x.rd rs
  e.reg (·.setA ad v)

/-- `mova` a,d. -/
def semMovaD (e : Env) (ad : BitVec 4) (rs : BitVec 5) : Res :=
  let v := e.x.rd rs
  e.reg (·.setA ad v)

/-- `mova` a,a. -/
def semMovaA (e : Env) (ad as1 : BitVec 4) : Res :=
  let v := e.x.ra as1
  e.reg (·.setA ad v)

/-- `movd` d,a. -/
def semMovd (e : Env) (rd : BitVec 5) (as1 : BitVec 4) : Res :=
  let v := e.x.ra as1
  e.reg (·.setD rd v)

/-- `cmpa`: unsigned, written as a scalar compare (R565, R568). -/
def semCmpa (e : Env) (fn : CmpaFn) (pd : BitVec 3) (as1 as2 : BitVec 4) : Res :=
  let v := predAll (cmpaVal fn (e.x.ra as1) (e.x.ra as2))
  e.reg (·.setP pd v)

/-! ### Branches and loops (R109, R118 to R120, R570) -/

/-- The target of a word offset from the bundle (R109). -/
def Ctx.rel (x : Ctx) (soff : BitVec 20) : Word := x.pc + (soff.signExtend 32 <<< 2)

/-- `br`: taken when bit 0 of p XOR NEG is 1. -/
def semBr (e : Env) (p : BitVec 3) (neg : Bool) (soff : BitVec 20) : Res :=
  if e.x.pbit p ^^ neg then .ok id (.branch (e.x.rel soff)) else .ok id .seq

/-- `call`: when it branches, a14 takes the address of the next bundle; `words` is the length of this
one. -/
def semCall (e : Env) (words : Nat) (p : BitVec 3) (neg : Bool) (soff : BitVec 20) : Res :=
  if e.x.pbit p ^^ neg then
    .ok (fun s => s.modCtx e.t e.c (·.setA 14 (e.x.pc + BitVec.ofNat 32 (4 * words))))
      (.call (e.x.rel soff))
  else .ok id .seq

/-- `ret`: to the address in a14. -/
def semRet (e : Env) : Res := .ok id (.branch (e.x.ra 14))

end Sys2Proof.Machine
end

