-- ==== Sys2Proof/Machine/Loads.lean ====
section
/-! DEFINITION. Scalar loads and stores, and the requests that remote and HBM accesses send (R81, R91
to R96, R103, R130 to R133, R569). -/

namespace Sys2Proof.Machine

/-- Remote and HBM requests of a DMA channel that are outstanding (R336). -/
def DmaCh.far (c : DmaCh) : Nat :=
  (c.outs.length - c.localWrites.length) + (c.reads.filter fun r => r.2.isNone).length

/-- Remote and HBM requests of the DMA engine that are outstanding (R336). -/
def Core.dmaFar (k : Core) : Nat := (List.finRange 8).foldl (fun n c => n + (k.dma.get c).far) 0

/-- A context waits for the answer to a remote tagged access or credit operation. -/
def Ctx.asking (x : Ctx) : Bool :=
  match x.wait with
  | .remoteTag .. | .credit .. => true
  | _ => false

/-- Remote and HBM requests of a core that are outstanding: the loads' without an answer and the stores
without an acknowledgement, but for those not sent yet, the tagged and credit requests of its contexts, and the DMA
engine's (R81, R313, R336, R378). -/
def Core.outstanding (k : Core) : Nat :=
  k.loads.foldl (fun n l => n + l.reqs.length) 0
    + (List.finRange 4).foldl (fun n c => n + (k.ctxs.get c).stores) 0
    - (List.finRange 4).foldl (fun n c => n + (k.ctxs.get c).sending.length) 0
    + ((List.finRange 4).filter fun c => (k.ctxs.get c).asking).length
    + k.dmaFar

/-- A load record entered, and its number. -/
def Core.newLoad (k : Core) (l : Nat → Load) : Core :=
  { k with loads := k.loads ++ [l k.loadId], loadId := k.loadId + 1 }

/-- A request put on the mesh, after those sent before (R133). -/
def State.sendMesh (s : State) (r : MeshReq) : State :=
  { s with board := { s.board with mesh := s.board.mesh ++ [r] } }

/-- A request queued at its memory channel. -/
def State.sendHbm (s : State) (r : HbmReq) : State :=
  { s with hbm := { s.hbm with queue := s.hbm.queue ++ [r] } }

/-- A request takes its turn among those of its bundle (R81, R176). -/
def State.queueFar (s : State) (t : Tile) (c : CtxId) (r : FarReq) : State :=
  s.modCtx t c fun x => { x with sending := x.sending ++ [r] }

/-- A store takes its turn, and is counted until it is acknowledged (R132). -/
def State.queueStore (s : State) (t : Tile) (c : CtxId) (r : FarReq) : State :=
  s.modCtx t c fun x => { x with stores := x.stores + 1, sending := x.sending ++ [r] }

/-- The request reads. -/
def FarReq.isRead : FarReq → Bool
  | .mesh r => (match r.body with
    | .read .. => true
    | _ => false)
  | .hbm r => r.data.isNone

/-- A bundle's loads go before its stores, which they do not see (R115). -/
def Ctx.orderFar (x : Ctx) : Ctx :=
  { x with sending := x.sending.filter FarReq.isRead ++ x.sending.filter fun r => !r.isRead }

/-- A request leaves the core. -/
def State.sendFar (s : State) : FarReq → State
  | .mesh r => s.sendMesh r
  | .hbm r => s.sendHbm r

/-- A context's waiting requests leave, up to `n` and while fewer than 32 of the core are outstanding
(R81, R176, R378). -/
def State.pushFar (s : State) (t : Tile) (c : CtxId) : Nat → State
  | 0 => s
  | n + 1 =>
    match (s.ctx t c).sending with
    | [] => s
    | r :: rest =>
      if 32 ≤ (s.core t).outstanding then s
      else ((s.modCtx t c fun x => { x with sending := rest }).sendFar r).pushFar t c n

/-- Every request of a context that may leave does. -/
def State.pushAll (s : State) (t : Tile) (c : CtxId) : State := s.pushFar t c (s.ctx t c).sending.length

/-- The state after a translation of a core access. -/
def Env.xl (e : Env) (dva : DWord) (write : Bool) (s : State) : Xlate × State :=
  s.xlate (s.tilePart e.t) e.x.func dva .core write 0

/-- The cycle of a stall that R131 or a full store buffer causes (R138). -/
def Env.sbStall (e : Env) : Res := .stall fun s => s.count (.core e.t.val) 6 1

/-- A stall for a bank that takes no access now (R299, R319, R321). -/
def Env.portStall (e : Env) (l : List Nat) : Res := .stall fun s => s.portWait e.t l

/-- A register value that a scalar load writes (R569). -/
def loadVal (size : MemSize) (bs : List Byte) : Word :=
  match size with
  | .byte => (leVal 8 bs).setWidth 32
  | .half => (leVal 16 bs).signExtend 32
  | .word => leVal 32 bs

/-- A register value that a tagged load writes: zero-extended (R301). -/
def takeVal (size : MemSize) (bs : List Byte) : Word := leVal 32 (bs.take (MemSize.bytes size))

/-- A scalar load from an HBM window, into `dst` (R94, R95). -/
def hbmLoad (e : Env) (dst : LoadDst) (n : Nat) (addr : Word) (w : Fin 8) (off : Nat) (upd : Ctx → Ctx) : Res :=
  match e.x.windowDva w off with
  | none => e.exc 0x05 addr
  | some dva =>
    match (e.xl dva false e.s).1 with
    | .refused _ => .exc 0x0D addr false fun s => (e.xl dva false s).2
    | .held _ => .stall id
    | .ok dpa =>
      .ok (fun s =>
        let s := (e.xl dva false s).2
        let id := (s.core e.t).loadId
        let s := s.modCore e.t fun q => q.newLoad fun i =>
          ⟨i, e.c, dst, [(0, true)], e.x.pc.setWidth 20, addr, none⟩
        let s := s.queueFar e.t e.c (.hbm
          ⟨.load e.lc e.c id 0, e.x.func, dpa, n, none, (s.stackOf dpa).1, false⟩)
        s.modCtx e.t e.c upd) .seq

/-- A data register written by a load, which may be uncorrectable data of the address it was issued with (R317). -/
def Ctx.takeWord (x : Ctx) (rd : BitVec 5) (dad v : Word) (bad : Bool) : Ctx :=
  let x := x.setD rd v
  if bad then { x with poison := (rd, dad) :: x.poison.filter fun p => p.1 != rd } else x

/-- A load that was performed before its bundle's other accesses: its value and its base update (R115, R132). -/
def Env.loaded (e : Env) (rd : BitVec 5) (ab : BitVec 4) (q : Word × Option Word) (v : Word) : Res :=
  e.reg fun x => (x.upd ab q.2).takeWord rd q.1 v (e.doneWord 1 != 0)

/-- A scalar load (R95, R103, R131, R569). -/
def semLoad (e : Env) (size : MemSize) (rd : BitVec 5) (m : MemAddr) : Res :=
  match e.doneVal with
  | some v => e.loaded rd m.ab (e.x.lm m size) v
  | none =>
  let r := e.x.lm m size
  let n := MemSize.bytes size
  let upd := fun x : Ctx => x.upd m.ab r.2
  if r.1.toNat % n ≠ 0 then e.exc 0x06 r.1
  else match target e.lc r.1 with
  | none => e.exc 0x05 r.1
  | some (.loc a) =>
    if e.core.paused a (e.s.rmapBank e.t) then e.portStall [a]
    else match e.core.load a n with
    | .wait => e.sbStall
    | .bytes bs marks =>
      if marks.any id then .exc 0x0E r.1 false fun s => s.uncorrectable e.t a
      else
        let v := loadVal size bs
        e.reg fun x => (upd x).setD rd v
  | some (.remote k a) =>
    .ok (fun s =>
      let id := (s.core e.t).loadId
      let s := s.modCore e.t fun q => q.newLoad fun i =>
        ⟨i, e.c, .data rd size, [(0, false)], e.x.pc.setWidth 20, r.1, none⟩
      let s := s.queueFar e.t e.c (.mesh ⟨e.lc, .ctx e.c, e.x.func, k, .read id 0 a n []⟩)
      s.modCtx e.t e.c upd) .seq
  | some (.hbm w off) => hbmLoad e (.data rd size) n r.1 w off upd

/-- A store of bytes to one place (R93, R95, R130): to the store buffer, to a remote core, or to HBM,
where a refusal is a deferred fault. The bytes lie within one 64-byte block. -/
def storeAt (e : Env) (addr : Word) (bs : List (Option Byte)) : Res :=
  match target e.lc addr with
  | none => e.exc 0x05 addr
  | some (.loc a) =>
    if e.core.paused a (e.s.rmapBank e.t) then e.portStall [a]
    else .ok (fun s => s.modCore e.t fun k =>
      (List.range bs.length).foldl (fun k i =>
        match listAt none bs i with
        | some b => k.sbPut e.c (a + i) b
        | none => k) k) .seq
  | some (.remote k a) =>
    .ok (fun s => s.queueStore e.t e.c (.mesh ⟨e.lc, .ctx e.c, e.x.func, k, .write a bs addr⟩)) .seq
  | some (.hbm w off) =>
    match e.x.windowDva w off with
    | none => e.exc 0x05 addr
    | some dva =>
      match (e.xl dva true e.s).1 with
      | .held _ => .stall id
      | .refused _ => .ok (fun s => (e.xl dva true s).2.defer e.t e.c ⟨0x0D, addr, none⟩) .seq
      | .ok dpa =>
        .ok (fun s =>
          let s := (e.xl dva true s).2
          s.queueStore e.t e.c (.hbm
            ⟨.store e.lc e.c, e.x.func, dpa, bs.length, some bs, (s.stackOf dpa).1, false⟩)) .seq

/-- An outcome with a further effect on the context. -/
def Res.andThen (r : Res) (f : State → State) : Res :=
  match r with
  | .ok g fl => .ok (fun s => f (g s)) fl
  | r => r

/-- A scalar store (R103, R569); one that went before an ordering operation of its bundle has its base update left
(R132). -/
def semStore (e : Env) (size : MemSize) (rs : BitVec 5) (m : MemAddr) : Res :=
  let r := e.x.lm m size
  let n := MemSize.bytes size
  if e.doneVal.isSome then e.reg (·.upd m.ab r.2)
  else if r.1.toNat % n ≠ 0 then e.exc 0x06 r.1
  else (storeAt e r.1 ((leBytes (e.x.rd rs) n).map some)).andThen fun s =>
    s.modCtx e.t e.c fun x => x.upd m.ab r.2

/-! ### Tagged accesses (R301 to R306) -/

/-- A waiter takes its place behind those that wait already (R302). -/
def Core.waitsOn (k : Core) (w : LCore × Agent) : Core :=
  { k with waiters := (k.waiters.filter fun x => x != w) ++ [w] }

/-- A load of a core's own context finds its bytes: no entry of the store buffer covers them in part (R131). -/
def Core.tagSees (k : Core) (x : TagAcc) : Bool :=
  match x.fn with
  | .peek | .take => !x.own || k.load x.addr (MemSize.bytes x.size) != .wait
  | .stT | .put => true

/-- A waiter of core `me` waits for the slot, and its tag lets it pass now: a parked remote access, a DMA
channel of the core, or one of its contexts (R301 to R304). -/
def Core.servable (k : Core) (me : LCore) (slot : Nat) (w : LCore × Agent) : Bool :=
  match k.parked.find? fun r => r.src == w.1 && r.agent == w.2 with
  | some r =>
    match r.body with
    | .tagged _ fn _ a _ _ => slotOf a == slot && k.tagReady fn a
    | .dmaRead _ _ _ q .. => q == slot && (!k.tagged slot || k.full slot)
    | .dmaWrite _ _ _ q .. => q == slot && (!k.tagged slot || !k.full slot)
    | _ => false
  | none =>
    w.1 == me && match w.2 with
      | .dma c =>
        (match (k.dma.get c).wait with
        | some q =>
          (k.dma.get c).run == .waiting && q.core == me && q.slot == slot &&
            (!k.tagged slot || k.full slot == q.full)
        | none => false)
      | .ctx c =>
        (match (k.ctxs.get c).wait with
        | .tag _ acc _ => slotOf acc.addr == slot && k.tagReady acc.fn acc.addr
        | _ => false)

/-- A waiter that the latest tag change has made serviceable comes before a new access to its slot
(R302). -/
def Core.contested (k : Core) (me : LCore) (slot : Nat) : Bool :=
  k.tagged slot && k.waiters.any (k.servable me slot)

/-- The value of a tagged load, zero-extended (R301). -/
def tagFinish (e : Env) (fn : TagFn) (r : BitVec 5) (upd : Ctx → Ctx) (v : Word) : Res :=
  match fn with
  | .peek | .take => e.reg fun x => (upd x).setD r v
  | .stT | .put => e.reg upd

/-- A tagged load or store (R301, R303, R304). A remote one is a request of the core, which waits for one of its 32
places (R81). It waits for the context's store-buffer entries (tagged
stores) or for entries that cover its bytes in part (loads, R131), blocks with code 3 until the tag unit has
performed it, and is a deferred-fault point. -/
def semTagged (e : Env) (fn : TagFn) (size : MemSize) (r : BitVec 5) (m : TagAddr) : Res :=
  let q := e.x.tm m size
  let n := MemSize.bytes size
  let upd := fun x : Ctx => x.upd m.ab q.2
  let store := fn == .stT || fn == .put
  if q.1.toNat % n ≠ 0 then e.exc 0x06 q.1
  else match target e.lc q.1 with
  | none => e.exc 0x05 q.1
  | some (.hbm w off) =>
    (match e.doneVal with
    | some v => e.loaded r m.ab q v
    | none =>
      if store && e.core.sbOwn e.c then .stall id
      else e.deferPoint <|
        if store then
          (storeAt e q.1 ((leBytes (e.x.rd r) n).map some)).andThen fun s => s.modCtx e.t e.c upd
        else hbmLoad e (.acquire r size) n q.1 w off upd)
  | some (.loc a) =>
    match e.doneVal with
    | some v => tagFinish e fn r upd v
    | none =>
      if store && e.core.sbOwn e.c then .stall id
      else if e.core.paused a (e.s.rmapBank e.t) then e.portStall [a]
      else if !store && e.core.load a n == .wait then e.sbStall
      else e.deferPoint <|
        let acc : TagAcc := ⟨fn, size, a, e.x.rd r, q.1, true⟩
        if e.core.tagReady fn a && !e.core.contested e.lc (slotOf a) then
          let out := e.core.tagAccess acc
          if out.2.1 then
            .exc 0x0E q.1 false fun s =>
              ((s.modCore e.t fun k => (k.tagAccess acc).2.2).uncorrectable e.t a)
          else (tagFinish e fn r upd out.1).andThen fun s =>
            s.modCore e.t fun k => (k.tagAccess acc).2.2
        else .block 3 (.tag e.pos acc e.s.time) fun s =>
          (s.count (.spad e.t.val) 6 1).modCore e.t fun k => k.waitsOn (e.lc, .ctx e.c)
  | some (.remote k a) =>
    match e.doneVal with
    | some v => tagFinish e fn r upd v
    | none =>
      if (store && e.core.sbOwn e.c) || decide (32 ≤ e.core.outstanding) then .stall id
      else e.deferPoint <| .block 3 (.remoteTag e.pos q.1 false e.s.time) fun s =>
        (s.count (.spad e.t.val) 6 1).sendMesh ⟨e.lc, .ctx e.c, e.x.func, k,
          .tagged e.pos fn size a (if store then e.x.rd r else 0) q.1⟩

end Sys2Proof.Machine
end

