-- ==== Sys2Proof/Machine/Dma.lean ====
section
/-! DEFINITION. The DMA engine (R326 to R355): descriptors and their checks, how bytes move in each mode,
tags, completion, chains and failures. -/

namespace Sys2Proof.Machine

/-- A channel of a core. -/
def Core.ch (k : Core) (c : Fin 8) : DmaCh := k.dma.get c

/-- The state with a channel changed. -/
def State.modCh (s : State) (t : Tile) (c : Fin 8) (f : DmaCh → DmaCh) : State :=
  s.modCore t fun k => { k with dma := k.dma.set c.val (f (k.dma.get c)) c.isLt }

/-- Word `i` of a descriptor. -/
def dword {n : Nat} (d : BitVec n) (i : Nat) : Word := fld d (32 * i) 32

/-- The fields of a descriptor (R341). -/
structure DmaDesc where
  src : Word
  dst : Word
  x : Nat
  y : Nat
  ss : Int
  ds : Int
  mode : Nat
  tagged : Bool
  esz : Bool
  irqHalf : Bool
  irqFull : Bool
  evt : Nat
  evstream : BitVec 3
  last : Bool
  link : Word
  p0 : Word
  p1 : Word
  p2 : Word
  p3 : Word
  obj : BitVec 13
  add : Word

/-- A descriptor's fields read. -/
def dmaDesc (d : BitVec 512) : DmaDesc where
  src := dword d 0
  dst := dword d 1
  x := (dword d 2).toNat
  y := (dword d 3).toNat
  ss := (dword d 4).toInt
  ds := (dword d 5).toInt
  mode := (fld d 198 4).toNat
  tagged := bit d 202
  esz := bit d 203
  irqHalf := bit d 204
  irqFull := bit d 205
  evt := (fld d 206 2).toNat
  evstream := fld d 208 3
  last := bit d 224
  link := dword d 7 &&& 0xFFFFFFC0
  p0 := dword d 8
  p1 := dword d 9
  p2 := dword d 10
  p3 := dword d 11
  obj := fld d 384 13
  add := dword d 13

/-- The registers of a channel as a descriptor: END set, the pattern in P0, an add of 1 to the object of
LINK (R329, R331, R345). -/
def DmaCh.regsDesc (c : DmaCh) : BitVec 512 :=
  pack 512 [c.src, c.dst, c.xcnt.setWidth 32, c.ycnt.setWidth 32, c.sstride, c.dstride,
    (c.ctrl &&& 0x7FFC0).setWidth 32, 1, c.src, 0, 0, 0, (fld c.link 0 13).setWidth 32, 1, 0, 0]

/-! ### Where bytes come from and go (R338, R339) -/

/-- How a descriptor moves bytes: how many there are in the order of its positions, where each goes and
which source bytes it needs, what it becomes of them, and the half-count point (R347). -/
structure Xfer where
  total : Nat
  dst : Nat → Int
  srcs : Nat → List Int
  out : Nat → List Byte → Byte
  half : Nat
  writes : Bool
  fresh : Nat → Bool := fun _ => true

/-- The source bytes that a run reads and the positions before it have not read yet, in the glaze modes, where positions
share a group or its pixels; elsewhere each position reads its own (R353). -/
def Xfer.freshReads (x : Xfer) (n k : Nat) : Nat :=
  (((List.range k).filter fun i => x.fresh (n + i)).flatMap fun i => x.srcs (n + i)).eraseDups.length

/-- The element of a list of bytes. -/
def byteAt (l : List Byte) (i : Nat) : Byte := listAt 0 l i

/-- A plain move of row positions from `src` to `dst`. -/
def DmaDesc.move (d : DmaDesc) (src dst : Nat → Nat → Int) : Xfer :=
  let half := if 2 ≤ d.y then (d.y + 1) / 2 * d.x else (d.x + 1) / 2
  { total := d.x * d.y
    dst := fun n => dst (n / d.x) (n % d.x)
    srcs := fun n => [src (n / d.x) (n % d.x)]
    out := fun _ l => byteAt l 0
    half := half
    writes := true }

/-- Source and destination addresses. -/
def DmaDesc.s0 (d : DmaDesc) : Int := d.src.toNat

/-- The destination base. -/
def DmaDesc.d0 (d : DmaDesc) : Int := d.dst.toNat

/-- The plane stride P0, unsigned. -/
def DmaDesc.plane (d : DmaDesc) : Int := d.p0.toNat

/-- Bytes per element in the Bayer modes. -/
def DmaDesc.e (d : DmaDesc) : Nat := if d.esz then 2 else 1

/-- The plane side of the Bayer modes: element (y, x) in plane 2 × (y mod 2) + (x mod 2). -/
def DmaDesc.bayer (d : DmaDesc) (base stride : Int) (y i : Nat) : Int :=
  let x := i / d.e
  base + (2 * (y % 2) + x % 2 : Nat) * d.plane + (y / 2 : Nat) * stride + (x / 2 * d.e + i % d.e : Nat)

/-- Glaze: SIGNED, RATE, and the channels of a block. -/
def DmaDesc.signed (d : DmaDesc) : Bool := bit d.p0 0

/-- RATE. -/
def DmaDesc.rate34 (d : DmaDesc) : Bool := bit d.p0 1

/-- C of CB16 or CB32. -/
def DmaDesc.cb (d : DmaDesc) : Nat := if bit d.p0 2 then 32 else 16

/-- NBLK. -/
def DmaDesc.nblk (d : DmaDesc) : Nat := (fld d.p1 0 16).toNat

/-- GS (R288). -/
def DmaDesc.gs (d : DmaDesc) : Nat := d.cb * glazeSize d.rate34

/-- Bands and block columns. -/
def DmaDesc.bands (d : DmaDesc) : Nat := (d.y + 3) / 4

/-- Block columns. -/
def DmaDesc.cols (d : DmaDesc) : Nat := (d.x + 3) / 4

/-- The address of a group of the glazed side (R339). -/
def DmaDesc.group (d : DmaDesc) (base stride : Int) (j b bx : Nat) : Int :=
  base + j * (d.p3.toNat : Int) + b * stride + (bx * d.gs : Nat)

/-- The address of channel `c` of pixel (r, x) of the CB side (R339). -/
def DmaDesc.pixel (d : DmaDesc) (base stride : Int) (j r x c : Nat) : Int :=
  base + j * (d.p2.toNat : Int) + r * stride + (x * d.cb + c : Nat)

/-- GLAZE_ENC: bytes of glazed groups, band by band, each from the 16 pixels of its channel, clamped to
the map (R287, R339). -/
def DmaDesc.glazeEncXfer (d : DmaDesc) : Xfer :=
  let band := d.nblk * d.cols * d.gs
  let sz := glazeSize d.rate34
  { total := d.bands * band
    dst := fun n =>
      let m := n % band
      d.group d.d0 d.ds (m / (d.cols * d.gs)) (n / band) (m / d.gs % d.cols) + (m % d.gs : Nat)
    srcs := fun n =>
      let m := n % band
      let bx := m / d.gs % d.cols
      (List.range 16).map fun i =>
        let (r, x) := glazePlace d.y d.x (n / band) bx i
        d.pixel d.s0 d.ss (m / (d.cols * d.gs)) r x (m % d.gs / sz)
    out := fun n l => byteAt (glazeEnc d.signed d.rate34 l) (n % band % d.gs % sz)
    half := (d.bands + 1) / 2 * band
    writes := true
    fresh := fun n => n % band % d.gs % sz == 0 }

/-- GLAZE_DEC: map pixels, band by band, each channel from its block (R287, R339). -/
def DmaDesc.glazeDecXfer (d : DmaDesc) : Xfer :=
  let row := d.x * d.cb
  let band := d.nblk * 4 * row
  let sz := glazeSize d.rate34
  let split (n : Nat) : Nat × Nat × Nat × Nat × Nat :=
    let b := n / band
    let rows := glazeRows d.y b
    let m := n % band
    (b, m / (rows * row), m / row % rows, m % row / d.cb, m % d.cb)
  { total := d.nblk * d.y * row
    dst := fun n =>
      let (b, j, r, x, c) := split n
      d.pixel d.d0 d.ds j (4 * b + r) x c
    srcs := fun n =>
      let (b, j, _, x, c) := split n
      (List.range sz).map fun k => d.group d.s0 d.ss j b (x / 4) + (c * sz + k : Nat)
    out := fun n l =>
      let (_, _, r, x, _) := split n
      glazeDec d.signed d.rate34 l (4 * r + x % 4)
    half := min (d.nblk * d.y * row) ((d.bands + 1) / 2 * band)
    writes := true
    fresh := fun n =>
      let (_, _, r, x, _) := split n
      r == 0 && x % 4 == 0 }

/-- The IV of a DECRYPT: P1, P2, P3, low word first (R340). -/
def DmaDesc.iv (d : DmaDesc) : BitVec 96 := pack 96 [d.p1, d.p2, d.p3]

/-- Byte `n` of the GCM key stream; block 2 is the first that encrypts data. -/
def keyByte (key : BitVec 256) (iv : BitVec 96) (n : Nat) : Byte :=
  fld (Config.keyStream key iv (n / 16 + 2)) (8 * (n % 16)) 8

/-- How a descriptor moves bytes (R338 to R340). -/
def DmaDesc.xfer (d : DmaDesc) (key : BitVec 256) : Xfer :=
  let src (y i : Nat) : Int := d.s0 + y * d.ss + i
  let dst (y i : Nat) : Int := d.d0 + y * d.ds + i
  let third (base stride : Int) (y i : Nat) : Int :=
    base + (i % 3 : Nat) * d.plane + y * stride + (i / 3 : Nat)
  match d.mode with
  | 1 =>
    let x := d.move src dst
    { x with srcs := fun _ => [], out := fun n _ => fld d.p0 (8 * (n % d.x % 4)) 8 }
  | 2 =>
    let x := d.move src dst
    { x with srcs := fun n => [src (n / d.x) (n % d.x), dst (n / d.x) (n % d.x)], writes := false }
  | 3 => d.move src (third d.d0 d.ds)
  | 4 => d.move (third d.s0 d.ss) dst
  | 5 => d.move src (d.bayer d.d0 d.ds)
  | 6 => d.move (d.bayer d.s0 d.ss) dst
  | 7 => d.move src fun y i => d.d0 + (i % 2 : Nat) * d.plane + y * d.ds + (i / 2 : Nat)
  | 8 => d.glazeEncXfer
  | 9 => d.glazeDecXfer
  | 10 =>
    let x := d.move src dst
    { x with out := fun n l => byteAt l 0 ^^^ keyByte key d.iv n }
  | _ => d.move src dst

/-! ### Extents and checks at the start of a descriptor (R337, R349) -/

/-- The rows of an extent: `planes` times `rows` runs of `len` bytes, by the address of each. -/
def runsOf (base stride step : Int) (planes rows len : Nat) : List (Int × Nat) :=
  (List.range planes).flatMap fun (p : Nat) => (List.range rows).map fun (r : Nat) => (base + p * step + r * stride, len)

/-- The source extent as its rows; empty for FILL (R337 to R340). -/
def DmaDesc.srcRuns (d : DmaDesc) : List (Int × Nat) :=
  match d.mode with
  | 1 => []
  | 4 => runsOf d.s0 d.ss d.plane 3 d.y (d.x / 3)
  | 6 => runsOf d.s0 d.ss d.plane 4 ((d.y + 1) / 2) (d.x / 2)
  | 8 => runsOf d.s0 d.ss d.p2.toNat d.nblk d.y (d.x * d.cb)
  | 9 => runsOf d.s0 d.ss d.p3.toNat d.nblk d.bands (d.cols * d.gs)
  | 10 => [(d.s0, d.x + 16)]
  | _ => runsOf d.s0 d.ss 0 1 d.y d.x

/-- The destination extent as its rows (R337 to R340); that of COMPARE is the second that it reads. -/
def DmaDesc.dstRuns (d : DmaDesc) : List (Int × Nat) :=
  match d.mode with
  | 3 => runsOf d.d0 d.ds d.plane 3 d.y (d.x / 3)
  | 5 => runsOf d.d0 d.ds d.plane 4 ((d.y + 1) / 2) (d.x / 2)
  | 7 => runsOf d.d0 d.ds d.plane 2 d.y (d.x / 2)
  | 8 => runsOf d.d0 d.ds d.p3.toNat d.nblk d.bands (d.cols * d.gs)
  | 9 => runsOf d.d0 d.ds d.p2.toNat d.nblk d.y (d.x * d.cb)
  | _ => runsOf d.d0 d.ds 0 1 d.y d.x

/-- A memory's own number. -/
def memNo (a : Nat) : Nat :=
  match memKind a with
  | some (.wm, _) => 0
  | some (.am, _) => 1
  | some (.pm, _) => 2
  | none => 3

/-- The permitted target of an address, as a number: one local memory, one memory of one remote core, or
one HBM window that is enabled in the command's copy (R337). -/
def DmaCmd.place (q : DmaCmd) (me : LCore) (a : Int) : Option Nat :=
  if a < 0 ∨ 2 ^ 32 ≤ a then none
  else match target me (BitVec.ofInt 32 a) with
    | some (.loc k) => some (memNo k)
    | some (.remote n k) => some (4 + 4 * n.val + memNo k)
    | some (.hbm w _) => if bit (q.win.get w) 0 then some (200 + w.val) else none
    | none => none

/-- A run of bytes lies in the permitted target `p`. The core's own memories have two ranges of addresses (R92), between
which there is no target. -/
def DmaCmd.runIn (q : DmaCmd) (me : LCore) (p : Nat) (r : Int × Nat) : Bool :=
  let z := r.1 + (r.2 - 1 : Nat)
  q.place me r.1 == some p && q.place me z == some p && (decide (r.1 < 0x10000000) == decide (z < 0x10000000))

/-- Every byte of the extent lies in one permitted target (R337). -/
def DmaCmd.oneTarget (q : DmaCmd) (me : LCore) (rs : List (Int × Nat)) : Bool :=
  match rs with
  | [] => true
  | r :: _ => match q.place me r.1 with
    | some p => rs.all (q.runIn me p)
    | none => false

/-- The address lies in local WM or AM, as the destination of a DECRYPT must. -/
def DmaCmd.localAmWm (q : DmaCmd) (me : LCore) (a : Int) : Bool :=
  match q.place me a with
  | some k => decide (k < 2)
  | none => false

/-- The address lies in an HBM window, as the source of a DECRYPT must. -/
def DmaCmd.inWindow (q : DmaCmd) (me : LCore) (a : Int) : Bool :=
  match q.place me a with
  | some k => decide (200 ≤ k)
  | none => false

/-- The key that a DECRYPT takes from its slot, if its owner may (R474). -/
def State.modelKey (s : State) (f : Func) (slot : Nat) : Option (BitVec 256) :=
  match Tab.get none s.sec.keys slot with
  | some k => if bit k.fmask f.val then some k.key else none
  | none => none

/-- The status that the start checks give, in code order; 0 where they pass (R349). `regs` is a direct
start (R331). -/
def DmaDesc.check (d : DmaDesc) (raw : BitVec 512) (q : DmaCmd) (me : LCore) (regs : Bool)
    (key : Option (BitVec 256)) : Byte :=
  let rsv := fld raw 88 8 != 0 || fld raw 112 16 != 0 || fld raw 192 6 != 0 || fld raw 211 13 != 0 ||
    fld raw 225 5 != 0 || fld raw 397 19 != 0
  let glaze := d.mode == 8 || d.mode == 9
  let mult (a : Int) (n : Nat) : Bool := a % n == 0
  if rsv || 11 ≤ d.mode || d.evt == 3 then 0x40
  else if (regs && 1 < d.mode) || (d.evt != 0 && (d.irqHalf || d.irqFull)) ||
      (d.esz && d.mode != 5 && d.mode != 6) then 0x41
  else if d.x == 0 || d.y == 0 ||
      ((d.mode == 3 || d.mode == 4) && d.x % 3 != 0) ||
      ((d.mode == 5 || d.mode == 6) && (d.x % (2 * d.e) != 0 || d.y % 2 != 0)) ||
      (d.mode == 7 && d.x % 2 != 0) || (glaze && d.nblk == 0) ||
      (d.mode == 10 && (d.y != 1 || d.x % 64 != 0)) then 0x42
  else if !(q.oneTarget me d.srcRuns && q.oneTarget me d.dstRuns) ||
      (d.mode == 10 && !(q.localAmWm me d.d0 && q.inWindow me d.s0)) then 0x43
  else if (d.mode == 8 && !(mult d.d0 64 && mult d.ds 64 && mult d.p3.toNat 64 && mult d.s0 d.cb)) ||
      (d.mode == 9 && !(mult d.s0 64 && mult d.ss 64 && mult d.p3.toNat 64 && mult d.d0 d.cb)) ||
      (d.mode == 10 && !(mult d.s0 64 && mult d.d0 64)) then 0x44
  else if d.mode == 10 && key.isNone then 0x49
  else 0

/-! ### Completion and failure (R342, R345 to R348) -/

/-- The IO address of a channel, the source of its interrupts (R347). -/
def dmaIo (c : Fin 8) : Word := BitVec.ofNat 32 (0x100 + 0x20 * c.val)

/-- The result of a descriptor written in place, once its bank takes accesses (R319, R321, R341). -/
def State.dmaResult (s : State) (t : Tile) (c : Fin 8) (status : Byte) (mismatch : Bool) (off : Nat) :
    State :=
  match ((s.core t).ch c).line with
  | some a =>
    let w : Word := status.setWidth 32 ||| 0x100 ||| (b2v 32 mismatch <<< 9)
    s.bankPut t (a + 0x38) (leBytes w 4 ++ leBytes (BitVec.ofNat 32 off) 4)
  | none => s

/-- A matrix job whose output transfer ended: 0 or status 0x4B (R194, R215, R331). -/
def State.outputEnd (s : State) (t : Tile) (job : Option (BitVec 16)) (status : Byte) : State :=
  match job with
  | none => s
  | some q => s.modCore t fun k => { k with mtx := { k.mtx with queue := k.mtx.queue.map fun j =>
      if j.seq = q ∧ j.stage = .output then { j with stage := .finished, status := status } else j } }

/-- The channel stops in ERROR with a status; the interrupt of a failed descriptor is raised (R342,
R348). -/
def State.dmaError (s : State) (t : Tile) (c : Fin 8) (status : Byte) : State :=
  let h := (s.core t).ch c
  let s := s.modCh t c fun h => { h with run := .error, status := status, wait := none, reads := [] }
  let s := s.raise (.dma t.val) (BitVec.twoPow 32 (16 + c.val))
  let s := s.coreIrq t h.ctx (dmaIo c + 2)
  s.outputEnd t (h.cur.bind (·.job)) 0x4B

/-- A descriptor fails: its result is written for a chain, and it is counted (R348, R353). -/
def State.dmaFail (s : State) (t : Tile) (c : Fin 8) (status : Byte) (off : Nat) : State :=
  let s := s.dmaResult t c status false off
  let s := (s.count (.dma t.val) 2 1).count (.dma t.val) 3 1
  s.dmaError t c status

/-- The command of a channel ends: the pending one starts, or the channel becomes IDLE (R332, R334). -/
def State.dmaEnd (s : State) (t : Tile) (c : Fin 8) : State :=
  let s := s.modCh t c fun h =>
    match h.pend with
    | some q => { h with
        cur := some q, pend := none, run := .ready, phase := .start, dbpend := false, ctx := q.ctx
        func := q.func
        line := if q.src == .chain then some q.addr else none }
    | none => { h with cur := none, run := .idle, phase := .start, dbpend := false, line := none }
  s.wakeQueue t (2 + c.val)

/-- The channel continues at a link, which must be a local scratchpad address (R342). -/
def State.dmaLink (s : State) (t : Tile) (c : Fin 8) (link : Word) : State :=
  if localOk link.toNat then
    s.modCh t c fun h => { h with run := .ready, phase := .start, line := some link.toNat }
  else s.dmaError t c 0x4C

/-- A stripe trigger: the count of a stream, saturating (R268). -/
def State.trigger (s : State) (t : Tile) (stream : Fin 8) : State :=
  s.modCore t fun k => { k with str := { k.str with
    streams := k.str.streams.set stream.val
      { k.str.streams.get stream with
        trigs := if (k.str.streams.get stream).trigs = 255 then 255
          else (k.str.streams.get stream).trigs + 1 } stream.isLt } }

/-- A synchronisation operation on its way to its bank (R382, R390). -/
def State.sendSync (s : State) (r : SyncReq) : State :=
  { s with sync := { s.sync with queue := s.sync.queue ++ [r] } }

/-- A descriptor completes: result, event pulse, interrupt, and the channel's next state (R345). DESIGN CHOICE: the output
transfer of a matrix job has completed with its first descriptor, also where CHAIN is 1 and others follow (R194, R215 and
R345 do not say when a chain has). -/
def State.dmaDone (s : State) (t : Tile) (c : Fin 8) : State :=
  let h := (s.core t).ch c
  let d := dmaDesc h.desc
  let s := s.dmaResult t c 0 h.mismatch.isSome (h.mismatch.getD 0)
  let s := s.modCh t c fun h => { h with status := 0 }
  let s := s.count (.dma t.val) 2 1
  let s := if h.mismatch.isSome then s.count (.dma t.val) 4 1 else s
  let s := if d.evt = 1 then s.sendSync ⟨.dma, h.func, d.obj, .add (d.add.setWidth 64)⟩
    else if d.evt = 2 then s.trigger t d.evstream.toFin else s
  let s := if d.irqFull then
      (s.raise (.dma t.val) (BitVec.twoPow 32 c.val)).coreIrq t h.ctx (dmaIo c)
    else s
  match h.cur with
  | none => s.dmaEnd t c
  | some q =>
    let s := s.outputEnd t q.job 0
    match h.line with
    | some _ => s.modCh t c fun h => { h with phase := .link }
    | none => if q.src == .copied && !d.last then s.dmaLink t c d.link else s.dmaEnd t c

/-! ### Moving bytes (R335, R336, R345) -/

/-- How a descriptor of a channel moves bytes. -/
def DmaCh.xfer (h : DmaCh) : Xfer := (dmaDesc h.desc).xfer h.key

/-- Two addresses follow one another inside one line. -/
def nextInLine (a b : Int) (k : Nat) : Bool := b == a + k && b / 64 == a / 64

/-- How many positions from `n` on go in one write request: one run inside one line, not past the end
or, where the half point is still to come, past it (R336, R347). -/
def Xfer.run (x : Xfer) (n stop : Nat) : Nat :=
  let ok (k : Nat) : Bool :=
    decide (n + k < stop) && nextInLine (x.dst n) (x.dst (n + k)) k &&
    (match x.srcs n, x.srcs (n + k) with
      | [a], [b] => nextInLine a b k
      | [a, c], [b, d] => nextInLine a b k && nextInLine c d k
      | _, _ => true)
  ((List.range 64).takeWhile ok).length

/-- Where a channel's positions stop for now: at the half point while its interrupt is due. -/
def DmaCh.stop (h : DmaCh) : Nat :=
  let x := h.xfer
  if (dmaDesc h.desc).irqHalf && !h.half && h.pos ≤ x.half then x.half else x.total

/-- The D-space addresses of a run's source bytes. -/
def Xfer.runSrcs (x : Xfer) (n k : Nat) : List Int := ((List.range k).flatMap fun i => x.srcs (n + i)).eraseDups

/-- The slot of a D-space address: its core and slot; none in HBM (R301). -/
def slotAt (me : LCore) (a : Int) : Option (LCore × Nat) :=
  match target me (BitVec.ofInt 32 a) with
  | some (.loc k) => some (me, slotOf k)
  | some (.remote n k) => some (n, slotOf k)
  | _ => none

/-- The slots that a run uses: source slots, which must be FULL, then its destination slot, which must be
EMPTY (R301). -/
def DmaCh.slots (h : DmaCh) (me : LCore) (n k : Nat) : List DmaWait :=
  let x := h.xfer
  let src := (x.runSrcs n k).filterMap fun a => (slotAt me a).map fun q => (⟨q.1, q.2, true⟩ : DmaWait)
  let dst := if x.writes then
      (match slotAt me (x.dst n) with
        | some q => [(⟨q.1, q.2, false⟩ : DmaWait)]
        | none => [])
    else []
  (src ++ dst).eraseDups

/-- A slot's tag lets the access pass: it is raw, or FULL or EMPTY as the access needs, with no earlier
waiter for it to come first (R301, R302). -/
def State.slotOpen (s : State) (w : DmaWait) : Bool :=
  let k := s.core (s.tileOf w.core)
  !k.tagged w.slot || (k.full w.slot == w.full && !k.contested w.core w.slot)

/-- A slot's tag lets a waiter pass (R301). -/
def State.slotReady (s : State) (w : DmaWait) : Bool :=
  let k := s.core (s.tileOf w.core)
  !k.tagged w.slot || k.full w.slot == w.full

/-- No later position of the transfer uses the slot as source or destination (R301). -/
def DmaCh.lastUse (h : DmaCh) (me : LCore) (n k : Nat) (w : DmaWait) : Bool :=
  let x := h.xfer
  (List.range (x.total - (n + k))).all fun i =>
    let p := n + k + i
    if w.full then (x.srcs p).all fun a => slotAt me a != some (w.core, w.slot)
    else slotAt me (x.dst p) != some (w.core, w.slot)

/-- The DVA behind an address in a window of the command's copy. -/
def DmaCmd.dva (q : DmaCmd) (w : Fin 8) (off : Nat) : DWord :=
  (q.win.get w &&& 0xFFFFFFFFFFE00000) + BitVec.ofNat 64 off

/-- The outcome of one attempt to go on. -/
inductive Go where
  | ok (s : State)
  | fail (s : State) (status : Byte)
  | hold

/-- A read request sent for a line that is not local (R336): over the mesh, or to HBM. `tag` says of a tagged channel
whether it is the first read of its slot, and the last. -/
def State.dmaAsk (s : State) (me : LCore) (c : Fin 8) (q : DmaCmd) (line : Nat) (tag : Option (Bool × Bool)) : Go :=
  match target me (BitVec.ofNat 32 (64 * line)) with
  | some (.remote n a) =>
    .ok (s.sendMesh ⟨me, .dma c, q.func, n, match tag with
      | some (first, last) => .dmaRead line a 64 (slotOf a) first last
      | none => .read 0 line a 64 []⟩)
  | some (.hbm w off) =>
    match s.xlateShared q.func (q.dva w off) .dma false 0 with
    | (.ok dpa, s) =>
      .ok (s.sendHbm ⟨.dmaRead me c line, q.func, dpa, 64, none, (s.stackOf dpa).1, false⟩)
    | (.refused _, s) => .fail s 0x45
    | (.held _, _) => .hold
  | _ => .ok s

/-- The lines of a list of addresses that are not local. -/
def farLines (me : LCore) (l : List Int) : List Nat :=
  (l.filterMap fun a => match target me (BitVec.ofInt 32 a) with
    | some (.loc _) => none
    | none => none
    | _ => some (a.toNat / 64)).eraseDups

/-- The limits of R336: a request that is not local, with 16 of the engine or 32 of the core
outstanding. -/
def Core.dmaFull (k : Core) : Bool := decide (16 ≤ k.dmaFar) || decide (32 ≤ k.outstanding)

/-- The channel may move on: bytes are left, and it does not wait at its half point (R347). -/
def DmaCh.moving (h : DmaCh) : Bool :=
  (match h.run, h.phase with
    | .active, .moving => true
    | _, _ => false) && decide (h.pos < h.stop)

/-- The slots of a tagged channel's next run that it has not passed yet (R301). -/
def DmaCh.due (h : DmaCh) (me : LCore) : List DmaWait :=
  if (dmaDesc h.desc).tagged then
    (h.slots me h.pos (h.xfer.run h.pos h.stop)).filter fun w => !h.begun.contains (w.core, w.slot)
  else []

/-- The slot of the core's own that the next run has to wait for (R301, R351). At another core's slot the first access
itself waits, at its target (R304). -/
def State.dmaShut (s : State) (h : DmaCh) (me : LCore) : Option DmaWait :=
  (h.due me).find? fun w => w.core == me && !s.slotOpen w && h.granted != some w

/-- A channel waits for a slot's tag: the engine leaves it there, with its progress (R301, R334, R335). -/
def State.dmaWaits (s : State) (n : LCore) (c : Fin 8) (w : DmaWait) : State :=
  let t := s.tileOf n
  if ((s.core t).ch c).run == .active then
    (s.modCh t c fun h => { h with run := .waiting, wait := some w, since := s.time }).count (.dma t.val) 5 1
  else s

/-- The engine leaves a channel at a slot of its own core (R301, R334). -/
def State.dmaPark (s : State) (t : Tile) (me : LCore) (c : Fin 8) (w : DmaWait) : State :=
  (s.dmaWaits me c w).modCore t fun k => k.waitsOn (me, .dma c)

/-- The first accesses to these slots have passed. -/
def DmaCh.pass (h : DmaCh) (ws : List DmaWait) : DmaCh :=
  { h with begun := h.begun ++ (ws.map fun w => (w.core, w.slot)).filter fun p => !h.begun.contains p }

/-- The slot of another core that a line of a tagged channel's sources lies in, with whether its read is the first of the
slot, and whether it is the last, `rest` being the lines asked for after it (R301). -/
def DmaCh.lineTag (h : DmaCh) (me : LCore) (l : Nat) (rest : List Nat) : Option (DmaWait × Bool × Bool) :=
  if !(dmaDesc h.desc).tagged then none
  else match slotAt me (64 * l : Nat) with
  | none => none
  | some p =>
    if p.1 == me then none
    else
      let w : DmaWait := ⟨p.1, p.2, true⟩
      some (w, !h.begun.contains p, h.lastUse me h.pos (h.xfer.run h.pos h.stop) w &&
        rest.all fun m => slotAt me (64 * m : Nat) != some p)

/-- Lines asked for one after another, until a limit holds the rest, which is counted (R336), or until the first access to
a slot of another core has to come back. -/
def State.dmaAskAll (s : State) (t : Tile) (me : LCore) (c : Fin 8) (q : DmaCmd) : List Nat → State
  | [] => s
  | l :: ls =>
    if (s.core t).dmaFull then s.count (.dma t.val) 6 1
    else
      let tag := ((s.core t).ch c).lineTag me l ls
      match s.dmaAsk me c q l (tag.map (·.2)) with
      | .ok s =>
        let s := s.modCh t c fun h => { h with reads := h.reads ++ [(l, none)] }
        (match tag with
        | some (w, true, _) => s.modCh t c fun h => { h.pass [w] with first := some w }
        | _ => State.dmaAskAll s t me c q ls)
      | .fail s b => s.dmaFail t c b ((s.core t).ch c).pos
      | .hold => s

/-- The reads of a channel's next run asked for, those that are not asked for yet, once its slots let it pass; a paused
core asks for none (R301, R336, R352). -/
def State.dmaIssue (s : State) (t : Tile) (me : LCore) (c : Fin 8) : State :=
  let h := (s.core t).ch c
  match h.cur with
  | none => s
  | some q =>
    if !h.moving || s.frozen t || h.first.isSome then s
    else match s.dmaShut h me with
    | some w => s.dmaPark t me c w
    | none =>
      let need := farLines me (h.xfer.runSrcs h.pos (h.xfer.run h.pos h.stop))
      s.dmaAskAll t me c q (need.filter fun l => !h.reads.any fun r => r.1 == l)

/-- A source byte with its mark: from the banks, or from a line that has come. -/
def DmaCh.byte (h : DmaCh) (k : Core) (me : LCore) (a : Int) : Byte × Bool :=
  match target me (BitVec.ofInt 32 a) with
  | some (.loc p) => (k.byte p, k.marked p)
  | _ =>
    match h.reads.find? fun r => r.1 == a.toNat / 64 with
    | some (_, some (bs, ms)) => (byteAt bs (a.toNat % 64), listAt false ms (a.toNat % 64))
    | _ => (0, false)

/-- An address lies in the source extent as well, byte for byte: what is written there is undefined
(R337). -/
def DmaCh.overlaps (h : DmaCh) (a : Int) : Bool :=
  (dmaDesc h.desc).srcRuns.any fun r => decide (r.1 ≤ a) && decide (a < r.1 + r.2)

/-- A write request issued (R336): local, where it is performed as it is issued, in issue order among all channels
(R351); over the mesh; or to HBM. `last` says that it is the last to its slot in tagged mode. -/
def State.dmaWrite (s : State) (t : Tile) (me : LCore) (c : Fin 8) (q : DmaCmd) (n : Nat) (a : Int)
    (bs : List Byte) (last : Bool) : Go :=
  let sent := fun (s : State) => s.modCh t c fun h => { h with outs := h.outs ++ [(n, bs.length)] }
  match target me (BitVec.ofInt 32 a) with
  | some (.loc k) =>
    let old := (s.core t).bytes k bs.length
    .ok (((sent s).modCh t c fun h => { h with localWrites := h.localWrites ++ [(k, old, bs)] }).modCore t fun x =>
      let x := x.bankWrite k bs
      if last && x.tagged (slotOf k) then x.setTag (slotOf k) true else x)
  | some (.remote m k) =>
    let h := (s.core t).ch c
    let first := !h.begun.contains (m, slotOf k)
    let put (b : MeshBody) : State := (sent s).sendMesh ⟨me, .dma c, q.func, m, b⟩
    if !(dmaDesc h.desc).tagged then .ok (put (.write k (bs.map some) (BitVec.ofInt 32 a)))
    else
      let s := put (.dmaWrite k (bs.map some) (BitVec.ofInt 32 a) (slotOf k) first last)
      .ok (if first then s.modCh t c fun h => { h with first := some ⟨m, slotOf k, false⟩ } else s)
  | some (.hbm w off) =>
    match s.xlateShared q.func (q.dva w off) .dma true 0 with
    | (.ok dpa, s) =>
      .ok ((sent s).sendHbm ⟨.dmaWrite me c n, q.func, dpa, bs.length, some (bs.map some),
        (s.stackOf dpa).1, false⟩)
    | (.refused _, s) => .fail s 0x45
    | (.held _, _) => .hold
  | none => .ok s

/-- A tag set by the last read of a source slot of the core's own (R301). -/
def State.dmaEmpty (s : State) (w : DmaWait) : State :=
  s.modCore (s.tileOf w.core) fun k => if k.tagged w.slot then k.setTag w.slot false else k

/-- The line of a chain descriptor waits for its bank (R319, R321). -/
def State.lineHeld (s : State) (t : Tile) (h : DmaCh) : Bool :=
  match h.line with
  | some a => s.spanHeld t a 64
  | none => false

/-- Every position has been issued, and the half interrupt raised where there is one (R347). -/
def DmaCh.issued (h : DmaCh) : Bool :=
  decide (h.pos = h.xfer.total) && (!(dmaDesc h.desc).irqHalf || h.half)

/-- A transfer that writes nothing completes with its last byte, once its result can be written (R345). -/
def State.dmaFinish (s : State) (t : Tile) (c : Fin 8) : State :=
  let h := (s.core t).ch c
  if h.xfer.writes || !h.issued || s.lineHeld t h then s else s.dmaDone t c

/-- The engine goes on by one run of the ACTIVE channel (R335, R336, R338, R345): tags waited for, marks
tested, bytes transformed and written onward, unless a limit holds the write, which is counted. -/
def State.dmaAdvance (s : State) (t : Tile) (me : LCore) (c : Fin 8) : State :=
  let h := (s.core t).ch c
  match h.cur with
  | none => s
  | some q =>
    let d := dmaDesc h.desc
    let x := h.xfer
    let n := h.pos
    let k := x.run n h.stop
    let srcs := x.runSrcs n k
    if h.first.isSome then s
    else match s.dmaShut h me with
    | some w => s.dmaPark t me c w
    | none =>
      let locals := srcs.filterMap fun a => match target me (BitVec.ofInt 32 a) with
        | some (.loc p) => some p
        | _ => none
      let into : Option Nat := match target me (BitVec.ofInt 32 (x.dst n)) with
        | some (.loc p) => some p
        | _ => none
      let farWrite : Bool := x.writes && into.isNone
      let banks := locals ++ if x.writes then into.toList else []
      if (farLines me srcs).any fun l => !h.reads.any fun r => r.1 == l && r.2.isSome then s
      else if banks.any (s.bankHeld t) then s.portWait t banks
      else if (srcs.any fun a => (h.byte (s.core t) me a).2) then
        let words := ((locals.filter (s.core t).marked).map fun p => 8 * (p / 8)).eraseDups
        (words.foldl (fun s p => s.uncorrectable t p) s).dmaFail t c 0x46 n
      else if farWrite && (s.core t).dmaFull then s.count (.dma t.val) 6 1
      else
        let vals := (List.range k).map fun i =>
          let l := (x.srcs (n + i)).map fun a => (h.byte (s.core t) me a).1
          (x.out (n + i) l, l)
        let lasts := (if d.tagged then h.slots me n k else []).filter fun w => h.lastUse me n k w
        let s0 := s
        let bytes := (List.range k).map fun i =>
          if x.writes && h.overlaps (x.dst (n + i)) then Config.freeByte (s0.free + i)
          else (listAt (0, []) vals i).1
        let g : Go := if x.writes then s.dmaWrite t me c q n (x.dst n) bytes (lasts.any fun w => !w.full) else .ok s
        match g with
        | .hold => s
        | .fail s b => s.dmaFail t c b n
        | .ok s =>
          let s := { s with free := s.free + k }
          let s := (lasts.filter fun w => w.full && w.core == me).foldl (fun s w => s.dmaEmpty w) s
          let s := s.count (.dma t.val) 0 (x.freshReads n k)
          let miss := if x.writes then none else
            firstIdx k fun i => match (listAt (0, []) vals i).2 with
              | [a, b] => a != b
              | _ => false
          let s := s.modCh t c fun g => { g.pass (h.due me) with
            pos := n + k
            reads := []
            granted := none
            prog := if x.writes then g.prog else g.prog + BitVec.ofNat 32 k
            mismatch := match g.mismatch, miss with
              | none, some i => some (n + i)
              | m, _ => m
            cipher := if d.mode = 10 then g.cipher ++ vals.map fun v => byteAt v.2 0 else g.cipher }
          (s.dmaIssue t me c).dmaFinish t c

/-- The engine goes on with a channel that may move, unless its core is paused (R352). -/
def State.dmaPump (s : State) (t : Tile) (me : LCore) (c : Fin 8) : State :=
  if !((s.core t).ch c).moving || s.frozen t then s else s.dmaAdvance t me c

/-- FILL needs no read: it goes on by itself (R338). -/
def State.dmaFill (s : State) (t : Tile) (me : LCore) (c : Fin 8) : State :=
  if (dmaDesc ((s.core t).ch c).desc).mode = 1 then s.dmaPump t me c else s

/-- The channel whose descriptor the engine runs (R335). -/
def Core.dmaActive (k : Core) : Option (Fin 8) :=
  (List.finRange 8).find? fun c => (k.ch c).run == .active

/-- The READY channel of highest PRIO, the lowest number among equals (R335). -/
def Core.dmaNext (k : Core) : Option (Fin 8) :=
  [3, 2, 1, 0].findSome? fun p => (List.finRange 8).find? fun c =>
    (k.ch c).run == .ready && (fld (k.ch c).ctrl 4 2).toNat == p

/-- The engine selects a channel and starts or resumes its descriptor (R334, R335, R342, R349). -/
def State.dmaSelect (s : State) (t : Tile) (me : LCore) : State :=
  let k := s.core t
  match k.dmaActive, k.dmaNext with
  | none, some c =>
    let h := k.ch c
    match h.phase, h.cur with
    | .moving, some _ =>
      let s := s.modCh t c fun h => { h with run := .active }
      (s.dmaIssue t me c).dmaFill t me c
    | _, some q =>
      let go (raw : BitVec 512) : State :=
        let d := dmaDesc raw
        let key := s.modelKey q.func (d.p0.toNat % 256)
        let s := s.modCh t c fun h => { h with
          run := .active, phase := .moving, desc := raw, pos := 0, prog := 0, outs := [], reads := []
          localWrites := [], half := false, wait := none, granted := none, begun := [], first := none, mismatch := none
          cipher := [], key := key.getD 0, ctx := q.ctx, func := q.func }
        match d.check raw q me (q.src == .regs) key with
        | 0 => (s.dmaIssue t me c).dmaFill t me c
        | b => s.dmaFail t c b 0
      match h.line with
      | some a =>
        if !localOk a then s.dmaError t c 0x4C
        else if k.paused a (s.rmapBank t) then s.portWait t [a]
        else if (List.range 64).any fun i => k.marked (a + i) then
          (s.readMarks t a 64).dmaError t c 0x46
        else go (leVal 512 (k.bytes a 64))
      | none => go q.desc
    | _, none => s
  | _, _ => s

/-- A line read again: END and LINK taken from it (R342, R343). -/
def State.dmaReread (s : State) (t : Tile) (c : Fin 8) : State :=
  let k := s.core t
  let h := k.ch c
  let due := (h.run == .active && h.phase == .link) || (h.run == .parked && h.phase == .link)
  if !due then s
  else match h.line with
    | none => s
    | some a =>
      if k.paused a (s.rmapBank t) then s.portWait t [a]
      else if (List.range 64).any fun i => k.marked (a + i) then
        (s.readMarks t a 64).dmaError t c 0x46
      else
        let d := dmaDesc (leVal 512 (k.bytes a 64))
        if !d.last then s.dmaLink t c d.link
        else s.modCh t c fun h => { h with
          run := .parked
          phase := if h.dbpend then .link else .start
          dbpend := false }

/-! ### Commands (R328, R331 to R333, R343, R350) -/

/-- A command enters a channel (R326, R327, R332). -/
def State.dmaEnter (s : State) (t : Tile) (c : Fin 8) (q : DmaCmd) : State :=
  let h := (s.core t).ch c
  if h.run == .idle then
    s.modCh t c fun h => { h with
      cur := some q, run := .ready, phase := .start, dbpend := false, ctx := q.ctx, func := q.func
      line := if q.src == .chain then some q.addr else none }
  else s.modCh t c fun h => { h with pend := some q }

/-- START (R331): accepted on an IDLE channel of an enabled page; otherwise dropped and counted. -/
def State.dmaStart (s : State) (t : Tile) (c : Fin 8) (who : CtxId) (job : Option (BitVec 16)) : State :=
  let h := (s.core t).ch c
  let x := s.ctx t who
  if h.run == .idle && s.enabled (.dma t.val) then
    let chain := bit h.ctrl 3
    s.dmaEnter t c ⟨if chain then .chain else .regs, h.regsDesc, (h.link &&& 0xFFFFFFC0).toNat, who,
      x.func, x.hbmWin, job⟩
  else (s.count (.dma t.val) 7 1).raise (.dma t.val) 0x01000000

/-- Bytes of a request not yet acknowledged when its transfer is dropped: each is written or not, and
which is undefined (R350). -/
def freeMask (free : Nat) (l : List (Option Byte)) : List (Option Byte) :=
  (List.range l.length).map fun i => if Config.freeBool (free + i) then listAt none l i else none

/-- The tag wait of a channel dropped: on its way, parked at another core, or among the waiters of a core
(R304, R350). -/
def State.dropWait (s : State) (me : LCore) (c : Fin 8) : State :=
  let mine (r : MeshReq) : Bool := r.src == me && r.agent == .dma c && (match r.body with
    | .dmaRead _ _ _ _ first _ | .dmaWrite _ _ _ _ first _ => first
    | _ => false)
  { s with
    board := { s.board with
      mesh := s.board.mesh.filter fun r => !mine r
      retried := s.board.retried.filter fun r => !mine r }
    cores := s.cores.map fun k => { k with
      parked := k.parked.filter fun r => !mine r
      waiters := k.waiters.erase (me, .dma c) } }

/-- DISABLE (R350): of a local write that is not acknowledged yet each byte is put back to what it held, or not, as a free
value has it, unless another write has changed it since. DESIGN CHOICE: a matrix job whose output transfer is dropped completes with 0x4B, as R331 says of one that
ends in ERROR. -/
def State.dmaDisable (s : State) (t : Tile) (me : LCore) (c : Fin 8) : State :=
  let h := (s.core t).ch c
  if h.run == .idle then s
  else
    let mine (r : MeshReq) : Bool := r.src == me && r.agent == .dma c
    let s := if h.run == .waiting then s.dropWait me c else s
    let s := h.localWrites.reverse.foldl (fun s w =>
      let old := freeMask s.free (w.2.1.map some)
      let s := (List.range old.length).foldl (fun s i => match listAt none old i with
        | some b => if (s.core t).byte (w.1 + i) = listAt 0 w.2.2 i then s.bankPut t (w.1 + i) [b] else s
        | none => s) s
      { s with free := s.free + old.length }) s
    let base := s.free
    let mesh := s.board.mesh.map fun r =>
      if mine r then (match r.body with
        | .write a data i => { r with body := .write a (freeMask (base + 64 * a) data) i }
        | .dmaWrite a data i q f l => { r with body := .dmaWrite a (freeMask (base + 64 * a) data) i q f l }
        | _ => r) else r
    let queue := s.hbm.queue.map fun r =>
      match r.agent with
      | .dmaWrite l k _ => if l = me ∧ k = c then { r with data := r.data.map (freeMask (base + 64 * r.dpa)) } else r
      | _ => r
    let s := { s with
      board := { s.board with mesh := mesh }
      hbm := { s.hbm with queue := queue }
      free := base + 1 }
    let job := h.cur.bind (·.job)
    let s := s.modCh t c fun h => { h with
      run := .draining, cur := none, pend := none, dbpend := false, wait := none, granted := none
      outs := h.outs.drop h.localWrites.length, localWrites := [], reads := [], line := none, first := none
      status := 0x02, prog := Config.freeWord base }
    (s.outputEnd t job 0x4B).wakeQueue t (2 + c.val)

/-- RING (R343). -/
def State.dmaRing (s : State) (t : Tile) (c : Fin 8) : State :=
  s.modCh t c fun h =>
    let chain : Bool := match h.cur with
      | some q => q.src == .chain || (q.src == .copied && (h.line.isSome || !(dmaDesc q.desc).last))
      | none => false
    match h.run with
    | .parked => { h with phase := .link }
    | .ready | .active | .waiting => if chain then { h with dbpend := true } else h
    | _ => h

/-- Whether user level is kept from a channel that another function owns (R328). -/
def Env.dmaForeign (e : Env) (c : Fin 8) : Bool :=
  let h := e.core.ch c
  !e.x.priv && h.run != .idle && h.func != e.x.func

/-- `dma` and `dmac` (R332, R333): the channel is that of bits [2:0] of what the data register holds. -/
def semDmaCmd (e : Env) (chain : Bool) (d : BitVec 5) (m : MemAddr) : Res :=
  let r := e.x.lm m .word
  let a := r.1.toNat
  let c : Fin 8 := (fld (e.x.rd d) 0 3).toFin
  let h := e.core.ch c
  let cmd : DmaCmd := ⟨if chain then .chain else .copied, leVal 512 (e.core.bytes a 64), a, e.c, e.x.func,
    e.x.hbmWin, none⟩
  if e.dmaForeign c then e.exc 0x03 0
  else if !localOk a then e.exc 0x05 r.1
  else if a % 64 ≠ 0 then e.exc 0x06 r.1
  else if e.core.sbOwn e.c then .stall id
  else if e.core.paused a (e.s.rmapBank e.t) then e.portStall [a]
  else if !chain && !(e.core.markedWords a 64).isEmpty then .exc 0x0E r.1 false fun s => s.readMarks e.t a 64
  else if h.run == .error || h.run == .draining || !e.s.enabled (.dma e.t.val) then e.exc 0x12 r.1
  else if h.run != .idle && h.pend.isSome then .block 6 (.queue (2 + c.val)) id
  else .ok (fun s => s.dmaEnter e.t c cmd) .seq

/-- A write of DMA_CH_CTRL (R330, R331): DISABLE, START, RING in that order. -/
def State.dmaCtrl (s : State) (t : Tile) (me : LCore) (c : Fin 8) (who : CtxId) (v : Word) : State :=
  let idle := ((s.core t).ch c).run == .idle
  let s := if bit v 1 then s.dmaDisable t me c else s
  let s := if idle then s.modCh t c fun h => { h with ctrl := (v &&& 0x7FFF8).setWidth 19 } else s
  let s := if bit v 0 then
      if bit v 1 then (s.count (.dma t.val) 7 1).raise (.dma t.val) 0x01000000
      else s.dmaStart t c who none
    else s
  if bit v 2 then s.dmaRing t c else s

/-- DMA_CH_CTRL as it reads (R329). -/
def DmaCh.ctrlWord (h : DmaCh) : Word :=
  let st : Word := match h.run with
    | .idle => 0
    | .ready => 1
    | .active => 2
    | .waiting => 3
    | .parked => 4
    | .error => 5
    | .draining => 6
  h.ctrl.setWidth 32 ||| (st <<< 19) ||| (b2v 32 h.pend.isSome <<< 22) ||| (b2v 32 h.dbpend <<< 23) |||
    (h.status.setWidth 32 <<< 24)

/-- A register of a channel by its offset (R329). -/
def DmaCh.reg (h : DmaCh) (off : Nat) : Word :=
  match off with
  | 0x00 => h.src
  | 0x04 => h.dst
  | 0x08 => h.xcnt.setWidth 32
  | 0x0C => h.ycnt.setWidth 32
  | 0x10 => h.sstride
  | 0x14 => h.dstride
  | 0x18 => h.ctrlWord
  | _ => h.link

/-- A write to the other registers of a channel, ignored while it is not IDLE (R330). -/
def DmaCh.setReg (h : DmaCh) (off : Nat) (v : Word) : DmaCh :=
  if h.run != .idle then h
  else match off with
    | 0x00 => { h with src := v }
    | 0x04 => { h with dst := v }
    | 0x08 => { h with xcnt := v.setWidth 24 }
    | 0x0C => { h with ycnt := v.setWidth 16 }
    | 0x10 => { h with sstride := v }
    | 0x14 => { h with dstride := v }
    | 0x1C => { h with link := v }
    | _ => h

/-! ### Events -/

/-- The tile and logical core of a command that names a logical core. -/
abbrev CoreFn (α : Type) := LCore → State → α

/-- DMA_SELECT (R335). -/
def execDmaSelect (core : LCore) (s : State) : Host.Outcome State Fault Refusal :=
  let t := s.tileOf core
  .next (s.paced t (if s.frozen t then s else s.dmaSelect t core))

/-- The answers that carry data to a channel, put with its reads. -/
def State.dmaCollect (s : State) (t : Tile) (me : LCore) (c : Fin 8) : State :=
  let mine (r : MeshResp) : Bool := r.dst == me && r.agent == .dma c && (match r.ans with
    | .data .. => true
    | _ => false)
  let got := s.board.answers.filter mine
  let s := { s with board := { s.board with answers := s.board.answers.filter fun r => !mine r } }
  let put (r : Nat × Option (List Byte × List Bool)) : Nat × Option (List Byte × List Bool) :=
    let here := got.find? fun g => match g.ans with
      | .data _ pos _ _ => pos == r.1
      | _ => false
    match here with
    | some g => (match g.ans with
      | .data _ _ bs ms => (r.1, some (bs, ms))
      | _ => r)
    | none => r
  s.modCh t c fun h =>
    let reads := h.reads.map put
    { h with
      reads := reads
      first := match h.first with
        | some w => if w.full && reads.all fun r => r.2.isSome then none else h.first
        | none => none }

/-- DMA_READ_RETURN (R345): data of a read comes, is transformed and written onward; it is held while the core is paused
(R30). What a limit of R336 or a pause had
held goes on. -/
def State.dmaReadReturn (s : State) (core : LCore) : State :=
  let t := s.tileOf core
  if s.frozen t then s else
  match (s.core t).dmaActive with
  | some c =>
    let s := s.dmaCollect t core c
    let s := s.dmaIssue t core c
    (s.dmaPump t core c)
  | none => s

/-- DMA_READ_RETURN (R345), with the watch of the engine (R527). -/
def execDmaReadReturn (core : LCore) (s : State) : Host.Outcome State Fault Refusal :=
  .next (s.paced (s.tileOf core) (s.dmaReadReturn core))

/-- The first write to a slot of another core has come back with the last that was on its way. -/
def DmaCh.settled (h : DmaCh) : DmaCh :=
  { h with first := if h.outs.isEmpty then h.first.filter (·.full) else h.first }

/-- DMA_WRITE_ACK (R345, R349): the first write not yet acknowledged is performed, or has been refused
by its target. Those to one core are performed in issue order (R351), so the first is the one acknowledged; a memory
channel names the one it has performed. What is acknowledged has been written (R353). A refusal waits for a READY channel to be selected, for only an ACTIVE or a WAITING one goes to ERROR (R334). -/
def State.dmaWriteAck (s : State) (core : LCore) (ch : Fin 8) : State :=
  let t := s.tileOf core
  let h := (s.core t).ch ch
  let ack (s : State) (w : Nat × Nat) : State :=
    ((s.modCh t ch fun h => { h with
      outs := h.outs.erase w
      prog := h.prog + BitVec.ofNat 32 w.2 }).count (.dma t.val) 1 w.2).modCh t ch DmaCh.settled
  match h.localWrites with
  | _ :: rest => ((ack (s.modCh t ch fun h => { h with localWrites := rest }) (h.outs.headD (0, 0))).dmaFill t core ch)
  | [] =>
    let mine (r : MeshResp) : Bool := r.dst == core && r.agent == .dma ch && (match r.ans with
      | .data .. => false
      | _ => true)
    match s.board.answers.find? mine with
    | none => s
    | some r =>
      let old := s
      let s := { s with board := { s.board with answers := s.board.answers.erase r } }
      match r.ans with
      | .refused _ _ =>
        if h.run == .ready then old else
        let off := (h.outs.headD (0, 0)).1
        let s := s.modCh t ch fun h => ({ h with outs := h.outs.drop 1 }).settled
        let s := if h.run == .waiting then s.dropWait core ch else s
        (if h.run == .active || h.run == .waiting then s.dmaFail t ch 0x47 off else s)
      | .lost =>
        (if h.run == .waiting then s.dmaFail t ch 0x48 h.pos else s)
      | .landed pos => ((ack s ((h.outs.find? fun w => w.1 == pos).getD (0, 0))).dmaFill t core ch)
      | _ => ((ack s (h.outs.headD (0, 0))).dmaFill t core ch)

/-- DMA_WRITE_ACK (R345, R349), with the watch of the engine (R527). -/
def execDmaWriteAck (core : LCore) (ch : Fin 8) (s : State) : Host.Outcome State Fault Refusal :=
  .next (s.paced (s.tileOf core) (s.dmaWriteAck core ch))

/-- The local scratchpad overwritten with zeros from an address (R340). -/
def State.zeroLocal (s : State) (t : Tile) (a n : Nat) : State :=
  s.modCore t fun k => k.bankWrite a (List.replicate n 0)

/-- What the read of a DECRYPT's GCM tag comes to: not yet, a failure with its status, or whether it matches. -/
inductive TagRead where
  | hold
  | fail (s : State) (status : Byte)
  | read (s : State) (same : Bool)

/-- The GCM tag of a DECRYPT: the 16 bytes at SRC + XCNT, read as any source data (R340, R349). -/
def State.dmaTagRead (s : State) (q : DmaCmd) (me : LCore) (h : DmaCh) : TagRead :=
  let d := dmaDesc h.desc
  match target me (d.src + BitVec.ofNat 32 d.x) with
  | some (.hbm w off) =>
    (match s.xlateShared q.func (q.dva w off) .dma false 0 with
    | (.ok dpa, s) =>
      if s.hbmHeld q.func dpa 16 then .hold
      else if s.hbmAnyMark dpa 16 then .fail (s.hbmRead q.func dpa 16) 0x46
      else .read (s.hbmRead q.func dpa 16) (leVal 128 (s.hbmBytes dpa 16) == Config.gcmTag h.key d.iv [] h.cipher)
    | (.held _, _) => .hold
    | (.refused _, s) => .fail s 0x45)
  | _ => .fail s 0x45

/-- Where the destination of a DECRYPT lies in the core's own memories (R92, R340). -/
def DmaDesc.localDst (d : DmaDesc) (me : LCore) : Nat :=
  match target me d.dst with
  | some (.loc a) => a
  | _ => d.dst.toNat

/-- DMA_READBACK_DONE (R345): the last line of a transfer whose writes are all acknowledged reads
back; a COMPARE, which has no read-back, completes. DESIGN CHOICE: a GCM tag that cannot be read (0x45, 0x46) leaves the
destination as it was written, with OFFSET at its end: R340 zeroes it where the tag does not match. -/
def State.dmaReadback (s : State) (core : LCore) : State :=
  let t := s.tileOf core
  match (s.core t).dmaActive with
  | none => s
  | some c =>
    let h := (s.core t).ch c
    if h.phase == .moving && h.issued && h.outs.isEmpty && !s.frozen t && !s.lineHeld t h then
      let d := dmaDesc h.desc
      match h.cur with
      | some q =>
        if d.mode = 10 then
          if s.spanHeld t (d.localDst core) d.x then s.portWait t (linesOf (d.localDst core) d.x)
          else match s.dmaTagRead q core h with
          | .hold => s
          | .fail s b => (s.dmaFail t c b d.x)
          | .read s true => (s.dmaDone t c)
          | .read s false => ((s.zeroLocal t (d.localDst core) d.x).dmaFail t c 0x4A 0)
        else (s.dmaDone t c)
      | none => s
    else s

/-- DMA_READBACK_DONE (R345), with the watch of the engine (R527). -/
def execDmaReadbackDone (core : LCore) (s : State) : Host.Outcome State Fault Refusal :=
  .next (s.paced (s.tileOf core) (s.dmaReadback core))

/-- DMA_LINK_REREAD (R342). -/
def execDmaLinkReread (core : LCore) (ch : Fin 8) (s : State) : Host.Outcome State Fault Refusal :=
  .next (if s.frozen (s.tileOf core) then s else s.dmaReread (s.tileOf core) ch)

/-- DMA_HALF_POINT (R347). -/
def State.dmaHalfPoint (s : State) (core : LCore) : State :=
  let t := s.tileOf core
  match (s.core t).dmaActive with
  | none => s
  | some c =>
    let h := (s.core t).ch c
    if h.phase == .moving && (dmaDesc h.desc).irqHalf && !h.half && h.pos == h.xfer.half &&
        h.outs.isEmpty && !s.frozen t then
      let s := s.modCh t c fun h => { h with half := true }
      let s := (s.raise (.dma t.val) (BitVec.twoPow 32 (8 + c.val))).coreIrq t h.ctx (dmaIo c + 1)
      (((s.dmaIssue t core c).dmaFill t core c).dmaFinish t c)
    else s

/-- DMA_HALF_POINT (R347), with the watch of the engine (R527). -/
def execDmaHalfPoint (core : LCore) (s : State) : Host.Outcome State Fault Refusal :=
  .next (s.paced (s.tileOf core) (s.dmaHalfPoint core))

/-- A write of the channel waits at its target for a slot's tag: it is a remote tagged access, bounded by the tag wait
(R304, R351). -/
def DmaCh.writeWaits (h : DmaCh) : Bool :=
  h.run == .waiting && decide (h.outs.length = 1) && match h.first with
    | some w => !w.full
    | none => false

/-- DMA_WRITE_TIMEOUT (R334, R349): 1 ms has passed since a write was issued; a READY channel fails once it is
selected. -/
def execDmaWriteTimeout (core : LCore) (ch : Fin 8) (s : State) : Host.Outcome State Fault Refusal :=
  let t := s.tileOf core
  let h := (s.core t).ch ch
  .next (match h.outs with
    | (p, _) :: _ =>
      if h.writeWaits then s else
      let s := if h.run == .waiting then s.dropWait core ch else s
      if h.run == .active || h.run == .waiting then s.dmaFail t ch 0x4B p else s
    | [] => s)

/-- DMA_DRAIN_END (R350): the channel becomes IDLE; a request of the dropped transfer that is still on
its way no longer lands. -/
def execDmaDrainEnd (core : LCore) (ch : Fin 8) (s : State) : Host.Outcome State Fault Refusal :=
  let t := s.tileOf core
  let h := (s.core t).ch ch
  if h.run == .draining then
    let mineA (a : Agent) : Bool := a == .dma ch
    let s := { s with
      board := { s.board with
        mesh := s.board.mesh.filter fun r => !(r.src == core && mineA r.agent)
        retried := s.board.retried.filter fun r => !(r.src == core && mineA r.agent)
        answers := s.board.answers.filter fun r => !(r.dst == core && mineA r.agent) }
      hbm := { s.hbm with queue := s.hbm.queue.filter fun r => match r.agent with
        | .dmaRead l k _ | .dmaWrite l k _ => !(l == core && k == ch)
        | _ => true } }
    .next (s.modCh t ch fun h => { h with run := .idle, outs := [] })
  else .next s

end Sys2Proof.Machine
end

