-- ==== Sys2Proof/Machine/Sync.lean ====
section
/-! DEFINITION. The synchronisation block (R379 to R390): objects, waits and gates, refusals, and the
answers to contexts. -/

namespace Sys2Proof.Machine

/-! ### Descriptors (R364) -/

/-- The fields of a ring descriptor. -/
structure RingDesc where
  type : Nat
  waiten : Bool
  sigen : Bool
  noreplay : Bool
  dlen : Bool
  seq : Word
  coreMask : Word
  entry : BitVec 20
  arg : DWord
  waitObj : BitVec 13
  sigObj : BitVec 13
  sigAdd : Word
  waitVal : DWord
  wtimeout : Word
  tag : Word
  deadline : DWord
  rsv : Bool

/-- A descriptor's fields read; `rsv` says that some RSV field is not 0. -/
def ringDesc (d : BitVec 512) : RingDesc where
  type := (fld d 0 2).toNat
  waiten := bit d 2
  sigen := bit d 3
  noreplay := bit d 4
  dlen := bit d 5
  seq := fld d 32 32
  coreMask := fld d 64 32
  entry := fld d 96 20
  arg := fld d 128 64
  waitObj := fld d 192 13
  sigObj := fld d 208 13
  sigAdd := fld d 224 32
  waitVal := fld d 256 64
  wtimeout := fld d 320 32
  tag := fld d 352 32
  deadline := fld d 384 64
  rsv := fld d 6 26 != 0 || fld d 116 12 != 0 || fld d 205 3 != 0 || fld d 221 3 != 0

/-! ### Objects -/

/-- The value of an object. -/
def State.obj (s : State) (o : BitVec 13) : DWord := Tab.get 0 s.sync.objs o.toNat

/-- The block changed. -/
def State.modSync (s : State) (f : SyncBlock → SyncBlock) : State := { s with sync := f s.sync }

/-- An object set. -/
def State.setObj (s : State) (o : BitVec 13) (v : DWord) : State :=
  s.modSync fun b => { b with objs := Tab.set 0 b.objs o.toNat v }

/-- The waiter slot of a context (R384). -/
def ctxSlot (lc : LCore) (c : CtxId) : Nat := 4 * lc.val + c.val

/-- The lowest free gate slot (R384). -/
def SyncBlock.freeGate (b : SyncBlock) : Option Nat :=
  (firstIdx 896 fun i => (Tab.get none b.slots (128 + i)).isNone).map (128 + ·)

/-- The slots in use by gates (R389) and by all (R390). -/
def SyncBlock.gates (b : SyncBlock) : Nat := (b.slots.filter fun e => e.2.isSome && decide (128 ≤ e.1)).length

/-- Waiter slots in use. -/
def SyncBlock.waiters (b : SyncBlock) : Nat := (b.slots.filter fun e => e.2.isSome).length

/-- A tracked job past its gate: ready for a core (R365). -/
def State.gatePassed (s : State) (entry : Nat) : State :=
  { s with disp := { s.disp with
      track := Tab.mod none s.disp.track entry fun j => j.map fun j => { j with stage := .ready } } }

/-- A waiter released from its slot: a context is answered, a gate is passed (R384). -/
def State.releaseSlot (s : State) (i : Nat) : State :=
  match Tab.get none s.sync.slots i with
  | none => s
  | some w =>
    let s := s.modSync fun b => { b with slots := Tab.set none b.slots i none }
    let s := s.count .sync 2 1
    match w.who with
    | .gate entry => s.gatePassed entry
    | .ctx lc c =>
      let op := match (s.ctx (s.tileOf lc) c).wait with
        | .sync op _ _ => op
        | _ => 0
      s.modSync fun b => { b with answers := b.answers ++ [⟨lc, c, op, s.obj w.obj, true⟩] }

/-- After a change, every waiter whose threshold the value meets is released, in slot order (R384). -/
def State.releaseWaiters (s : State) (o : BitVec 13) : State :=
  let due := s.sync.slots.filterMap fun e =>
    match e.2 with
    | some w => if w.obj == o && decide (w.thr.toNat ≤ (s.obj o).toNat) then some e.1 else none
    | none => none
  due.foldl State.releaseSlot s

/-- SYNC_REF_INFO.SRC (R390). -/
def SyncSrc.code : SyncSrc → BitVec 3
  | .host => 0
  | .ctx .. => 1
  | .dma => 2
  | .matrix => 3
  | .stripe => 4
  | .dispatcher => 5
  | .peer => 6

/-- A refused operation recorded (R386). -/
def State.syncRefuse (s : State) (src : SyncSrc) (f : Func) (o : BitVec 13) : State :=
  let info : Word := o.setWidth 32 ||| (BitVec.ofNat 32 f.val <<< 13) ||| (src.code.setWidth 32 <<< 17)
  (((s.modSync fun b => { b with refInfo := info }).count .sync 1 1).raise .sync 1).log
    { cls := 3, code := 0, page := .sync, func := f }

/-- The bank must find the object allocated to the function: of every source but a context, whose core
has checked it, and the host, whose page has (R383, R386, R387). -/
def SyncSrc.checked : SyncSrc → Bool
  | .ctx .. | .host => false
  | _ => true

/-- A bank's answer to the context that asked. -/
def State.syncAnswer (s : State) (src : SyncSrc) (value : DWord) (ok : Bool) : State :=
  match src with
  | .ctx lc c op => s.modSync fun b => { b with answers := b.answers ++ [⟨lc, c, op, value, ok⟩] }
  | _ => s

/-- An operation applied at its bank (R381, R384, R386). -/
def State.syncApply (s : State) (r : SyncReq) : State :=
  if r.src.checked && s.syncOwner r.obj != some r.func then s.syncRefuse r.src r.func r.obj
  else
    let v := s.obj r.obj
    let s := s.count .sync 0 1
    match r.op with
    | .add a => (s.setObj r.obj (v + a)).releaseWaiters r.obj
    | .set a => (s.setObj r.obj a).releaseWaiters r.obj
    | .cas e a =>
      if v = e then ((s.setObj r.obj a).releaseWaiters r.obj).syncAnswer r.src v true
      else s.syncAnswer r.src v false
    | .read => s.syncAnswer r.src v true
    | .wait t =>
      if t.toNat ≤ v.toNat then s.syncAnswer r.src v true
      else match r.src with
        | .ctx lc c _ => s.modSync fun b =>
            { b with slots := Tab.set none b.slots (ctxSlot lc c) (some ⟨.ctx lc c, r.obj, t⟩) }
        | _ => s

/-- Everything the block holds for a context dropped: its slot, its requests and its answers. -/
def SyncBlock.forget (b : SyncBlock) (lc : LCore) (c : CtxId) : SyncBlock :=
  { b with
    slots := Tab.set none b.slots (ctxSlot lc c) none
    queue := b.queue.filter fun r => match r.src with
      | .ctx l k _ => !(l == lc && k == c && (match r.op with
        | .add _ | .set _ => false
        | _ => true))
      | _ => true
    answers := b.answers.filter fun a => !(a.lc == lc && a.c == c) }

/-- The gates of a tracking entry dropped. -/
def SyncBlock.dropGate (b : SyncBlock) (entry : Nat) : SyncBlock :=
  { b with slots := b.slots.filter fun e => match e.2 with
      | some w => w.who != .gate entry
      | none => true }

/-- What a blocking operation of a bundle has returned, kept by its place: the low word at the place,
further words above (R303, R311, R383). -/
def Ctx.keepDone (x : Ctx) (pos : Nat) (vals : List Word) : Ctx :=
  { x with done := x.done ++ (List.range vals.length).map fun i => (pos + 32 * i, listAt 0 vals i) }

/-- SYNC_REPLY (R383): the answer to a blocking form arrives, and the context becomes READY. It is held while the core is
paused, as every packet to it is (R30). -/
def execSyncReply (core : LCore) (ctx : CtxId) (s : State) : Host.Outcome State Fault Refusal :=
  let mine (a : SyncAns) : Bool := a.lc == core && a.c == ctx
  if s.frozen (s.tileOf core) then .next s else
  match s.sync.answers.find? mine with
  | none => .next s
  | some a =>
    let s := s.modSync fun b => { b with answers := b.answers.eraseP mine }
    let t := s.tileOf core
    match (s.ctx t ctx).wait with
    | .sync op _ _ =>
      .next ((s.modCtx t ctx fun x =>
        x.keepDone op [a.value.setWidth 32, (a.value >>> 32).setWidth 32, b2v 32 a.ok]).wake t ctx)
    | _ => .next s

/-- The job that a context of a core holds. -/
def State.jobOn (s : State) (n : LCore) (c : CtxId) : Option CoreJob :=
  (s.disp.jobs.get n).find? fun j => j.ctx == some c

/-- The bound of a wait in µs: the WTIMEOUT of a job, or DISP_WTIMEOUT where that is 0 (R365, R385). -/
def State.waitBound (s : State) (j : Option Job) : Nat :=
  match j with
  | some j =>
    let w := (ringDesc j.desc).wtimeout
    if w = 0 then (fld (s.live .disp 0x080) 0 24).toNat else w.toNat
  | none => (fld (s.live .disp 0x080) 0 24).toNat

/-- SYNC_TIMEOUT (R385): the bound of a wait is reached, from its start. A wait that the block has released completes;
any other is cancelled, and its exception becomes pending. -/
def execSyncTimeout (core : LCore) (ctx : CtxId) (s : State) : Host.Outcome State Fault Refusal :=
  let t := s.tileOf core
  match (s.ctx t ctx).wait with
  | .sync _ obj (some since) =>
    if !s.passed since (s.waitBound ((s.jobOn core ctx).map (·.job))) then .next s
    else if s.sync.answers.any fun a => a.lc == core && a.c == ctx then execSyncReply core ctx s
    else
      let s := s.modSync fun b => b.forget core ctx
      let s := s.count .sync 3 1
      .next ((s.modCtx t ctx fun x => { x with fault := some (0x0A, obj.setWidth 32) }).wake t ctx)
  | _ => .next s

/-- The object of a SYNC object page. -/
def pageObj (k j : Nat) : BitVec 13 := BitVec.ofNat 13 (128 * k + j)

/-- A host write of SYNC_VALUE, SYNC_ADDV or GO reaches the block: from PF0, firmware or the owner; any
other function's is refused and recorded (R386, R387). -/
def State.hostSync (s : State) (w : Who) (obj : BitVec 13) (op : SyncOp) : State :=
  match w with
  | .firmware => s.sendSync ⟨.host, 0, obj, op⟩
  | .func f =>
    if !s.barOpen f || s.inBoot then s
    else if f = 0 ∨ s.syncOwner obj = some f then s.sendSync ⟨.host, f, obj, op⟩
    else s.syncRefuse .host f obj

/-- The operand of a write to SYNC_VALUE or SYNC_ADDV: 8 bytes whole, 4 bytes of the low word extended;
other writes are dropped (R45, R387). -/
def syncData (size : AccSize) (high : Bool) (data : DWord) : Option DWord :=
  match size, high with
  | .b8, false => some data
  | .b4, false => some (data &&& 0xFFFFFFFF)
  | _, _ => none

/-- SYNC_VALUE_WRITE (R387). -/
def execSyncValueWrite (w : Who) (obj : BitVec 13) (size : AccSize) (high : Bool) (data : DWord)
    (s : State) : Host.Outcome State Fault Refusal :=
  match syncData size high data with
  | some v => .next (s.hostSync w obj (.set v))
  | none => .next s

/-- SYNC_ADDV_WRITE (R387). -/
def execSyncAddvWrite (w : Who) (obj : BitVec 13) (size : AccSize) (high : Bool) (data : DWord)
    (s : State) : Host.Outcome State Fault Refusal :=
  match syncData size high data with
  | some v => .next (s.hostSync w obj (.add v))
  | none => .next s

/-- The host operations of an accessor's function that are on their way are applied: its next read or
compare-and-swap comes after them (R387). -/
def State.hostArrive (s : State) (w : Who) : State :=
  let f : Func := match w with
    | .func f => f
    | .firmware => 0
  let mine (r : SyncReq) : Bool := r.src == .host && r.func == f
  (s.sync.queue.filter mine).foldl State.syncApply
    (s.modSync fun b => { b with queue := b.queue.filter fun r => !mine r })

/-- SYNC_CAS_GO (R387): the page's compare-and-swap is performed with EXP and NEW, and its result
registers show it. -/
def State.syncCas (s : State) (w : Who) (k j : Nat) : State :=
  let c := PageClass.syncObj k
  let o := pageObj k j
  let dw (off : Nat) : DWord :=
    (s.staged c off).setWidth 64 ||| ((s.staged c (off + 4)).setWidth 64 <<< 32)
  let go (s : State) : State :=
    let s := s.hostArrive w
    let v := s.obj o
    let hit := v == dw 0x048
    let s := s.count .sync 0 1
    let s := if hit then (s.setObj o (dw 0x050)).releaseWaiters o else s
    s.modSync fun b => { b with cas := Tab.set {} b.cas k ⟨true, hit, v⟩ }
  match w with
  | .firmware => go s
  | .func f =>
    if !s.barOpen f || s.inBoot then s
    else if f = 0 ∨ s.syncOwner o = some f then go s
    else s.syncRefuse .host f o

/-! ### The commit of SYNC_ALLOC (R390) -/

/-- A staged SYNC_ALLOC entry. -/
def State.syncStaged (s : State) (f : Func) : Nat × Nat :=
  let w := s.staged .sync (0x40 + 4 * f.val)
  ((fld w 0 6).toNat, (fld w 6 7).toNat)

/-- The owner of an object under the staged table. -/
def State.stagedOwner (s : State) (o : Nat) : Option Func :=
  (List.finRange 16).find? fun f =>
    let a := s.syncStaged f
    decide (a.1 ≤ o / 128) && decide (o / 128 < a.1 + a.2)

/-- An object on which a waiter or gate waits: a slot, a request for a wait, or a gate without a slot. -/
def State.waitedObjs (s : State) : List (BitVec 13) :=
  (s.sync.slots.filterMap fun e => e.2.map (·.obj)) ++
  (s.sync.queue.filterMap fun r => match r.op with
    | .wait _ => some r.obj
    | _ => none) ++
  (s.disp.track.filterMap fun e => match e.2 with
    | some j => if j.stage == .gate then some (fld j.desc (8 * 0x18) 13) else none
    | none => none)

/-- The refusal code of the commit; 0 where it passes. -/
def State.syncCheck (s : State) : Byte :=
  let e (f : Func) := s.syncStaged f
  let clash (f g : Func) : Bool :=
    f != g && decide ((e f).1 < (e g).1 + (e g).2) && decide ((e g).1 < (e f).1 + (e f).2) &&
      (e f).2 != 0 && (e g).2 != 0
  let fs := List.finRange 16
  if (s.page (pageNo .sync)).lock then 0x07
  else if fs.any fun f => decide (64 < (e f).1 + (e f).2) then 0x02
  else if fs.any (fun f => fs.any fun g => clash f g) then 0x04
  else if s.waitedObjs.any fun o => s.syncOwner o != s.stagedOwner o.toNat then 0x40
  else 0

/-- A passing commit: the table is live at once, in every core's copy too; an object whose owner changes
is set to 0 (R380, R383). The operations on such objects that are on their way reach them before, as their old owner's. -/
def State.syncCommit (s : State) : State :=
  let keep (o : Nat) : Bool := s.syncOwner (BitVec.ofNat 13 o) == s.stagedOwner o
  let s := (s.sync.queue.filter fun r => !keep r.obj.toNat).foldl State.syncApply
    (s.modSync fun b => { b with queue := b.queue.filter fun r => keep r.obj.toNat })
  let staged := (s.page (pageNo .sync)).staged
  let s := s.modSync fun b => { b with objs := b.objs.filter fun e => keep e.1 }
  s.modPage (pageNo .sync) fun p => { p with
    live := (List.range 16).foldl (fun l f => Tab.set 0 l (0x40 + 4 * f) (Tab.get 0 staged (0x40 + 4 * f)))
      p.live }

end Sys2Proof.Machine
end

