-- ==== Sys2Proof/Machine/Float.lean ====
section
/-! DEFINITION. Floating point by exact arithmetic and one rounding (R13, R162, R165): FP32, BF16, FP16
and the OCP 8-bit formats. -/

namespace Sys2Proof.Machine

/-- A floating-point value: NaN, an infinity, or ±m × 2^e exactly (a zero keeps its sign). -/
inductive Fp where
  | nan
  | inf (neg : Bool)
  | fin (neg : Bool) (m : Nat) (e : Int)
  deriving DecidableEq, Repr

/-- A format: exponent and fraction bits. -/
structure Fmt where
  eb : Nat
  mb : Nat
  deriving DecidableEq, Repr

/-- binary32. -/
def fp32 : Fmt := ⟨8, 23⟩

/-- BF16: binary32 truncated to 16 bits (R165). -/
def bf16 : Fmt := ⟨8, 7⟩

/-- binary16. -/
def fp16 : Fmt := ⟨5, 10⟩

/-- OCP E5M2. -/
def e5m2 : Fmt := ⟨5, 2⟩

/-- OCP E4M3, whose top exponent holds numbers but for one NaN pattern. -/
def e4m3 : Fmt := ⟨4, 3⟩

/-- The exponent of the smallest normal number. -/
def Fmt.emin (f : Fmt) : Int := 2 - 2 ^ (f.eb - 1)

/-- The bits of all-ones exponent and zero fraction: infinity. -/
def Fmt.infBits (f : Fmt) : Nat := (2 ^ f.eb - 1) * 2 ^ f.mb

/-- The sign bit's weight. -/
def Fmt.signBit (f : Fmt) : Nat := 2 ^ (f.eb + f.mb)

/-- The magnitude of biased exponent `ex` and fraction `fr`. -/
def Fmt.number (f : Fmt) (neg : Bool) (ex fr : Nat) : Fp :=
  if ex = 0 then .fin neg fr (f.emin - f.mb)
  else .fin neg (2 ^ f.mb + fr) (f.emin - f.mb + (ex - 1))

/-- The value of a pattern of an IEEE format. -/
def Fmt.unpack (f : Fmt) (v : Nat) : Fp :=
  let neg := v / f.signBit % 2 = 1
  let ex := v / 2 ^ f.mb % 2 ^ f.eb
  let fr := v % 2 ^ f.mb
  if ex = 2 ^ f.eb - 1 then if fr = 0 then .inf neg else .nan else f.number neg ex fr

/-- The value of an E4M3 pattern: no infinities, one NaN magnitude (R162). -/
def unpackE4 (v : Nat) : Fp :=
  if v % 128 = 127 then .nan else e4m3.number (decide (v / 128 % 2 = 1)) (v / 8 % 16) (v % 8)

/-- The number of bits of a magnitude. -/
def bitLen (m : Nat) : Nat := if m = 0 then 0 else Nat.log2 m + 1

/-- The magnitude m × 2^e rounded to nearest, ties to even, in a format with unbounded exponent above:
the pattern without its sign; it may reach or pass the infinity pattern. -/
def Fmt.round (f : Fmt) (m : Nat) (e : Int) : Nat :=
  if m = 0 then 0 else
  let top : Int := e + (bitLen m : Int) - 1
  let q : Int := max top f.emin - f.mb
  let r : Int := if q ≤ e then (m : Int) * 2 ^ (e - q).toNat else rneShift m (q - e).toNat
  ((q - (f.emin - f.mb)) * 2 ^ f.mb + r).toNat

/-- The canonical quiet NaN of a format (R165). -/
def Fmt.qnan (f : Fmt) : Nat := f.infBits + 2 ^ (f.mb - 1)

/-- A value rounded to an IEEE format: overflow gives an infinity. -/
def Fmt.pack (f : Fmt) (x : Fp) : Nat :=
  match x with
  | .nan => f.qnan
  | .inf neg => b2n neg * f.signBit + f.infBits
  | .fin neg m e => b2n neg * f.signBit + min (f.round m e) f.infBits

/-- A value rounded to an 8-bit format that saturates at `top`, infinities included; NaN gives 0x7F
(R162). -/
def packSat (f : Fmt) (top : Nat) (x : Fp) : Nat :=
  match x with
  | .nan => 0x7F
  | .inf neg => b2n neg * f.signBit + top
  | .fin neg m e => b2n neg * f.signBit + min (f.round m e) top

/-- FP32 to E4M3: ±448 is pattern 0x7E (R162). -/
def packE4 (x : Fp) : Nat := packSat e4m3 0x7E x

/-- FP32 to E5M2: ±57,344 is pattern 0x7B (R162). -/
def packE5 (x : Fp) : Nat := packSat e5m2 0x7B x

/-- The signed mantissa of m × 2^e at exponent `q ≤ e`. -/
def sigAt (neg : Bool) (m : Nat) (e q : Int) : Int :=
  let v : Int := m * 2 ^ (e - q).toNat
  if neg then -v else v

/-- A sum without rounding. -/
def Fp.add (a b : Fp) : Fp :=
  match a, b with
  | .nan, _ => .nan
  | _, .nan => .nan
  | .inf p, .inf q => if p = q then .inf p else .nan
  | .inf p, _ => .inf p
  | _, .inf q => .inf q
  | .fin na ma ea, .fin nb mb eb =>
    if ma = 0 ∧ mb = 0 then .fin (na && nb) 0 0
    else
      let q := min ea eb
      let s := sigAt na ma ea q + sigAt nb mb eb q
      if s = 0 then .fin false 0 0 else .fin (decide (s < 0)) s.natAbs q

/-- The negated value. -/
def Fp.neg : Fp → Fp
  | .nan => .nan
  | .inf n => .inf !n
  | .fin n m e => .fin (!n) m e

/-- A product without rounding. -/
def Fp.mul (a b : Fp) : Fp :=
  match a, b with
  | .nan, _ => .nan
  | _, .nan => .nan
  | .inf p, .inf q => .inf (p ^^ q)
  | .inf p, .fin q m _ => if m = 0 then .nan else .inf (p ^^ q)
  | .fin p m _, .inf q => if m = 0 then .nan else .inf (p ^^ q)
  | .fin p m e, .fin q n g => .fin (p ^^ q) (m * n) (e + g)

/-- The value is NaN. -/
def Fp.isNan : Fp → Bool
  | .nan => true
  | _ => false

/-- Ordering of two numbers, −0 equal to +0: negative, zero or positive for less, equal, greater. -/
def Fp.cmp (a b : Fp) : Int :=
  match a, b with
  | .nan, _ => 0
  | _, .nan => 0
  | .inf p, .inf q => if p = q then 0 else if p then -1 else 1
  | .inf p, _ => if p then -1 else 1
  | _, .inf q => if q then 1 else -1
  | .fin na ma ea, .fin nb mb eb =>
    let q := min ea eb
    sigAt na ma ea q - sigAt nb mb eb q

/-- The sign of a value. -/
def Fp.isNeg : Fp → Bool
  | .nan => false
  | .inf n => n
  | .fin n _ _ => n

/-- a < b, with −0.0 less than +0.0 (R165). -/
def Fp.below (a b : Fp) : Bool :=
  if a.cmp b < 0 then true else if 0 < a.cmp b then false else a.isNeg && !b.isNeg

/-- The minimum: the operand that is not a NaN when only one is (R165). -/
def Fp.min (a b : Fp) : Fp :=
  if a.isNan then b else if b.isNan then a else if b.below a then b else a

/-- The maximum. -/
def Fp.max (a b : Fp) : Fp :=
  if a.isNan then b else if b.isNan then a else if a.below b then b else a

/-- The magnitude. -/
def Fp.abs : Fp → Fp
  | .nan => .nan
  | .inf _ => .inf false
  | .fin _ m e => .fin false m e

/-- The nearest integer, ties to even; NaN gives 0 and infinities the bounds. -/
def Fp.toInt (x : Fp) (lo hi : Int) : Int :=
  match x with
  | .nan => 0
  | .inf n => if n then lo else hi
  | .fin n m e =>
    let v : Int := if 0 ≤ e then m * 2 ^ e.toNat else rneShift m (-e).toNat
    sat lo hi (if n then -v else v)

/-- A quotient, exact to more bits than any format holds, with a sticky bit below them (R224). -/
def Fp.div (a b : Fp) : Fp :=
  match a, b with
  | .nan, _ => .nan
  | _, .nan => .nan
  | .inf _, .inf _ => .nan
  | .inf p, .fin q _ _ => .inf (p ^^ q)
  | .fin p _ _, .inf q => .fin (p ^^ q) 0 0
  | .fin p m e, .fin q n g =>
    if n = 0 then (if m = 0 then .nan else .inf (p ^^ q))
    else
      let k := 64 + bitLen n
      let x := m * 2 ^ k
      .fin (p ^^ q) (2 * (x / n) + (if x % n = 0 then 0 else 1)) (e - g - k - 1)

/-- FP32 operations on patterns, with one rounding (R224). -/
def f32 (v : Word) : Fp := fp32.unpack v.toNat

/-- A value rounded to an FP32 pattern. -/
def toF32 (x : Fp) : Word := BitVec.ofNat 32 (fp32.pack x)

/-- The FP32 sum. -/
def fadd (a b : Word) : Word := toF32 ((f32 a).add (f32 b))

/-- The FP32 product. -/
def fmul (a b : Word) : Word := toF32 ((f32 a).mul (f32 b))

/-- The FP32 quotient. -/
def fdiv (a b : Word) : Word := toF32 ((f32 a).div (f32 b))

/-- The FP32 fused multiply-add a × b + c. -/
def ffma (a b c : Word) : Word := toF32 (((f32 a).mul (f32 b)).add (f32 c))

/-- a < b on FP32 patterns; false with a NaN. -/
def flt (a b : Word) : Bool := !(f32 a).isNan && !(f32 b).isNan && decide ((f32 a).cmp (f32 b) < 0)

/-- An integer as a value. -/
def Fp.ofInt (i : Int) : Fp := .fin (decide (i < 0)) i.natAbs 0

/-- An integer rounded to FP32. -/
def fofInt (i : Int) : Word := toF32 (Fp.ofInt i)

end Sys2Proof.Machine
end

