-- ==== Sys2Proof/Machine/Tracker.lean ====
section
/-! DEFINITION. Scale trackers (R224 to R238). -/

namespace Sys2Proof.Machine

/-- The tracker with a number. -/
def Mtx.tracker (x : Mtx) (i : Nat) : Tracker := Tab.get {} x.trk i

/-- A tracker changed. -/
def Mtx.modTracker (x : Mtx) (i : Nat) (f : Tracker → Tracker) : Mtx :=
  { x with trk := Tab.mod {} x.trk i f }

/-- clamp: from 2^−126 to 0x7F7F_FFFF; a NaN, a negative value or zero gives 2^−126 (R226). -/
def trkClamp (v : Word) : Word :=
  if (f32 v).isNan || bit v 31 || v == 0 then 0x00800000
  else if v.toNat < 0x00800000 then 0x00800000
  else if 0x7F7FFFFF < v.toNat then 0x7F7FFFFF
  else v

/-- A scale stored, with its reciprocal (R226). -/
def Tracker.setScale (x : Tracker) (v : Word) : Tracker :=
  let c := trkClamp v
  { x with scale := c, inv := fdiv 0x3F800000 c }

/-- An INIT that is not a positive finite number is used as 1.0 (R226). -/
def Tracker.initUsed (x : Tracker) : Word :=
  if bit x.init 31 || x.init == 0 || 0x7F800000 ≤ x.init.toNat then 0x3F800000 else x.init

/-- qmax of an output format: INT8, UINT8, E4M3, E5M2 (R225). -/
def qmax (qfmt : Nat) : Word :=
  match qfmt with
  | 0 => 0x42FE0000
  | 1 => 0x437F0000
  | 2 => 0x43E00000
  | _ => 0x47600000

/-- QFMT. -/
def Tracker.qfmt (x : Tracker) : Nat := (fld x.cfg 4 2).toNat

/-- The new boost level at a step close (R229). -/
def Tracker.boostNext (x : Tracker) : Nat :=
  let thr := (fld x.thr 0 16).toNat
  if thr * x.curCount.toNat < x.curClip.toNat * 65536 then
    min (x.boost.toNat + 1) (fld x.cfg 28 2).toNat
  else if x.curClip = 0 ∧ 0 < x.boost.toNat then x.boost.toNat - 1
  else x.boost.toNat

/-- A step closes (R229). -/
def Tracker.close (x : Tracker) : Tracker :=
  let x := if x.curCount = 0 then x else
    let top : Word := if flt 0x7F7FFFFF x.curMax then 0x7F7FFFFF else x.curMax
    let win := Vector.ofFn fun i : Fin 16 =>
      if i.val = 0 then top else x.win.toList.getD (i.val - 1) 0
    let fill := min (x.fill.toNat + 1) 16
    let boost := x.boostNext
    let w := (fld x.cfg 0 4).toNat + 1
    let mx := (win.toList.take (min fill w)).foldl (fun m v => if flt m v then v else m) (0 : Word)
    let f0 := fadd 0x3F800000 (fdiv (fofInt (fld x.cfg 16 8).toNat)
      0x42800000)
    let widen := fdiv (fofInt (8 + (fld x.cfg 24 4).toNat : Nat)) 0x41000000
    let f := (List.range boost).foldl (fun f _ => fmul f widen) f0
    let x := { x with
      win := win, fill := BitVec.ofNat 5 fill, boost := BitVec.ofNat 2 boost
      lastCount := x.curCount, lastClip := x.curClip }
    x.setScale (fdiv (fmul mx f) (qmax x.qfmt))
  { x with curMax := 0, curCount := 0, curClip := 0, dels := 0, steps := x.steps + 1 }

/-- A saturating sum of 32 bits. -/
def satAdd (a : Word) (n : Nat) : Word := if 2 ^ 32 ≤ a.toNat + n then 0xFFFFFFFF else a + BitVec.ofNat 32 n

/-- A delivery of maximum, count and clipped count (R228). -/
def Tracker.deliver (x : Tracker) (mx : Word) (count clip : Nat) : Tracker :=
  let x := { x with
    curMax := if flt x.curMax mx then mx else x.curMax
    curCount := satAdd x.curCount count
    curClip := satAdd x.curClip clip
    dels := x.dels + 1 }
  if !bit x.cfg 6 && x.dels == (fld x.cfg 8 8) + 1 then x.close else x

/-- TRK_RESET: reset values but for CFG, THR and INIT, and SCALE from INIT (R236). -/
def Tracker.reset (x : Tracker) : Tracker :=
  ({ cfg := x.cfg, thr := x.thr, init := x.init : Tracker }).setScale x.initUsed

/-- TRK_STATE. -/
def Tracker.stateWord (x : Tracker) : Word :=
  x.fill.setWidth 32 ||| (x.boost.setWidth 32 <<< 5) ||| (x.dels.setWidth 32 <<< 8) |||
    (x.steps.setWidth 32 <<< 16)

/-- Word `w` of a record (R225). -/
def Tracker.word (x : Tracker) (w : Nat) : Word :=
  match w with
  | 0 => x.cfg
  | 1 => x.thr
  | 2 => x.init
  | 3 => x.scale
  | 4 => x.inv
  | 5 => x.stateWord
  | 6 => x.curMax
  | 7 => x.curCount
  | 8 => x.curClip
  | 9 => x.lastCount
  | 10 => x.lastClip
  | n => if 16 ≤ n then x.win.toList.getD (n - 16) 0 else 0

/-- A write of word `w` of a record (R225, R226). -/
def Tracker.setWord (x : Tracker) (w : Nat) (v : Word) : Tracker :=
  match w with
  | 0 => { x with cfg := v &&& 0x3FFFFF7F }
  | 1 => { x with thr := v &&& 0xFFFF }
  | 2 => { x with init := v }
  | 3 => x.setScale v
  | 5 =>
    { x with
      fill := if 16 < (fld v 0 5).toNat then 16 else fld v 0 5
      boost := fld v 5 2
      dels := fld v 8 8
      steps := fld v 16 16 }
  | 6 => { x with curMax := v }
  | 7 => { x with curCount := v }
  | 8 => { x with curClip := v }
  | 9 => { x with lastCount := v }
  | 10 => { x with lastClip := v }
  | n =>
    if h : 16 ≤ n ∧ n < 32 then { x with win := x.win.set (n - 16) v (by omega) } else x

/-- The trackers named by a write of TRK_STEP or TRK_RESET: FIRST to min(FIRST + CNTM1, 255) (R234). -/
def trkRange (v : Word) : List Nat :=
  let first := (fld v 0 8).toNat
  let lastTrk := min (first + (fld v 8 8).toNat) 255
  (List.range (lastTrk - first + 1)).map (first + ·)

/-! ### The tracker window (R234, R235) -/

/-- TRK_SEL after an access to TRK_DATA with INC (R234). -/
def trkInc (v : Word) : Word :=
  if !bit v 13 then v
  else
    let word := fld v 8 5
    let trk : BitVec 8 := fld v 0 8
    if word = 31 then setFld (setFld v 8 (0 : BitVec 5)) 0 (trk + 1) else setFld v 8 (word + 1)

/-- A read of TRK_DATA: its value, and the context after it (R235). -/
def trkRead (k : Core) (x : Ctx) : Word × Ctx :=
  let trk := (fld x.trkSel 0 8).toNat
  let word := (fld x.trkSel 8 5).toNat
  if word = 0 then
    let r := k.mtx.tracker trk
    let latch := (List.range 32).foldl (fun l i => Tab.set 0 l i (r.word i)) []
    (r.word 0, { x with trkLatch := latch, trkSel := trkInc x.trkSel })
  else (Tab.get 0 x.trkLatch word, { x with trkSel := trkInc x.trkSel })

/-- The tracker words 3 to 31 written while a job that names the tracker is queued or in its epilogue:
every value of the tracker that the device keeps is undefined (R237). -/
def Tracker.free (x : Tracker) (n : Nat) : Tracker :=
  { x with
    scale := Config.freeWord n, inv := Config.freeWord (n + 1)
    fill := (Config.freeWord (n + 2)).setWidth 5, boost := (Config.freeWord (n + 3)).setWidth 2
    dels := (Config.freeWord (n + 4)).setWidth 8, steps := (Config.freeWord (n + 5)).setWidth 16
    curMax := Config.freeWord (n + 6), curCount := Config.freeWord (n + 7)
    curClip := Config.freeWord (n + 8), lastCount := Config.freeWord (n + 9)
    lastClip := Config.freeWord (n + 10)
    win := Vector.ofFn fun i => Config.freeWord (n + 11 + i.val) }

end Sys2Proof.Machine
end

