-- ==== Sys2Proof/Machine/Dispatcher.lean ====
section
/-! DEFINITION. The dispatcher (R356 to R378): rings and doorbells, fetching, the steps of a job,
assignment, completion records and retirement. -/

namespace Sys2Proof.Machine

/-! ### Rings (R357) -/

/-- SIZE of a ring in force. -/
def Ring.size (r : Ring) : Nat := 2 ^ (fld r.live.cfg 0 5).toNat

/-- CSIZE. -/
def Ring.csize (r : Ring) : Nat := 2 ^ (fld r.live.cfg 5 5).toNat

/-- PRIO. -/
def Ring.prio (r : Ring) : Nat := (fld r.live.cfg 10 3).toNat

/-- POLICY is SHED_OLDEST. -/
def Ring.sheds (r : Ring) : Bool := bit r.live.cfg 13

/-- SEQCHK. -/
def Ring.seqchk (r : Ring) : Bool := bit r.live.cfg 14

/-- SHED_LEVEL. -/
def Ring.shedLevel (r : Ring) : Nat := (fld r.live.limits 0 16).toNat

/-- INFLIGHT. -/
def Ring.inflight (r : Ring) : Nat := (fld r.live.limits 16 11).toNat

/-- TAIL − HEAD. -/
def Ring.occupancy (r : Ring) : Nat := (r.tail - r.head).toNat

/-- A completion record can be promised (R367). -/
def Ring.room (r : Ring) : Bool := decide ((r.ctail - r.chead).toNat + r.reserved < r.csize)

/-- Descriptors marked by CANCEL that remain: from HEAD to the tail of that moment (R360). -/
def Ring.marked (r : Ring) : Nat :=
  match r.cancelTo with
  | none => 0
  | some t => (t - r.head).toNat

/-- The dispatcher changed. -/
def State.modDisp (s : State) (f : Dispatch → Dispatch) : State := { s with disp := f s.disp }

/-- The tracked jobs of a ring. -/
def State.trackedOf (s : State) (p : Job → Bool) : Nat :=
  (s.disp.track.filter fun e => match e.2 with
    | some j => p j
    | none => false).length

/-- Reads in flight that match. -/
def State.readsOf (s : State) (p : Fetch → Bool) : Nat := (s.disp.fetches.filter p).length

/-- Jobs of a ring held by partitions for replay or as bystanders (R536). -/
def State.heldOf (s : State) (p : Job → Bool) : Bool :=
  (List.finRange 4).any fun i =>
    let q := s.parts.get i
    q.suspects.any (fun h => p h.job.job) || q.bystanders.any fun h => p h.job.job

/-- A retirement of a ring. -/
def Late.of (r : Nat) : Late → Bool
  | .retire x => x.ring.toNat == r
  | .write .. => false

/-- Some job of the ring is outstanding (R359): from its read until its completion record is written. -/
def State.outstandingJob (s : State) (r : Nat) : Bool :=
  let mine (j : Job) : Bool := j.ring.toNat == r
  s.trackedOf mine != 0 || s.readsOf (fun f => f.ring.toNat == r && f.kind != .cancel) != 0 ||
    s.heldOf mine || s.disp.returned.any mine || s.disp.late.any (fun x => x.of r) ||
    (List.finRange 32).any fun n => (s.disp.jobs.get n).any fun j => mine j.job

/-- DRAINING ends with the last outstanding job (R359). -/
def State.settleRing (s : State) (r : Nat) : State :=
  if (s.ring r).state == .draining && !s.outstandingJob r then
    s.modRing r fun x => { x with state := .idle }
  else s

/-- ERROR entered from ACTIVE or DRAINING (R359). -/
def State.ringError (s : State) (r : Nat) (cause : Byte) (seq : Word) : State :=
  match (s.ring r).state with
  | .active | .draining =>
    (s.modRing r fun x => { x with state := .error, errSeq := seq, errCause := cause }).raiseRing r 4
  | _ => s

/-! ### Ages (R376) -/

/-- When the descriptor at HEAD was announced: its doorbell record's time (R376). -/
def Ring.told (r : Ring) (now : DWord) : DWord :=
  match r.bells.head? with
  | some b => b.2
  | none => now

/-- When the oldest unstarted descriptor of a ring was announced, be it with the dispatcher, on a core, or held by a
recovery (R376, R539). -/
def State.oldestTold (s : State) (r : Nat) : Option DWord :=
  let x := s.ring r
  let mine (j : Job) : Option DWord := if j.ring.toNat == r then some j.told else none
  let l := (if x.occupancy = 0 then [] else [x.told s.time]) ++
    (s.disp.track.filterMap fun e => e.2.bind mine) ++ s.disp.returned.filterMap mine ++
    ((List.finRange 32).flatMap fun n => (s.disp.jobs.get n).filterMap fun j =>
      if j.ctx.isNone then mine j.job else none) ++
    (List.finRange 4).flatMap fun p => (s.parts.get p).bystanders.filterMap fun h =>
      if h.job.ctx.isNone then mine h.job.job else none
  match l with
  | [] => none
  | a :: l => some (l.foldl (fun m x => if x.toNat < m.toNat then x else m) a)

/-- RING_AGE: the age in µs, saturating. -/
def State.ringAge (s : State) (r : Nat) : Word :=
  match s.oldestTold r with
  | none => 0
  | some t => BitVec.ofNat 32 (min ((s.time - t).toNat / 1000) (2 ^ 32 - 1))

/-- The watermark may be crossed again once the age has fallen to it. -/
def State.settleAge (s : State) (r : Nat) : State :=
  if (s.ringAge r).toNat ≤ (s.ring r).live.ageWm.toNat then s.modRing r fun x => { x with aged := false }
  else s

/-! ### Completion records (R367 to R370) -/

/-- A write of the dispatcher to HBM: performed, dropped where its translation is refused, or none while a
partition that it needs recovers (R397, R401, R533). -/
def State.dispStore (s : State) (f : Func) (dva : DWord) (bytes : List Byte) : Option State :=
  match s.xlateShared f dva .dispatcher true 0 with
  | (.held _, _) => none
  | (.refused _, s') => some s'
  | (.ok dpa, s') => if s.hbmHeld f dpa bytes.length then none else some (s'.hbmStore f dpa bytes)

/-- A write that waits for a partition. -/
def State.hold (s : State) (x : Late) : State := s.modDisp fun d => { d with late := d.late ++ [x] }

/-- A write of the dispatcher that is no completion record, performed or held (R533). -/
def State.dispWrite (s : State) (f : Func) (dva : DWord) (bytes : List Byte) : State :=
  (s.dispStore f dva bytes).getD (s.hold (.write f dva bytes))

/-- The 32 bytes of record `i` (R368). -/
def recordOf (i : Word) (csize : Nat) (d : RingDesc) (status : Byte) (ran : Option (LCore × CtxId))
    (result : BitVec 16) (tStart tEnd : DWord) : List Byte :=
  let w : Word := status.setWidth 32 ||| (match ran with
    | some (n, c) => (BitVec.ofNat 32 n.val <<< 8) ||| (BitVec.ofNat 32 c.val <<< 14)
    | none => (1 : Word) <<< 13) ||| (result.setWidth 32 <<< 16)
  leBytes d.seq 4 ++ leBytes w 4 ++ leBytes d.tag 4 ++
    leBytes (BitVec.ofNat 32 ((i.toNat / csize + 1) % 2)) 4 ++ leBytes tStart 8 ++ leBytes tEnd 8

/-- The counts and interrupts that a status brings on the DISP and SYNC pages (R389, R390). -/
def State.countStatus (s : State) (status : Byte) : State :=
  match status.toNat with
  | 1 => s.count .disp 1 1
  | 3 => (s.count .disp 2 1).raise .disp 2
  | 4 => (s.count .disp 2 1).count .sync 3 1
  | 5 => (s.count .disp 3 1).raise .disp 1
  | _ => s

/-- The address of the next completion record of a ring (R367). -/
def Ring.recordAt (x : Ring) : DWord := x.live.cbase + BitVec.ofNat 64 (32 * (x.ctail.toNat % x.csize))

/-- Step 1 of R369: the record written, at the place of CTAIL; none while its partition recovers. -/
def State.recordWrite (s : State) (y : Retire) : Option State :=
  let r := y.ring.toNat
  let x := s.ring r
  s.dispStore (ringFn r) x.recordAt
    (recordOf x.ctail x.csize (ringDesc y.desc) y.status y.ran y.result y.tStart y.tEnd)

/-- Steps 2 to 4 of R369: CTAIL advances, the signal is sent and the interrupt raised. -/
def State.recorded (s : State) (y : Retire) : State :=
  let r := y.ring.toNat
  let d := ringDesc y.desc
  let f := ringFn r
  let s := s.modRing r fun x => { x.count 1 1 with ctail := x.ctail + 1, reserved := x.reserved - 1 }
  let s := if y.quiet then s.modRing r fun x => { x with flags := x.flags ||| 1 } else s
  let s := if d.sigen && y.status != 0x41 && !y.quiet then
    s.sendSync ⟨.dispatcher, f, d.sigObj, .add (d.sigAdd.setWidth 64)⟩ else s
  let s := if y.quiet then s else s.raiseRing r 1
  let s := s.countStatus y.status
  let core : Nat := match y.ran with
    | some (n, _) => n.val
    | none => 0
  let s := if y.status = 0 then s else s.trace 0x01 f 0 (BitVec.ofNat 64 r)
    (d.seq.setWidth 64 ||| (y.status.setWidth 64 <<< 32) ||| (BitVec.ofNat 64 core <<< 40))
  let s := if y.status = 0x45 then s.ringError r 0x45 d.seq else s
  s.settleRing r

/-- A retirement carried out, or held before its first step: it waits behind an earlier one of its ring. -/
def State.conclude (s : State) (y : Retire) : State :=
  if s.disp.late.any (Late.of y.ring.toNat) then s.hold (.retire y)
  else match s.recordWrite y with
  | some s => s.recorded y
  | none => s.hold (.retire y)

/-- A job retires (R369): its record is written, CTAIL advances, its signal is sent and its interrupt
raised; `quiet` is a function-level reset's, which carries out the first two alone. A ring that SOFT_RESET has
returned to its reset state has no completion ring to write to (R561). -/
def State.retireJob (s : State) (r : Nat) (desc : BitVec 512) (status : Byte)
    (ran : Option (LCore × CtxId)) (result : BitVec 16) (tStart : DWord) (quiet : Bool) : State :=
  if !(s.ring r).committed then s
  else (s.conclude ⟨BitVec.ofNat 14 r, desc, status, ran, result, tStart, s.time, quiet⟩).settleAge r

/-- What waits at the dispatcher is tried again. A record waits on behind an earlier one of its ring; those behind it go on
waiting as it is written, so that their jobs are still outstanding (R359). -/
def State.tryLate (s : State) (x : Late) : State :=
  let done (s : State) : State := s.modDisp fun d => { d with late := d.late.erase x }
  match x with
  | .write f dva bytes => match s.dispStore f dva bytes with
    | some s => done s
    | none => s
  | .retire y =>
    if (s.disp.late.takeWhile (· != x)).any (Late.of y.ring.toNat) then s
    else match s.recordWrite y with
    | some s => (done s).recorded y
    | none => s

/-- What waits is tried again, in its order. -/
def State.flushLate (s : State) : State := s.disp.late.foldl State.tryLate s

/-- What waits for a place in HBM goes on where it can now: the dispatcher's writes, and the entries of the trace. -/
def State.flushHeld (s : State) : State :=
  let s := if s.journal.traceHeld.isEmpty then s else s.flushTrace s.journal.traceHeld
  s.flushLate

/-- What waits for a ring is dropped with the ring's registers. -/
def Dispatch.dropLate (d : Dispatch) (p : Nat → Bool) : Dispatch :=
  { d with late := d.late.filter fun x => match x with
      | .retire y => !p y.ring.toNat
      | .write .. => true }

/-! ### Tracked jobs -/

/-- A tracking entry freed, with the gate it holds. -/
def State.untrack (s : State) (entry : Nat) : State :=
  (s.modDisp fun d => { d with track := Tab.set none d.track entry none }).modSync (·.dropGate entry)

/-- The job of a tracking entry. -/
def State.tracked (s : State) (entry : Nat) : Option Job := Tab.get none s.disp.track entry

/-- A tracked job retires without a core. -/
def State.retireTracked (s : State) (entry : Nat) (status : Byte) (quiet : Bool) : State :=
  match s.tracked entry with
  | none => s
  | some j => (s.untrack entry).retireJob j.ring.toNat j.desc status none 0 j.tStart quiet

/-- The lowest free tracking entry of the 1,024 (R378). -/
def State.freeEntry (s : State) : Option Nat :=
  firstIdx 1024 fun i => (s.tracked i).isNone && s.disp.fetches.all fun f => f.kind != .job || f.entry != i

/-- A job that a core gives back is tracked again, ready; it waits while no entry is free (R140, R378, R539). -/
def State.giveBack (s : State) (j : Job) : State :=
  match s.freeEntry with
  | some e => s.modDisp fun d => { d with track := Tab.set none d.track e (some { j with stage := .ready }) }
  | none => s.modDisp fun d => { d with returned := d.returned ++ [j] }

/-- Jobs given back that have waited take the free entries before a fetch does. -/
def State.admitReturned (s : State) : State :=
  if s.disp.returned.isEmpty then s
  else s.disp.returned.foldl State.giveBack (s.modDisp fun d => { d with returned := [] })

/-- A core takes jobs: in service, its CORE page enabled (R32, R141). -/
def State.coreTakes (s : State) (n : LCore) : Bool :=
  s.coreWorks n && s.enabled (.core (s.tileOf n).val)

/-- The effective mask of a job (R365). -/
def State.effMask (s : State) (j : Job) : Word :=
  let m := (s.ring j.ring.toNat).live.affinity
  let c := (ringDesc j.desc).coreMask
  if c = 0 then m else c &&& m

/-- Some core of the job's effective mask takes jobs, in a partition that is in service or will be evaluated at the end
of its recovery (R365, R539, R545). -/
def State.someCore (s : State) (j : Job) : Bool :=
  (List.finRange 32).any fun n => bit (s.effMask j) n.val && s.coreTakes n &&
    (s.recovering (partOf n) || s.partIn (partOf n))

/-- The SEQ that a descriptor leaves as NEXTSEQ + 1 (R360, R365, R375). -/
def State.nextSeq (s : State) (r : Nat) (d : RingDesc) : State :=
  s.modRing r fun x => if x.seqchk then { x with nextSeq := d.seq + 1 } else x

/-- Global time exceeds the job's DEADLINE (R365). -/
def State.jobLate (s : State) (j : Job) : Bool :=
  let d := ringDesc j.desc
  d.dlen && decide (d.deadline.toNat < s.time.toNat)

/-- A fetched job goes through the steps of R365. -/
def State.jobSteps (s : State) (entry : Nat) : State :=
  match s.tracked entry with
  | none => s
  | some j =>
    let r := j.ring.toNat
    let d := ringDesc j.desc
    let f := ringFn r
    let x := s.ring r
    let foreign (o : BitVec 13) : Bool := s.syncOwner o != some f
    if d.rsv then s.retireTracked entry 0x40 false
    else
      let s := s.nextSeq r d
      if x.seqchk && d.seq != x.nextSeq then s.retireTracked entry 0x42 false
      else if (d.waiten && foreign d.waitObj) || (d.sigen && foreign d.sigObj) then
        s.retireTracked entry 0x41 false
      else if d.type != 3 && !s.someCore j then s.retireTracked entry 0x05 false
      else if s.jobLate j then s.retireTracked entry 0x03 false
      else
        let pass (s : State) : State :=
          if d.type = 3 then s.retireTracked entry 0 false else s.gatePassed entry
        if !d.waiten then pass s
        else if d.waitVal.toNat ≤ (s.obj d.waitObj).toNat then pass (s.count .sync 0 1)
        else
          let s := s.count .sync 0 1
          match s.sync.freeGate with
          | some i => s.modSync fun b =>
              { b with slots := Tab.set none b.slots i (some ⟨.gate entry, d.waitObj, d.waitVal⟩) }
          | none => s

/-! ### Doorbells and fetching (R361 to R363, R371, R372, R375, R376) -/

/-- A doorbell recorded (R376). -/
def Ring.bell (r : Ring) (v : Word) (now : DWord) : Ring :=
  if r.bells.length < 8 then { r with bells := r.bells ++ [(v, now)] }
  else match r.bells.getLast? with
    | some b => { r with bells := r.bells.dropLast ++ [(v, b.2)] }
    | none => r

/-- Doorbell records whose descriptors are all taken are dropped. -/
def Ring.trimBells (r : Ring) : Ring :=
  { r with bells := r.bells.dropWhile fun b =>
      let d := (b.1 - r.head).toNat
      d == 0 || decide (r.occupancy < d) }

/-- A doorbell applied (R362). -/
def State.doorbell (s : State) (r : Nat) (v : Word) (allow : Bool) : State :=
  let x := s.ring r
  if allow && v == x.tail then s
  else if allow && x.committed && decide ((v - x.head).toNat ≤ x.size) &&
      decide ((v - x.tail).toNat ≤ x.size) then
    s.modRing r fun x => ({ x with tail := v }).bell v s.time
  else ((s.modRing r fun x => x.count 3 1).raiseRing r 8).log
    { cls := 3, code := 0, page := .disp, func := ringFn r }

/-- The number of ring `k` of a function. -/
def ringNo (f : Func) (k : BitVec 10) : Nat := 1024 * f.val + k.toNat

/-- DOORBELL (R36, R361, R362, R424, R431, R432, R436): a function writes its own page, PF0 any page. -/
def execDoorbell (w : Who) (fn : Func) (k : BitVec 10) (value : Word) (s : State) :
    Host.Outcome State Fault Refusal :=
  match w with
  | .firmware => .next s
  | .func f =>
    if !s.bar4Open f || s.inBoot || s.board.svc.state == .failed || (f != 0 && f != fn) || fnBit s.host.flr fn then .next s
    else .next (s.doorbell (ringNo fn k) value (!fnBit s.host.needFlr fn))

/-- The reads of a ring that are in flight. -/
def State.ringReads (s : State) (r : Nat) : Nat := s.readsOf fun f => f.ring.toNat == r

/-- What the ring would use a fetch slot for, if anything: the marked descriptors first, then a shed, then
a fetch (R360, R371, R375). -/
def State.ringAction (s : State) (r : Nat) : Option FetchKind :=
  let x := s.ring r
  let n := s.ringReads r
  if !x.committed || fnBit s.host.flr (ringFn r) || !x.room || s.board.svc.state == .failed then none
  else if x.cancelTo.isSome then if n < x.marked then some .cancel else none
  else if x.state != .active || decide (x.occupancy ≤ n) then none
  else if x.sheds && decide (x.shedLevel + n < x.occupancy) then some .shed
  else if decide (s.trackedOf (fun j => j.ring.toNat == r) +
        s.readsOf (fun f => f.ring.toNat == r && f.kind == .job) < x.inflight) &&
      decide (s.trackedOf (fun j => ringFn j.ring.toNat == ringFn r) +
        s.readsOf (fun f => ringFn f.ring.toNat == ringFn r && f.kind == .job) <
        (fld (s.live .disp (0x40 + 4 * (ringFn r).val)) 8 11).toNat) &&
      s.freeEntry.isSome then some .job
  else none

/-- The rings of a function that would use a slot. -/
def State.eligible (s : State) (f : Func) : List Nat :=
  s.rings.filterMap fun e =>
    if ringFn e.1 == f && (s.ringAction e.1).isSome then some e.1 else none

/-- Within a function, the eligible ring of highest PRIO, round robin in ring number order among equals
(R372). -/
def State.pickRing (s : State) (f : Func) : Option Nat :=
  let l := s.eligible f
  let top := l.foldl (fun m r => Nat.max m (s.ring r).prio) 0
  let tied := l.filter fun r => (s.ring r).prio == top
  let last := Tab.get 0 s.disp.lastRing (8 * f.val + top)
  match tied.find? fun r => decide (last < r + 1) with
  | some r => some r
  | none => tied.head?

/-- The function of the next slot: WEIGHT consecutive slots each, in turn (R372). -/
def State.pickFn (s : State) : Option Func :=
  if s.disp.credit != 0 && !(s.eligible s.disp.fn).isEmpty then some s.disp.fn
  else ((List.range 16).map fun i =>
    (⟨(s.disp.fn.val + 1 + i) % 16, Nat.mod_lt _ (by omega)⟩ : Func)).find? fun f => !(s.eligible f).isEmpty

/-- The rings with a use for the present slot beside the one that takes it have waited for it (R372). -/
def State.countRateWait (s : State) (r : Option Nat) : State :=
  if (List.finRange 16).any fun f => (s.eligible f).any fun q => some q != r then s.count .disp 4 1 else s

/-- An ACTIVE ring with TAIL ≠ HEAD waits for a tracking entry (R389). -/
def State.countTrackWait (s : State) : State :=
  if s.freeEntry.isNone && s.rings.any fun e => (s.ring e.1).state == .active && (s.ring e.1).occupancy != 0
  then s.count .disp 5 1 else s

/-- The slot's function and ring, with the function's turn taken (R372). -/
def State.takeSlot (s : State) (f : Func) : State :=
  let credit := if s.disp.credit != 0 && f == s.disp.fn then s.disp.credit - 1
    else (fld (s.live .disp (0x40 + 4 * f.val)) 0 8).toNat - 1
  s.modDisp fun d => { d with fn := f, credit := credit }

/-- A read of a ring's next descriptor started in its slot (R371). -/
def State.startRead (s : State) (f : Func) (r : Nat) (k : FetchKind) : State :=
  let top := (s.ring r).prio
  let entry := match k with
    | .job => s.freeEntry.getD 0
    | _ => 0
  let idx := (s.ring r).head + BitVec.ofNat 32 (s.ringReads r)
  let s := (s.takeSlot f).modDisp fun d => { d with
    fetches := d.fetches ++ [⟨BitVec.ofNat 14 r, k, entry, idx⟩]
    lastRing := Tab.set 0 d.lastRing (8 * f.val + top) (r + 1) }
  s.modRing r fun x => { x with reserved := x.reserved + 1 }

/-- What a fetch slot is used for: a function, one of its rings, and the read of that ring (R371, R372). -/
def State.slotUse (s : State) : Option (Func × Nat × FetchKind) :=
  s.pickFn.bind fun f => (s.pickRing f).bind fun r => (s.ringAction r).map fun k => (f, r, k)

/-- DESC_FETCH (R371, R372): the dispatcher starts a fetch, shed or cancel read. Another eligible ring
has waited for the slot, and a ring without a tracking entry for one, which is counted. -/
def execDescFetch (s : State) : Host.Outcome State Fault Refusal :=
  if !s.enabled .disp then .next s
  else
    let s := s.admitReturned
    match s.slotUse with
    | none => .next s.countTrackWait
    | some (f, r, k) => .next ((s.countTrackWait.countRateWait (some r)).startRead f r k)

/-- The outcome of a descriptor read. -/
inductive DescRead where
  | held
  | bad (s : State)
  | ok (d : BitVec 512) (s : State)

/-- A descriptor read from HBM at its ring's slot (R357, R359, R396, R397, R400). -/
def State.readDesc (s : State) (r : Nat) (idx : Word) : DescRead :=
  let x := s.ring r
  let dva := x.live.base + BitVec.ofNat 64 (64 * (idx.toNat % x.size))
  match s.xlateShared (ringFn r) dva .dispatcher false 0 with
  | (.held _, _) => .held
  | (.refused _, s') => .bad s'
  | (.ok dpa, s') =>
    if s.hbmHeld (ringFn r) dpa 64 then .held
    else
      let s' := s'.hbmRead (ringFn r) dpa 64
      if s.hbmMarked dpa then .bad s' else .ok (leVal 512 (s.hbmBytes dpa 64)) s'

/-- HEAD advances past a descriptor that has been read, and a cancellation ends with its last one
(R360, R365, R375). -/
def State.takeHead (s : State) (r : Nat) : State :=
  s.modRing r fun x =>
    let x := { x with head := x.head + 1 }.trimBells
    if x.cancelTo == some x.head then { x with cancelTo := none } else x

/-- The oldest read in flight of the kinds `p` that is also its ring's oldest: reads of a ring arrive in
order. -/
def Dispatch.arriving (d : Dispatch) (p : FetchKind → Bool) : Option Fetch :=
  d.fetches.find? fun f => p f.kind && (match d.fetches.find? fun g => g.ring == f.ring with
    | some g => g == f
    | none => false)

/-- Reads in flight dropped, with the records that they had reserved (R367). -/
def State.dropReads (s : State) (p : Fetch → Bool) : State :=
  (s.disp.fetches.filter p).foldl (fun s f =>
    (s.modDisp fun d => { d with fetches := d.fetches.erase f }).modRing f.ring.toNat fun x =>
      { x with reserved := x.reserved - 1 }) s

/-- A read arrives (R359, R360, R365, R375). A descriptor that cannot be read sends its ring to ERROR with
HEAD in place, and the ring's later reads are dropped; a device that has FAILED accepts no descriptor (R36). -/
def State.arrive (s : State) (f : Fetch) : State :=
  let r := f.ring.toNat
  let stale : Bool := s.board.svc.state == .failed || f.index != (s.ring r).head || (match f.kind with
    | .cancel => (s.ring r).cancelTo.isNone
    | _ => (s.ring r).cancelTo.isSome || (s.ring r).state == .error)
  if stale then (s.dropReads (· == f)).settleRing r
  else match s.readDesc r f.index with
    | .held => s
    | .bad s => (s.dropReads fun g => g.ring == f.ring).ringError r 0x43 (s.ring r).nextSeq
    | .ok desc s =>
      let told := (s.ring r).told s.time
      let s := (s.modDisp fun d => { d with fetches := d.fetches.erase f }).takeHead r
      let d := ringDesc desc
      match f.kind with
      | .job =>
        let s := (s.modRing r fun x => x.count 0 1).count .disp 0 1
        let s := s.modDisp fun q => { q with
          order := q.order + 1
          track := Tab.set none q.track f.entry
            (some ⟨f.ring, desc, s.time, told, q.order, .gate, false, 0⟩) }
        s.jobSteps f.entry
      | .shed =>
        ((s.modRing r fun x => x.count 2 1).nextSeq r d).retireJob r desc 0x01 none 0 0 false
      | .cancel => (s.nextSeq r d).retireJob r desc 0x02 none 0 0 false

/-- DESC_ARRIVAL (R360, R365): the oldest fetched or cancelled descriptor arrives. -/
def execDescArrival (s : State) : Host.Outcome State Fault Refusal :=
  match s.disp.arriving fun k => k != .shed with
  | some f => .next (s.arrive f)
  | none => .next s

/-- DESC_SHED (R375): the oldest descriptor read for shedding arrives. -/
def execDescShed (s : State) : Host.Outcome State Fault Refusal :=
  match s.disp.arriving fun k => k == .shed with
  | some f => .next (s.arrive f)
  | none => .next s

/-- Jobs given back that wait for a tracking entry retire EXPIRED once their deadline has passed (R365). -/
def State.expireReturned (s : State) : State :=
  (s.disp.returned.filter s.jobLate).foldl (fun s j => s.retireJob j.ring.toNat j.desc 0x03 none 0 j.tStart false)
    (s.modDisp fun d => { d with returned := d.returned.filter fun j => !s.jobLate j })

/-- JOB_EXPIRED (R365): an unassigned job whose deadline has passed, or else those given back that wait for an entry. -/
def execJobExpired (entry : Fin 1024) (s : State) : Host.Outcome State Fault Refusal :=
  match s.tracked entry.val with
  | some j => .next (if s.jobLate j then s.retireTracked entry.val 0x03 false else s.expireReturned)
  | none => .next s.expireReturned

/-- WAIT_TIMEOUT (R365): a gate still unmet WTIMEOUT after its job's fetch. -/
def execWaitTimeout (entry : Fin 1024) (s : State) : Host.Outcome State Fault Refusal :=
  match s.tracked entry.val with
  | some j => .next (if j.stage == .gate && s.passed j.fetched (s.waitBound (some j)) then
      s.retireTracked entry.val 0x04 false else s)
  | none => .next s

/-- A gate that has passed without its job having gone on: a BARRIER completes, or has EXPIRED where its DEADLINE has
passed before (R365). -/
def State.settleBarrier (s : State) (entry : Nat) : State :=
  match s.tracked entry with
  | some j => if j.stage == .ready && (ringDesc j.desc).type == 3 then
      s.retireTracked entry (if s.jobLate j then 0x03 else 0) false else s
  | none => s

/-- GATE_POLL (R384): a gate without a slot reads its object again. -/
def execGatePoll (entry : Fin 1024) (s : State) : Host.Outcome State Fault Refusal :=
  match s.tracked entry.val with
  | some j =>
    let d := ringDesc j.desc
    if j.stage == .gate && s.sync.slots.all fun e => match e.2 with
        | some w => w.who != .gate entry.val
        | none => true then
      let s := s.count .sync 0 1
      .next (if d.waitVal.toNat ≤ (s.obj d.waitObj).toNat then
        (s.gatePassed entry.val).settleBarrier entry.val else s)
    else .next s
  | none => .next s

/-- AGE_WATERMARK (R376): the sender says that the age of the ring first exceeds its watermark. -/
def execAgeWatermark (ring : BitVec 14) (s : State) : Host.Outcome State Fault Refusal :=
  let r := ring.toNat
  let x := s.ring r
  .next (if x.live.ageWm != 0 && x.committed && !x.aged && decide (x.live.ageWm.toNat < (s.ringAge r).toNat) then
    (s.modRing r fun x => { x with aged := true }).raiseRing r 2 else s)

/-! ### Assignment and job start (R82, R100, R144, R373) -/

/-- The job entries of a core changed. -/
def State.modJobs (s : State) (n : LCore) (f : List CoreJob → List CoreJob) : State :=
  s.modDisp fun d => { d with jobs := d.jobs.set n.val (f (d.jobs.get n)) n.isLt }

/-- The set-up of a context at job start (R82, R100, R144). -/
def Ctx.startJob (x : Ctx) (f : Func) (seq addr : Word) : Ctx :=
  { x with
    run := .ready
    block := 0
    wait := .none
    done := []
    held := none
    fault := none
    status := (x.status &&& ~~~(5 : Word)) ||| 1
    pc := x.jobentry.setWidth 32
    a := x.a.set 15 x.kstack
    d := x.d.set 0 addr
    func := f
    vl := 0
    sew := 0
    grp := 0
    jobSeq := seq
    cycles := 0 }

/-- The place in AM that the dispatcher puts a descriptor copy at is open (R82): 64 bytes within AM. -/
def State.copyPlace (s : State) : Nat :=
  0x400000 + (Config.freeWord s.free).toNat % (0x400000 - 63)

/-- A context starts a job: its descriptor copy is placed in AM, and the core sets the context up, whose resume line is
that of its JOBENTRY (R82, R126). -/
def State.startOn (s : State) (n : LCore) (c : CtxId) (j : CoreJob) : State :=
  let t := s.tileOf n
  let a := s.copyPlace
  let addr : Word := BitVec.ofNat 32 a
  let s := { s with free := s.free + 1 }.bankPut t a (leBytes j.job.desc 64)
  let s := s.modCore t fun k =>
    { k.modCtx c fun x =>
        x.startJob (ringFn j.job.ring.toNat) (ringDesc j.job.desc).seq addr with
      timers := { k.timers with chk := k.timers.chk.set c.val 0 c.isLt }
      resume := k.resume.set c.val (some (s.codeLine t ((k.ctxs.get c).jobentry.toNat / 64))) c.isLt }
  let s := s.modJobs n fun l => l.map fun q =>
    if q == j then { q with ctx := some c, addr := addr } else q
  (s.settleAge j.job.ring.toNat).reselect t

/-- The lowest-numbered IDLE context of a core. -/
def Core.idle (k : Core) : Option CtxId := (List.finRange 4).find? fun c => (k.ctxs.get c).run == .idle

/-- A core may be assigned jobs now: it takes jobs, is not paused, is not the core of a replay, and its
partition is in service (R373, R532, R537, R539, R540, R545). -/
def State.assignable (s : State) (n : LCore) : Bool :=
  let p := s.parts.get (partOf n)
  s.coreTakes n && !s.frozen (s.tileOf n) && s.partIn (partOf n) && p.replayCore != some n

/-- One IDLE context takes the oldest unstarted job of its core's entries (R373), unless the core is
disabled, out of service, paused or in a recovering partition. -/
def State.startNext (s : State) (n : LCore) : State :=
  let t := s.tileOf n
  if !s.coreTakes n || s.frozen t || s.recovering (partOf n) then s
  else match (s.core t).idle, (s.disp.jobs.get n).find? fun j => j.ctx.isNone with
    | some c, some j => s.startOn n c j
    | _, _ => s

/-- Every IDLE context of a core takes a job while there is one. -/
def State.startJobs (s : State) (n : LCore) : State :=
  (List.range 4).foldl (fun s _ => s.startNext n) s

/-- The core a ready job goes to: of its effective mask, fit to take jobs, not recovering, with a free
entry; the fewest occupied entries, then the lowest number (R373). -/
def State.pickCore (s : State) (j : Job) : Option LCore :=
  let l := (List.finRange 32).filter fun n =>
    bit (s.effMask j) n.val && s.assignable n &&
      decide ((s.disp.jobs.get n).length < 8)
  l.foldl (fun (best : Option LCore) n =>
    match best with
    | none => some n
    | some b => if (s.disp.jobs.get n).length < (s.disp.jobs.get b).length then some n else best) none

/-- Ready jobs by tracking entry, in the order of assignment: PRIO, bystanders first among equals, then
fetch order (R373, R539). -/
def State.before (s : State) (i j : Job) : Bool :=
  let pi := (s.ring i.ring.toNat).prio
  let pj := (s.ring j.ring.toNat).prio
  decide (pj < pi) || (pi == pj && ((i.again && !j.again) ||
    (i.again == j.again && decide (i.order < j.order))))

/-- The first ready job of those that `p` admits. -/
def State.firstReady (s : State) (p : Job → Bool) : Option (Nat × Job) :=
  s.disp.track.foldl (fun (best : Option (Nat × Job)) e =>
    match e.2 with
    | none => best
    | some j =>
      if j.stage != .ready || (ringDesc j.desc).type == 3 || !p j then best
      else match best with
        | none => some (e.1, j)
        | some b => if s.before j b.2 then some (e.1, j) else best) none

/-- Gates passed by a release go on: BARRIER jobs complete (R365). -/
def State.settleBarriers (s : State) : State :=
  (s.disp.track.map (·.1)).foldl State.settleBarrier s

/-- SYNC_BANK_OP (R379, R381): the first operation on its way to the bank is applied. -/
def execSyncBankOp (bank : BitVec 2) (s : State) : Host.Outcome State Fault Refusal :=
  let mine (r : SyncReq) : Bool := r.obj.toNat % 4 == bank.toNat
  match s.sync.queue.find? mine with
  | none => .next s
  | some r =>
    let s := s.modSync fun b => { b with queue := b.queue.eraseP mine }
    .next (s.syncApply r).settleBarriers

/-- SYNC_CAS_GO (R387): a write of SYNC_CAS_CTRL with GO set, which also writes OBJ. -/
def execSyncCasGo (w : Who) (objPage : BitVec 6) (obj : BitVec 7) (s : State) :
    Host.Outcome State Fault Refusal :=
  let c := PageClass.syncObj objPage.toNat
  let own := s.mayWrite w c
  let s := if own then s.modPage (pageNo c) fun p =>
    { p with staged := Tab.set 0 p.staged 0x040 (obj.setWidth 32) } else s
  .next (s.syncCas w objPage.toNat obj.toNat).settleBarriers

/-- The dispatcher's argument fetch for a job of TYPE 1 or 2: the block that ARG addresses, of 64 or 128 bytes, is read under
the job's function, page by page (R366, R396); none while it is held (R533). DEDUCED: the fetch comes with the
assignment. Its data goes nowhere, as the core runtime copies the block itself, and a refusal has no effect but its record. -/
def State.argFetch (s : State) (j : Job) : Option State :=
  let d := ringDesc j.desc
  let f := ringFn j.ring.toNat
  (pagePieces d.arg.toNat (if d.type = 1 then 64 else if d.type = 2 then 128 else 0)).foldl (fun s p =>
    s.bind fun s => match s.xlateShared f (BitVec.ofNat 64 p.1) .dispatcher false 0 with
      | (.ok dpa, t) => if s.hbmHeld f dpa p.2 then none else some (t.hbmRead f dpa p.2)
      | (.refused _, t) => some t
      | (.held _, _) => none) (some s)

/-- JOB_ASSIGN (R373): the first ready job that has a core to go to is assigned, and IDLE contexts of that
core take their jobs; not while the fetch of its argument waits. A job whose deadline has passed retires EXPIRED, and one left with no core in its mask
NO_CORE (R365). -/
def execJobAssign (s : State) : Host.Outcome State Fault Refusal :=
  let s := s.admitReturned
  match s.firstReady fun j => !s.someCore j || (s.pickCore j).isSome with
  | none => .next s
  | some (entry, j) =>
    if s.jobLate j then .next (s.retireTracked entry 0x03 false)
    else match s.pickCore j with
    | none => .next (s.retireTracked entry 0x05 false)
    | some n =>
      match s.argFetch j with
      | none => .next s
      | some s =>
      let s := s.untrack entry
      let s := s.modJobs n fun l => l ++ [⟨j, s.time, none, 0, false, false⟩]
      .next (s.startJobs n)

/-- A job on a core retires (R369); one that a function-level reset has stopped retires CANCELLED, without
signal or interrupt (R432). A nominated row of the core's banks is remapped then (R318). -/
def State.retireCore (s : State) (n : LCore) (j : CoreJob) (status : Byte) (result : BitVec 16) : State :=
  let s := s.modJobs n fun l => l.erase j
  let status := if j.cancel then 0x02 else status
  let parts := s.parts.map fun p => { p with suspects := p.suspects.filter fun h => h.job.job.order != j.job.order }
  let s := { s with parts := parts }
  (s.retireJob j.job.ring.toNat j.job.desc status (j.ctx.map fun c => (n, c)) result j.tStart j.cancel).remapDue
    (s.tileOf n) true

/-- An assigned job as it goes back to the dispatcher: it keeps the time of its assignment (R368, R539). -/
def CoreJob.back (j : CoreJob) : Job := { j.job with tStart := j.tStart }

/-- Unstarted jobs of a core go back to the dispatcher as ready jobs (R140). -/
def State.returnUnstarted (s : State) (n : LCore) : State :=
  (s.disp.jobs.get n).foldl (fun s j =>
    if j.ctx.isSome then s else (s.modJobs n fun l => l.erase j).giveBack j.back) s

/-! ### RING_CTRL (R358 to R360) -/

/-- RUN written (R359). -/
def State.ringRun (s : State) (r : Nat) (run : Bool) : State :=
  let x := s.ring r
  let st : RingRun :=
    match x.state with
    | .idle => if run && x.committed then .active else .idle
    | .active => if run then .active else if s.outstandingJob r then .draining else .idle
    | .draining => if run then .active else .draining
    | .error => .error
  s.modRing r fun x => { x with run := run, state := st }

/-- Jobs given back that wait for a tracking entry retire CANCELLED; `quiet` as for `retireJob`. -/
def State.retireReturned (s : State) (p : Job → Bool) (quiet : Bool) : State :=
  (s.disp.returned.filter p).foldl (fun s j => s.retireJob j.ring.toNat j.desc 0x02 none 0 j.tStart quiet)
    (s.modDisp fun d => { d with returned := d.returned.filter fun j => !p j })

/-- CANCEL written (R360): the fetched jobs not on a core retire at once, the descriptors up to TAIL are
marked, and reads of them for another purpose are dropped. -/
def State.ringCancel (s : State) (r : Nat) : State :=
  let mine := s.disp.track.filterMap fun e => match e.2 with
    | some j => if j.ring.toNat == r then some e.1 else none
    | none => none
  let s := mine.foldl (fun s e => s.retireTracked e 0x02 false) s
  let s := s.retireReturned (fun j => j.ring.toNat == r) false
  let x := s.ring r
  if x.occupancy = 0 then s
  else
    ((s.dropReads fun f => f.ring.toNat == r).modRing r fun x => { x with cancelTo := some x.tail }).settleRing r

/-- RESTART written (R359). -/
def State.ringRestart (s : State) (r : Nat) : State :=
  let x := s.ring r
  if x.state != .error then s
  else s.modRing r fun y => { y with
    state := if x.run then .active else if s.outstandingJob r then .draining else .idle }

/-- The refusal code of a ring's commit, as its staged registers stand; 0 where it passes (R358). -/
def Ring.check (x : Ring) : Byte :=
  let c := x.staged
  let log2 := (fld c.cfg 0 5).toNat
  let clog2 := (fld c.cfg 5 5).toNat
  let shed := (fld c.limits 0 16).toNat
  let infl := (fld c.limits 16 11).toNat
  if c.affinity = 0 ∨ infl = 0 then 0x01
  else if log2 < 4 ∨ 16 < log2 ∨ clog2 < 4 ∨ 16 < clog2 ∨ 1024 < infl then 0x02
  else if fld c.base 0 12 ≠ 0 ∨ fld c.cbase 0 12 ≠ 0 then 0x03
  else if x.state ≠ .idle then 0x40
  else if bit c.cfg 13 ∧ (shed = 0 ∨ 2 ^ log2 ≤ shed) then 0x41
  else 0

/-- A passing commit (R358, R359): what the ring has under way from before goes with it. -/
def State.ringCommit (s : State) (r : Nat) : State :=
  ((s.dropReads fun f => f.ring.toNat == r).modDisp (·.dropLate (· == r))).modRing r fun x => { x with
    live := x.staged
    committed := true
    tail := 0
    head := 0
    ctail := 0
    chead := 0
    nextSeq := x.staged.seq0
    bells := []
    cancelTo := none
    reserved := 0
    aged := false
    state := if x.run then .active else x.state }

end Sys2Proof.Machine
end

