-- ==== Sys2Proof/Machine/Stripe.lean ====
section
/-! DEFINITION. The stripe engine (R252 to R292): stripe descriptors and their checks, the values a tile
reads, the wind, pairing with matrix jobs, and completion. -/

namespace Sys2Proof.Machine

/-- A field of a 128-byte descriptor: `len` bits from bit `lo` of the word at byte offset `off`. -/
def jf (d : BitVec 1024) (off lo len : Nat) : Nat := (fld d (8 * off + lo) len).toNat

/-- The fields of a stripe descriptor (R265). -/
structure StripeDesc where
  stream : Fin 8
  first : Bool
  last : Bool
  padm : Nat
  c : Nat
  e : Nat
  crec : Bool
  csync : Bool
  cirq : Bool
  trig : Nat
  kh : Nat
  kw : Nat
  sy : Nat
  sx : Nat
  dy : Nat
  dx : Nat
  padt : Nat
  padl : Nat
  mh : Nat
  mw : Nat
  cin : Nat
  cb0 : Nat
  ncbj : Nat
  oy0 : Nat
  sh : Nat
  ox0 : Nat
  ow : Nat
  tm : Nat
  tadv : Nat
  orep : Nat
  padv : Byte
  body : Nat
  brow0 : Nat
  brows : Nat
  ax0 : Nat
  aw : Nat
  brstr : Nat
  bcstr : Nat
  coil : Nat
  cr : Nat
  obj : BitVec 13
  add : Word
  recAt : Nat
  tag : Word

/-- A stripe descriptor's fields read. -/
def stripeDesc (d : BitVec 1024) : StripeDesc where
  stream := (fld d 0 3).toFin
  first := bit d 3
  last := bit d 4
  padm := jf d 0 5 2
  c := if bit d 7 then 32 else 16
  e := if bit d 8 then 2 else 1
  crec := bit d 9
  csync := bit d 10
  cirq := bit d 11
  trig := jf d 0 12 4
  kh := jf d 4 0 4 + 1
  kw := jf d 4 4 4 + 1
  sy := jf d 4 8 2 + 1
  sx := jf d 4 10 2 + 1
  dy := jf d 4 12 2 + 1
  dx := jf d 4 14 2 + 1
  padt := jf d 4 16 6
  padl := jf d 4 22 6
  mh := jf d 8 0 16
  mw := jf d 8 16 16
  cin := jf d 0xC 0 12
  cb0 := jf d 0xC 12 8
  ncbj := jf d 0xC 20 8 + 1
  oy0 := jf d 0x10 0 16
  sh := jf d 0x10 16 16
  ox0 := jf d 0x14 0 16
  ow := jf d 0x14 16 16
  tm := jf d 0x18 0 6 + 1
  tadv := jf d 0x18 8 6 + 1
  orep := jf d 0x18 16 8 + 1
  padv := fld d (8 * 0x18 + 24) 8
  body := jf d 0x1C 0 32
  brow0 := jf d 0x20 0 16
  brows := jf d 0x20 16 16
  ax0 := jf d 0x24 0 16
  aw := jf d 0x24 16 16
  brstr := jf d 0x28 0 16
  bcstr := jf d 0x28 16 16
  coil := jf d 0x2C 0 18
  cr := jf d 0x30 0 8
  obj := fld d (8 * 0x34) 13
  add := fld d (8 * 0x38) 32
  recAt := jf d 0x3C 0 32
  tag := fld d (8 * 0x40) 32

/-- K of a tile: KH × KW × NCBJ × C (R254). -/
def StripeDesc.k (d : StripeDesc) : Nat := d.kh * d.kw * d.ncbj * d.c

/-- Tiles in a row of output: ⌈OW / TADV⌉ (R266). -/
def StripeDesc.perRow (d : StripeDesc) : Nat := (d.ow + d.tadv - 1) / d.tadv

/-- The jobs a stripe serves (R266). -/
def StripeDesc.jobs (d : StripeDesc) : Nat := d.sh * d.perRow * d.orep

/-- Tile `i` of a stripe in the order of R266: output row, first column, width. -/
def StripeDesc.tile (d : StripeDesc) (i : Nat) : Tile2 :=
  let n := i / d.orep
  let xt := d.ox0 + n % d.perRow * d.tadv
  ⟨d.stream, d.oy0 + n / d.perRow, xt, min d.tm (d.ox0 + d.ow - xt)⟩

/-- The bytes of a coil slot (R261). -/
def StripeDesc.cslot (d : StripeDesc) : Nat := (d.ncbj * d.aw * d.c * d.e + 63) / 64 * 64

/-- The coil region: its first byte and the byte after its last (R261). -/
def StripeDesc.region (d : StripeDesc) : Nat × Nat := (d.coil, d.coil + d.cr * d.cslot)

/-- The first input row and column a stripe needs, and the last (R259). -/
def StripeDesc.rowF (d : StripeDesc) : Int := (d.oy0 * d.sy : Nat) - d.padt

/-- L of R259. -/
def StripeDesc.rowL (d : StripeDesc) : Int :=
  ((d.oy0 + d.sh - 1) * d.sy : Nat) - d.padt + ((d.kh - 1) * d.dy : Nat)

/-- XF of R259. -/
def StripeDesc.colF (d : StripeDesc) : Int := (d.ox0 * d.sx : Nat) - d.padl

/-- XL of R259. -/
def StripeDesc.colL (d : StripeDesc) : Int :=
  ((d.ox0 + d.ow - 1) * d.sx : Nat) - d.padl + ((d.kw - 1) * d.dx : Nat)

/-- refl(i, n) (R255). -/
def refl (i : Int) (n : Nat) : Int := if i < 0 then -i else if (n : Int) ≤ i then 2 * ((n : Int) - 1) - i else i

/-- Where a padded coordinate takes its value: none under ZERO (R255). -/
def padSource (padm : Nat) (i : Int) (n : Nat) : Option Int :=
  if 0 ≤ i ∧ i < n then some i
  else match padm with
    | 1 => some (if i < 0 then 0 else (n : Int) - 1)
    | 2 => some (refl i n)
    | _ => none

/-- The needed coordinates of a range: sources of every coordinate in it (R259). -/
def needed (padm : Nat) (lo hi : Int) (n : Nat) : List Int :=
  ((List.range (hi - lo + 1).toNat).filterMap fun k : Nat => padSource padm (lo + k) n).eraseDups

/-- A row is resident: carried, or in the body (R260). -/
def StripeDesc.resident (d : StripeDesc) (carry : List Nat) (r : Nat) : Bool :=
  carry.contains r || (decide (d.brow0 ≤ r) && decide (r < d.brow0 + d.brows))

/-- The carry rows that a stripe leaves: resident rows from Fn on; a LAST stripe keeps none (R262). -/
def StripeDesc.carryNext (d : StripeDesc) (carry : List Nat) : List Nat :=
  if d.last then []
  else
    let fn : Int := ((d.oy0 + d.sh) * d.sy : Nat) - d.padt
    (carry ++ (List.range d.brows).map (d.brow0 + ·)).filter fun r => decide (fn ≤ (r : Int))

/-- The offset in AM space of a body row of a block (R261). -/
def StripeDesc.bodyRow (d : StripeDesc) (j r : Nat) : Nat :=
  d.body + j * d.bcstr * 64 + (r - d.brow0) * d.brstr * 64

/-- The layer fields of a descriptor, as bits (R267): words 0x04 to 0x18 but OY0 and SH, with PADM, CBS,
ESZ, AX0, AW, COIL_BASE and CR. -/
def layerFields (d : BitVec 1024) : List Nat :=
  [jf d 0 5 4, jf d 4 0 32, jf d 8 0 32, jf d 0xC 0 32, jf d 0x14 0 32, jf d 0x18 0 32, jf d 0x24 0 32,
    jf d 0x2C 0 18, jf d 0x30 0 8]

/-- A stream's state. -/
def StripeEngine.st (k : StripeEngine) (s : Fin 8) : Stream := k.streams.get s

/-- The reserved bits of a stripe descriptor are 0 (R265). -/
def stripeRsvOk (d : BitVec 1024) : Bool :=
  [(0, 16, 16), (4, 28, 4), (0xC, 28, 4), (0x18, 6, 2), (0x18, 14, 2), (0x2C, 18, 14), (0x30, 8, 24),
    (0x34, 13, 19)].all (fun f => jf d f.1 f.2.1 f.2.2 == 0) && fld d (8 * 0x44) 480 == 0

/-- The fields lie in the ranges of R256 and R265. -/
def StripeDesc.rangesOk (d : StripeDesc) : Bool :=
  d.padm != 3 && d.kh ≤ 11 && d.kw ≤ 11 && 1 ≤ d.mh && 1 ≤ d.mw && 1 ≤ d.cin &&
    decide (d.cb0 + d.ncbj ≤ (d.cin + d.c - 1) / d.c) && decide (d.k ≤ 65536) && d.tadv ≤ d.tm &&
    1 ≤ d.sh && 1 ≤ d.ow && 1 ≤ d.aw

/-- Base alignment, extents and the disjointness of body rows and blocks (R261). -/
def StripeDesc.placesOk (d : StripeDesc) : Bool :=
  let len := d.aw * d.c * d.e
  let rows := (List.range d.ncbj).flatMap fun j =>
    (List.range d.brows).map fun r => (j * d.bcstr + r * d.brstr) * 64
  let inAm (a : Nat) : Bool := decide (0x400000 ≤ a) && decide (a + len ≤ 0x800000)
  d.body % 64 == 0 && d.coil % 64 == 0 && decide (d.region.2 ≤ 0x40000) && (!d.crec || d.recAt % 16 == 0 && localRange d.recAt 16) &&
    rows.all (fun r => inAm (d.body + r)) &&
    (List.range rows.length).all fun i => (List.range i).all fun k =>
      let a := listAt 0 rows i
      let b := listAt 0 rows k
      decide (a + len ≤ b) || decide (b + len ≤ a)

/-- The checks at activation, in code order; 0 where they pass (R277). -/
def StripeEngine.check (k : StripeEngine) (raw : BitVec 1024) : Byte :=
  let d := stripeDesc raw
  let st := k.st d.stream
  let carry := if d.first then [] else st.carry
  let rows := needed d.padm d.rowF d.rowL d.mh
  let cols := needed d.padm d.colF d.colL d.mw
  let inMap (n : Nat) (i : Int) : Bool := decide (0 ≤ i) && decide (i < n)
  let prev := st.prev.map stripeDesc
  if !stripeRsvOk raw || !d.rangesOk then 0x40
  else if !d.placesOk then 0x41
  else if !d.first && st.error then 0x48
  else if !d.first && !(st.under && (match st.prev with
      | some p => layerFields p == layerFields raw
      | none => false)) then 0x42
  else if !d.first && !((match prev with
      | some p => p.oy0 + p.sh == d.oy0
      | none => false) && st.nr == d.brow0) then 0x43
  else if (rows.filter (inMap d.mh)).any fun r => !d.resident carry r.toNat then 0x44
  else if (cols.filter (inMap d.mw)).any fun x =>
      !(decide ((d.ax0 : Int) ≤ x) && decide (x < (d.ax0 + d.aw : Nat))) then 0x45
  else if !rows.all (inMap d.mh) || !cols.all (inMap d.mw) then 0x46
  else if d.cr < (d.carryNext carry).length || (List.finRange 8).any fun i =>
      let o := k.st i
      i != d.stream && !o.carry.isEmpty && (match o.prev with
        | some p =>
          let r := (stripeDesc p).region
          decide (r.1 < d.region.2) && decide (d.region.1 < r.2) && decide (d.region.1 < d.region.2)
        | none => false) then 0x47
  else 0

/-! ### Streams and the queue -/

/-- The stripe engine changed. -/
def State.modStr (s : State) (t : Tile) (f : StripeEngine → StripeEngine) : State :=
  s.modCore t fun k => { k with str := f k.str }

/-- A stream changed. -/
def StripeEngine.modStream (k : StripeEngine) (i : Fin 8) (f : Stream → Stream) : StripeEngine :=
  { k with streams := k.streams.set i.val (f (k.streams.get i)) i.isLt }

/-- The stripe that heads a stream: the first in the queue that is not cancelled (R268, R274). -/
def StripeEngine.head (k : StripeEngine) (i : Fin 8) : Option Stripe :=
  k.queue.find? fun q => (stripeDesc q.desc).stream == i && q.stage != .cancelled

/-- The head of a stream changed. -/
def StripeEngine.modHead (k : StripeEngine) (i : Fin 8) (f : Stripe → Stripe) : StripeEngine :=
  match k.head i with
  | none => k
  | some h => { k with queue := k.queue.map fun q => if q.seq = h.seq then f q else q }

/-- A stripe fails and goes on to absorb its jobs (R270). -/
def Stripe.fail (q : Stripe) (status : Byte) : Stripe := { q with stage := .failed, status := status }

/-- After a change of the queue from `old`: a stripe that has become the head of its stream waits from now, which
STR_TRIG_TIMEOUT bounds (R268); while the page's ENABLE is 0 it fails with 0x4A (R292). -/
def State.stripeHead (s : State) (t : Tile) (old : StripeEngine) (i : Fin 8) : State :=
  let now := ((s.core t).str.head i).map (·.seq)
  if now == (old.head i).map (·.seq) then s
  else if s.enabled (.stripe t.val) then s.modStr t fun k => k.modHead i fun q => { q with since := some s.time }
  else s.modStr t fun k => k.modHead i fun q => if q.stage == .waiting then q.fail 0x4A else q

/-- The latest matrix job that completed with 0x4A (R269, R290, R291). -/
def State.jobErr (s : State) (t : Tile) (seq : BitVec 16) (cause : BitVec 2) (i : Fin 8) : State :=
  let k := (s.core t).str
  let changed := k.jobErrSeq != seq || k.jobErrCause != cause || k.jobErrStream != i
  let s := s.modStr t fun k => { k with jobErrSeq := seq, jobErrCause := cause, jobErrStream := i }
  if changed then s.raise (.stripe t.val) 4 else s

/-- The bytes of a completion record (R195, R271). -/
def recordBytes (seq : BitVec 16) (status : Byte) (ctx : CtxId) (extra : Word) (tag w2 w3 : Word) :
    List Byte :=
  leBytes (seq.setWidth 32 ||| (status.setWidth 32 <<< 16) ||| (BitVec.ofNat 32 ctx.val <<< 24) |||
      extra : Word) 4
    ++ leBytes tag 4 ++ leBytes w2 4 ++ leBytes w3 4

/-- A stripe leaves the queue with its completion actions (R271): the record, the synchronisation add,
the interrupt. CYCLES is not modelled by cycles: its value is free. -/
def State.stripeFinish (s : State) (t : Tile) (q : Stripe) : State :=
  let d := stripeDesc q.desc
  let old := (s.core t).str
  let s := s.modStr t fun k => { k with queue := k.queue.filter fun x => x.seq != q.seq, doneSeq := q.seq }
  let s := if d.crec then
      let bs := recordBytes q.seq q.status q.ctx (BitVec.ofNat 32 d.stream.val <<< 26) d.tag
        (BitVec.ofNat 32 q.fed) (Config.freeWord s.free)
      { (s.modCore t fun k => if localRange d.recAt 16 then k.bankWrite d.recAt bs else k) with
        free := s.free + 1 }
    else s
  let s := if d.csync then s.sendSync ⟨.stripe, q.func, d.obj, .add (d.add.setWidth 64)⟩ else s
  let s := if d.cirq then (s.raise (.stripe t.val) 1).coreIrq t q.ctx 0x210 else s
  let s := s.count (.stripe t.val) 0 1
  let s := if 0x40 ≤ q.status.toNat then
      ((s.modStr t fun k => { k with
        errSeq := q.seq, errStatus := q.status, errStream := d.stream, errCtx := q.ctx }).count
          (.stripe t.val) 6 1).raise (.stripe t.val) 2
    else s
  (s.stripeHead t old d.stream).wakeQueue t 1

/-! ### The values of a tile (R255, R261, R275) -/

/-- Where a value lies: the body in AM, or the coil; a pad value has no place. -/
inductive StripePlace where
  | am (a : Nat)
  | coil (o : Nat)
  | pad
  deriving DecidableEq, Repr

/-- The place of channel `ch` of fed block `j` at map row and column (R261). -/
def StripeDesc.place (d : StripeDesc) (j c : Nat) (iy ix : Nat) : StripePlace :=
  if d.brow0 ≤ iy ∧ iy < d.brow0 + d.brows then
    .am (d.bodyRow j iy + ((ix - d.ax0) * d.c + c) * d.e)
  else .coil (d.coil + iy % d.cr * d.cslot + ((j * d.aw + ix - d.ax0) * d.c + c) * d.e)

/-- The place of activation (m, k) of a tile (R255). -/
def StripeDesc.actPlace (d : StripeDesc) (t : Tile2) (m k : Nat) : StripePlace :=
  let c := k % d.c
  let j := k / d.c % d.ncbj
  let kx := k / (d.c * d.ncbj) % d.kw
  let ky := k / (d.c * d.ncbj * d.kw)
  let iy : Int := (t.y * d.sy : Nat) - d.padt + (ky * d.dy : Nat)
  let ix : Int := ((t.xt + m) * d.sx : Nat) - d.padl + (kx * d.dx : Nat)
  if d.cin ≤ (d.cb0 + j) * d.c + c then .pad
  else match padSource d.padm iy d.mh, padSource d.padm ix d.mw with
    | some y, some x => d.place j c y.toNat x.toNat
    | _, _ => .pad

/-- The bytes of a value; PADV is zero-extended to a 2-byte element (R255). -/
def Core.stripeByte (k : Core) (d : StripeDesc) (p : StripePlace) : Nat :=
  match p with
  | .pad => d.padv.toNat
  | .am a => ofLe (k.bytes a d.e)
  | .coil o => ofLe (Tab.range 0 k.str.coil o d.e)

/-- The 64-byte rows of AM and of the coil that a tile reads for each tap and block (R275). -/
def StripeDesc.tileRows (d : StripeDesc) (t : Tile2) : List StripePlace :=
  (List.range (d.kh * d.kw * d.ncbj)).flatMap fun i =>
    ((List.range t.tw).flatMap fun m => (List.range d.c).filterMap fun c =>
      match d.actPlace t m (i * d.c + c) with
      | .am a => some (StripePlace.am (a / 64 * 64))
      | .coil o => some (.coil (o / 64 * 64))
      | .pad => none).eraseDups

/-- Some word of a 64-byte row carries an uncorrectable mark. -/
def Core.rowMarked (k : Core) (p : StripePlace) : Bool :=
  match p with
  | .am a => (List.range 8).any fun i => k.marked (a + 8 * i)
  | .coil o => (List.range 8).any fun i => Tab.get false k.str.coilMarks (o / 8 + i)
  | .pad => false

/-- The AM address of a row. -/
def StripePlace.amLine : StripePlace → Option Nat
  | .am a => some a
  | _ => none

/-- The row waits for its bank, or for the end of a clear (R319, R321). -/
def StripePlace.heldAt (p : StripePlace) (s : State) (t : Tile) : Bool :=
  match p with
  | .am a => s.bankHeld t a
  | _ => (s.core t).clearing

/-- The row lies in AM. -/
def StripePlace.isAm : StripePlace → Bool
  | .am _ => true
  | _ => false

/-! ### The wind (R262) -/

/-- The map rows that the tiles from number `i` on still read. -/
def StripeDesc.rowsLeft (d : StripeDesc) (i : Nat) : List Nat :=
  if d.jobs ≤ i then []
  else
    let y := (d.tile i).y
    let lo : Int := (y * d.sy : Nat) - d.padt
    (needed d.padm lo d.rowL d.mh).map Int.toNat

/-- The body rows that the wind copies (R262). -/
def StripeDesc.windRows (d : StripeDesc) (carry : List Nat) : List Nat :=
  (d.carryNext carry).filter fun r => decide (d.brow0 ≤ r) && decide (r < d.brow0 + d.brows)

/-- No remaining tile reads a row whose slot the wind overwrites (R262). -/
def StripeDesc.windFree (d : StripeDesc) (carry : List Nat) (i : Nat) : Bool :=
  (d.windRows carry).all fun r => (d.rowsLeft i).all fun q =>
    !(carry.contains q && q % d.cr == r % d.cr)

/-- Row `r` of the body copied to its coil slot, with its marks. -/
def Core.windRow (k : Core) (d : StripeDesc) (r : Nat) : Core :=
  let len := d.aw * d.c * d.e
  let base := d.coil + r % d.cr * d.cslot
  (List.range d.ncbj).foldl (fun k j =>
    let src := d.bodyRow j r
    { k with str := { k.str with coil := Tab.setRange 0 k.str.coil (base + j * len) (k.bytes src len) } })
    { k with str := { k.str with coilMarks := Tab.clearRange k.str.coilMarks (base / 8) (d.cslot / 8) } }

/-- A marked word in the body rows that the wind reads. -/
def Core.windMark (k : Core) (d : StripeDesc) (rows : List Nat) : Option Nat :=
  rows.findSome? fun r => (List.range d.ncbj).findSome? fun j =>
    (List.range (d.aw * d.c * d.e)).findSome? fun i =>
      if k.marked (d.bodyRow j r + i) then some (d.bodyRow j r + i) else none

/-! ### Commands and events -/

/-- `sjob` (R264). -/
def semSjob (e : Env) (d : BitVec 5) (m : MemAddr) : Res :=
  let r := e.x.lm m .word
  let a := r.1.toNat
  let raw : BitVec 1024 := leVal 1024 (e.core.bytes a 128)
  let k := e.core.str
  if !localOk a then e.exc 0x05 r.1
  else if a % 128 ≠ 0 then e.exc 0x06 r.1
  else if e.core.sbOwn e.c then .stall id
  else if e.s.spanHeld e.t a 128 then e.portStall (linesOf a 128)
  else if !(e.core.markedWords a 128).isEmpty then .exc 0x0E r.1 false fun s => s.readMarks e.t a 128
  else if 8 ≤ k.queue.length then .block 6 (.queue 1) id
  else
    let q : Stripe := ⟨raw, k.next, e.c, e.x.func, .waiting, 0, 0, 0, false, none⟩
    .ok (fun s =>
      let s := s.modCtx e.t e.c fun x => x.setD d (k.next.setWidth 32)
      (s.modStr e.t fun k => { k with queue := k.queue ++ [q], next := k.next + 1 }).stripeHead e.t k
        (stripeDesc raw).stream) .seq

/-- STRIPE_ACTIVATE (R268, R292): the stripe that heads its stream activates once triggered, while the page
is enabled. -/
def execStripeActivate (core : LCore) (stream : Fin 8) (s : State) : Host.Outcome State Fault Refusal :=
  let t := s.tileOf core
  let k := (s.core t).str
  .next (s.paced t (match k.head stream with
    | none => s
    | some q =>
      let d := stripeDesc q.desc
      if q.stage != .waiting || (k.st stream).trigs.toNat < d.trig || s.frozen t ||
        !s.enabled (.stripe t.val) then s
      else s.modStr t fun k =>
        let k := k.modStream stream fun x => { x with trigs := x.trigs - BitVec.ofNat 8 d.trig }
        match k.check q.desc with
        | 0 =>
          let k := k.modHead stream fun q => { q with stage := .active, wound := d.last }
          if d.first then
            k.modStream stream fun x => { x with
              carry := [], error := false, under := true, prev := some q.desc }
          else k.modStream stream fun x => { x with prev := some q.desc }
        | b => k.modHead stream fun q => q.fail b))

/-- STRIPE_TRIG_TIMEOUT (R268): the wait for triggers exceeded STR_TRIG_TIMEOUT. -/
def execStripeTrigTimeout (core : LCore) (stream : Fin 8) (s : State) : Host.Outcome State Fault Refusal :=
  let t := s.tileOf core
  .next (s.modStr t fun k => k.modHead stream fun q =>
    if q.stage == .waiting && s.passed (q.since.getD 0) (fld (s.live (.stripe t.val) 0x050) 0 24).toNat then q.fail 0x4B
    else q)

/-- A matrix job is feeding a tile of the stream. -/
def Core.streamFeeds (k : Core) (i : Fin 8) : Bool :=
  k.mtx.queue.any fun j => j.stage == .feeding && (match j.tile with
    | some t => t.stream == i
    | none => false)

/-- The tiles of the head stripe that no job reads any more: all that were taken but for the one being fed. A job that took
its tile and then failed reads nothing more of it (R220). -/
def Core.tilesOver (k : Core) (i : Fin 8) (q : Stripe) : Nat := q.taken - if k.streamFeeds i then 1 else 0

/-- WIND (R262): the carried body rows are copied to the coil, once no bank that holds them is paused (R319, R321); the
engine of a paused core winds nothing (R276). -/
def execWind (core : LCore) (stream : Fin 8) (s : State) : Host.Outcome State Fault Refusal :=
  let t := s.tileOf core
  let k := s.core t
  .next (s.paced t (match k.str.head stream with
    | none => s
    | some q =>
      let d := stripeDesc q.desc
      let st := k.str.st stream
      let rows := d.windRows st.carry
      let len := d.aw * d.c * d.e
      let lines := rows.flatMap fun r => (List.range d.ncbj).map fun j => d.bodyRow j r
      if q.stage != .active || q.wound || !d.windFree st.carry (k.tilesOver stream q) || s.frozen t || (s.core t).clearing then s
      else if lines.any fun a => s.spanHeld t a len then s.portWait t (lines.flatMap fun a => linesOf a len)
      else
        match k.windMark d rows with
        | some a => (s.rowError t a).modStr t fun k => k.modHead stream fun q => q.fail 0x49
        | none =>
          let s := s.modCore t fun k => rows.foldl (fun k r => k.windRow d r) k
          let s := s.modStr t fun k =>
            (k.modHead stream fun q => { q with wound := true }).modStream stream fun x => { x with
              carry := d.carryNext st.carry
              nr := if d.brows = 0 then x.nr else d.brow0 + d.brows }
          (s.count (.stripe t.val) 2 (lines.length * ((len + 63) / 64))).count (.stripe t.val) 4
            (rows.length * (d.cslot / 64))))

/-- The record of a stripe waits for its bank (R319, R321). -/
def State.recordHeld (s : State) (t : Tile) (q : Stripe) : Bool :=
  let d := stripeDesc q.desc
  d.crec && s.spanHeld t d.recAt 16

/-- STRIPE_COMPLETE (R271): a cancelled stripe of the stream, or its head once every tile has been taken and no job
feeds one any more, with its wind complete, or once its last job has been absorbed. -/
def execStripeComplete (core : LCore) (stream : Fin 8) (s : State) : Host.Outcome State Fault Refusal :=
  let t := s.tileOf core
  let k := (s.core t).str
  .next (match k.queue.find? fun q => (stripeDesc q.desc).stream == stream && q.stage == .cancelled with
    | some q => if s.recordHeld t q then s.portWait t [(stripeDesc q.desc).recAt] else s.stripeFinish t q
    | none =>
      match k.head stream with
      | none => s
      | some q =>
        let d := stripeDesc q.desc
        if (s.core t).streamFeeds stream || q.taken < d.jobs then s
        else if s.recordHeld t q then s.portWait t [d.recAt]
        else match q.stage with
        | .active =>
          if q.wound then
            let s := if d.last then s.modStr t fun k => k.modStream stream fun x => { x with
                carry := [], under := false, prev := none } else s
            s.stripeFinish t q
          else s
        | .failed =>
          (s.modStr t fun k => k.modStream stream fun x => { x with error := true }).stripeFinish t q
        | _ => s)

/-- A write of SQ_CTRL (R273, R274). -/
def State.sqCtrl (s : State) (t : Tile) (c : CtxId) (v : Word) : State :=
  let i : Fin 8 := (fld v 4 3).toFin
  let old := (s.core t).str
  let s := s.modStr t fun k => { k with tstream := i }
  let s := if bit v 0 then s.modStr t fun k => { k with queue := k.queue.map fun q =>
      if q.ctx = c ∧ q.stage = .waiting then { q with stage := .cancelled, status := 1 } else q } else s
  let s := (List.finRange 8).foldl (fun s i => s.stripeHead t old i) s
  if bit v 1 then s.trigger t i else s

/-- SQ_STATUS, SQ_SEQ, SQ_ERR and SQ_CTRL as they read (R273). -/
def StripeEngine.reg (k : StripeEngine) (off : Nat) : Word :=
  match off with
  | 0x0 =>
    BitVec.ofNat 32 k.queue.length ||| ((bitsOf 8 8 fun i => k.queue.any fun q =>
      (stripeDesc q.desc).stream.val == i && q.stage == .active).setWidth 32 <<< 4) |||
      (k.doneSeq.setWidth 32 <<< 16)
  | 0x4 => k.next.setWidth 32
  | 0x8 =>
    k.errSeq.setWidth 32 ||| (k.errStatus.setWidth 32 <<< 16) ||| (BitVec.ofNat 32 k.errStream.val <<< 24)
  | _ => BitVec.ofNat 32 k.tstream.val <<< 4

end Sys2Proof.Machine
end

