-- ==== Sys2Proof/Machine/Matrix.lean ====
section
/-! DEFINITION. The matrix array (R185 to R223) and requantisation (R210 to R216, R227, R231 to R233,
R240, R241): job descriptors, set-up checks, grouped accumulation, the epilogue and completion. -/

namespace Sys2Proof.Machine

/-- The fields of a matrix job descriptor (R199). -/
structure MtxDesc where
  ty : Nat
  ta : Bool
  tw : Bool
  asrc : Bool
  pin : Bool
  cbld : Bool
  stat : Bool
  gcode : Nat
  afmt : Nat
  wfmt : Nat
  cbv : Nat
  cbsh : Bool
  asm : Nat
  wsm : Nat
  keep : Bool
  cont : Bool
  crec : Bool
  csync : Bool
  cirq : Bool
  m : Nat
  n : Nat
  k : Nat
  a : Nat
  lda : Nat
  ldw : Nat
  w : Nat
  aside : Nat
  wside : Nat
  za : Int
  oz : Int
  ascale : Word
  wscale : Word
  ol : Nat
  olc : Nat
  ox : Nat
  ow : Nat
  cb : Nat
  pinb : Nat
  bias : Bool
  act : Nat
  pool : Nat
  pw : Nat
  ps : Nat
  pfirst : Bool
  plast : Bool
  ofmt : Nat
  qs : Nat
  trkrow : Bool
  olayout : Nat
  odst : Nat
  och : Fin 8
  oscale : Bool
  biasb : Nat
  p0 : Word
  p1 : Word
  qrs : Word
  trk : Nat
  poolb : Nat
  pooldiv : Word
  out : Nat
  ldo : Nat
  oscaleb : Nat
  obj : BitVec 13
  add : Word
  recAt : Nat
  tag : Word

/-- A descriptor's fields read. -/
def mtxDesc (d : BitVec 1024) : MtxDesc where
  ty := jf d 0 0 2
  ta := bit d 2
  tw := bit d 3
  asrc := bit d 4
  pin := bit d 5
  cbld := bit d 6
  stat := bit d 7
  gcode := jf d 0 8 2
  afmt := jf d 0 10 4
  wfmt := jf d 0 14 4
  cbv := jf d 0 18 2
  cbsh := bit d 20
  asm := jf d 0 21 2
  wsm := jf d 0 23 2
  keep := bit d 25
  cont := bit d 26
  crec := bit d 27
  csync := bit d 28
  cirq := bit d 29
  m := jf d 4 0 6 + 1
  n := jf d 4 7 7 + 1
  k := jf d 4 16 16 + 1
  a := jf d 8 0 32
  lda := jf d 0xC 0 16
  ldw := jf d 0xC 16 16
  w := jf d 0x10 0 32
  aside := jf d 0x14 0 32
  wside := jf d 0x18 0 32
  za := (fld d (8 * 0x1C) 9).toInt
  oz := (fld d (8 * 0x1C + 16) 9).toInt
  ascale := fld d (8 * 0x20) 32
  wscale := fld d (8 * 0x24) 32
  ol := jf d 0x28 0 32
  olc := jf d 0x2C 0 8
  ox := jf d 0x30 0 32
  ow := jf d 0x34 0 32
  cb := jf d 0x38 0 32
  pinb := jf d 0x3C 0 32
  bias := bit d (8 * 0x40)
  act := jf d 0x40 1 2
  pool := jf d 0x40 3 2
  pw := jf d 0x40 5 3 + 1
  ps := jf d 0x40 8 3 + 1
  pfirst := bit d (8 * 0x40 + 11)
  plast := bit d (8 * 0x40 + 12)
  ofmt := jf d 0x40 13 3
  qs := jf d 0x40 16 2
  trkrow := bit d (8 * 0x40 + 18)
  olayout := jf d 0x40 19 2
  odst := jf d 0x40 21 2
  och := (fld d (8 * 0x40 + 23) 3).toFin
  oscale := bit d (8 * 0x40 + 26)
  biasb := jf d 0x44 0 32
  p0 := fld d (8 * 0x48) 32
  p1 := fld d (8 * 0x4C) 32
  qrs := fld d (8 * 0x50) 32
  trk := jf d 0x54 0 8
  poolb := jf d 0x58 0 32
  pooldiv := fld d (8 * 0x5C) 32
  out := jf d 0x60 0 32
  ldo := jf d 0x64 0 16
  oscaleb := jf d 0x68 0 32
  obj := fld d (8 * 0x6C) 13
  add := fld d (8 * 0x70) 32
  recAt := jf d 0x74 0 32
  tag := fld d (8 * 0x78) 32

/-! ### Geometry (R185, R201, R211, R214) -/

/-- A GEMM job. -/
def MtxDesc.gemm (d : MtxDesc) : Bool := d.ty == 0

/-- The integer path (R186). -/
def MtxDesc.int (d : MtxDesc) : Bool := d.afmt ≤ 1

/-- Columns: N, or NCOLS of an EPI job. -/
def MtxDesc.cols (d : MtxDesc) : Nat := if d.ty = 1 then d.k else d.n

/-- Pooled rows (R211). -/
def MtxDesc.mp (d : MtxDesc) : Nat := if d.pool = 0 then d.m else (d.m - d.pw) / d.ps + 1

/-- G and the number of groups (R205). -/
def MtxDesc.g (d : MtxDesc) : Nat := 32 * 2 ^ d.gcode

/-- The number of groups. -/
def MtxDesc.groups (d : MtxDesc) : Nat := (d.k + d.g - 1) / d.g

/-- Activation element bytes. -/
def MtxDesc.ea (d : MtxDesc) : Nat := if d.afmt ≤ 3 then 1 else 2

/-- Weight element size in half bytes (R201). -/
def MtxDesc.ew2 (d : MtxDesc) : Nat :=
  if d.wfmt = 1 ∨ d.wfmt = 2 then 1 else if d.wfmt = 6 ∨ d.wfmt = 7 then 4 else 2

/-- The weight is an index format. -/
def MtxDesc.idx (d : MtxDesc) : Bool := d.wfmt == 2 || d.wfmt == 3

/-- Codebook entries and bytes per entry. -/
def MtxDesc.cbn (d : MtxDesc) : Nat := if d.wfmt = 2 then 16 else 256

/-- Bytes per codebook entry. -/
def MtxDesc.cbe (d : MtxDesc) : Nat := if d.cbv = 3 then 2 else 1

/-- The job loads the codebook tables. -/
def MtxDesc.loads (d : MtxDesc) : Bool := d.ty == 2 || d.cbld

/-- Output element bytes. -/
def MtxDesc.eo (d : MtxDesc) : Nat := if d.ofmt = 0 then 4 else if d.ofmt = 1 then 2 else 1

/-- The job runs an epilogue. -/
def MtxDesc.epi (d : MtxDesc) : Bool := d.ty == 1 || (d.gemm && !d.keep)

/-- The job requantises and writes an output (R211). -/
def MtxDesc.writes (d : MtxDesc) : Bool := d.epi && (d.pool == 0 || d.plast)

/-- The address of an output element (R214). -/
def MtxDesc.outAddr (d : MtxDesc) (r n : Nat) : Nat :=
  let so := d.ldo * 64
  match d.olayout with
  | 0 => d.out + r * so + n * d.eo
  | 1 => d.out + n * so + r * d.eo
  | 2 => d.out + n / 16 * so + r * 16 * d.eo + n % 16 * d.eo
  | _ => d.out + n / 32 * so + r * 32 * d.eo + n % 32 * d.eo

/-- No two output elements share a byte (R214). -/
def MtxDesc.outApart (d : MtxDesc) : Bool :=
  let so := d.ldo * 64
  match d.olayout with
  | 0 => decide (d.mp ≤ 1) || decide (d.cols * d.eo ≤ so)
  | 1 => decide (d.cols ≤ 1) || decide (d.mp * d.eo ≤ so)
  | 2 => decide (d.cols ≤ 16) || decide (d.mp * 16 * d.eo ≤ so)
  | _ => decide (d.cols ≤ 32) || decide (d.mp * 32 * d.eo ≤ so)

/-- The kinds of a range: where it must lie (R202). -/
inductive RangePlace where
  | am | wm | pm | any
  deriving DecidableEq, Repr

/-- A range of a job: where it must lie, its base alignment, base and length in bytes. -/
structure MtxRange where
  place : RangePlace
  align : Nat
  base : Nat
  len : Nat
  deriving DecidableEq, Repr

/-- The inputs of a job (R201, R202). DESIGN CHOICE: a base that a job does not use (BIAS_BASE with BIAS 0, OL_BASE with
OL_COUNT 0) names no range and is held to no rule; R202 does not say. -/
def MtxDesc.inputs (d : MtxDesc) : List MtxRange :=
  let on (c : Bool) (r : MtxRange) : List MtxRange := if c then [r] else []
  let half (x : Nat) : Nat := (x + 1) / 2
  on (d.gemm && !d.asrc) ⟨.am, 64, d.a,
      if d.ta then (d.m - 1) * d.lda * 64 + d.k * d.ea else (d.k - 1) * d.lda * 64 + d.m * d.ea⟩
    ++ on d.gemm ⟨.wm, 64, d.w,
      if d.tw then (d.n - 1) * d.ldw * 64 + half (d.k * d.ew2)
      else (d.k - 1) * d.ldw * 64 + half (d.n * d.ew2)⟩
    ++ on (d.gemm && d.asm == 1) ⟨.any, 64, d.aside, 4 * d.m⟩
    ++ on (d.gemm && d.asm == 2) ⟨.any, 64, d.aside, 256 * (d.groups - 1) + 4 * d.m⟩
    ++ on (d.gemm && d.wsm == 1) ⟨.any, 64, d.wside, 512 * (d.groups - 1) + 4 * d.n⟩
    ++ on (d.gemm && d.wsm == 2) ⟨.any, 64, d.wside, 1024 * (d.groups - 1) + 8 * d.n⟩
    ++ on (d.gemm && d.olc != 0) ⟨.any, 64, d.ol, 2 * d.olc⟩
    ++ on (d.gemm && d.olc != 0) ⟨.am, 64, d.ox, 128 * (d.olc - 1) + 2 * d.m⟩
    ++ on (d.gemm && d.olc != 0) ⟨.wm, 64, d.ow, 256 * (d.olc - 1) + 2 * d.n⟩
    ++ on d.loads ⟨.any, 64, d.cb, (if d.cbsh then 1 else 8) * d.cbn * d.cbe⟩
    ++ on (d.gemm && d.pin) ⟨.pm, 64, d.pinb, 512 * (d.m - 1) + 4 * d.n⟩
    ++ on (d.ty == 1) ⟨.pm, 64, d.pinb, (d.m - 1) * d.lda * 64 + 4 * d.cols⟩
    ++ on (d.epi && d.bias) ⟨.any, 64, d.biasb, 4 * d.cols⟩

/-- The output, the pool buffer and the row scales of a job. DESIGN CHOICE: as for the inputs, a base that the job does not
use names no range. -/
def MtxDesc.outputs (d : MtxDesc) : List MtxRange :=
  let on (c : Bool) (r : MtxRange) : List MtxRange := if c then [r] else []
  let top := (List.range d.cols).foldl (fun t n => max t (d.outAddr (d.mp - 1) n)) 0 + d.eo
  on d.writes ⟨if d.odst = 0 then .pm else .am, 64, d.out, top - d.out⟩
    ++ on (d.epi && d.pool != 0 && !(d.pfirst && d.plast)) ⟨.pm, 64, d.poolb, 512 * (d.mp - 1) + 4 * d.n⟩
    ++ on (d.writes && d.oscale) ⟨.any, 64, d.oscaleb, 4 * d.mp⟩

/-- The completion record. -/
def MtxDesc.recordRange (d : MtxDesc) : List MtxRange := if d.crec then [⟨.any, 16, d.recAt, 16⟩] else []

/-- Two ranges share a byte. -/
def MtxRange.meets (a b : MtxRange) : Bool :=
  decide (a.base < b.base + b.len) && decide (b.base < a.base + a.len)

/-- The range lies in the memory it must lie in. -/
def MtxRange.ok (r : MtxRange) : Bool :=
  localRange r.base r.len && (match r.place, memKind r.base with
    | .am, some (.am, _) => true
    | .wm, some (.wm, _) => true
    | .pm, some (.pm, _) => true
    | .any, some _ => true
    | _, _ => false)

/-! ### Set-up checks (R203, R204, R207 to R209, R219, R220) -/

/-- The words that an EPI or CBLOAD job may use, as masks (R200, R216). -/
def mtxUsed (ty : Nat) : List Word :=
  if ty = 1 then
    [0x38000083, 0xFFFF003F, 0, 0xFFFF, 0, 0, 0, 0x01FF0000, 0, 0, 0, 0, 0, 0, 0, 0xFFFFFFFF,
      0x07FFE007, 0xFFFFFFFF, 0xFFFFFFFF, 0xFFFFFFFF, 0xFFFFFFFF, 0xFF, 0, 0, 0xFFFFFFFF, 0xFFFF,
      0xFFFFFFFF, 0x1FFF, 0xFFFFFFFF, 0xFFFFFFFF, 0xFFFFFFFF, 0]
  else if ty = 2 then
    [0x381FC003, 0, 0, 0, 0, 0, 0, 0, 0, 0, 0, 0, 0, 0, 0xFFFFFFFF, 0, 0, 0, 0, 0, 0, 0, 0, 0, 0, 0, 0,
      0x1FFF, 0xFFFFFFFF, 0xFFFFFFFF, 0xFFFFFFFF, 0]
  else
    [0x3FFFFFFF, 0xFFFF3FBF, 0xFFFFFFFF, 0xFFFFFFFF, 0xFFFFFFFF, 0xFFFFFFFF, 0xFFFFFFFF, 0x01FF01FF,
      0xFFFFFFFF, 0xFFFFFFFF, 0xFFFFFFFF, 0xFF, 0xFFFFFFFF, 0xFFFFFFFF, 0xFFFFFFFF, 0xFFFFFFFF,
      0x07FFFFFF, 0xFFFFFFFF, 0xFFFFFFFF, 0xFFFFFFFF, 0xFFFFFFFF, 0xFF, 0xFFFFFFFF, 0xFFFFFFFF,
      0xFFFFFFFF, 0xFFFF, 0xFFFFFFFF, 0x1FFF, 0xFFFFFFFF, 0xFFFFFFFF, 0xFFFFFFFF, 0]

/-- Code 0x40: a reserved or ignored field, or a reserved value. -/
def MtxDesc.bad40 (d : MtxDesc) (raw : BitVec 1024) : Bool :=
  !((List.range 32).all fun i => dword raw i &&& ~~~(listAt 0 (mtxUsed d.ty) i) == 0) ||
    d.ty == 3 || (d.gemm && (d.gcode == 3 || 5 < d.afmt || d.asm == 3 || d.wsm == 3 || d.pool == 3)) ||
    (d.ty != 1 && 7 < d.wfmt) || 5 < d.ofmt || d.odst == 3 || (d.cont && d.pin) ||
    (d.gemm && d.asrc && (d.a / 8 != 0 || d.lda != 0)) ||
    (d.gemm && d.pool != 0 && !d.plast && (d.ofmt != 0 || d.qs != 0 || d.olayout != 0))

/-- An operand combination of R186. -/
def MtxDesc.combo (d : MtxDesc) : Bool :=
  if d.afmt ≤ 1 then d.wfmt == 0 || d.wfmt == 1 || (d.idx && d.cbv == 0)
  else if d.afmt ≤ 3 then d.wfmt == 4 || d.wfmt == 5 || (d.idx && (d.cbv == 1 || d.cbv == 2))
  else d.wfmt == 6 || d.wfmt == 7 || (d.idx && d.cbv == 3)

/-- The tables loaded serve the job (R188). -/
def Mtx.cbMatches (x : Mtx) (d : MtxDesc) : Bool :=
  x.cbValid && x.cb256 == (d.wfmt == 3) && x.cbv.toNat == d.cbv && x.cbShared == d.cbsh

/-- The trackers a job names: TRK, or TRK + r under TRKROW. -/
def MtxDesc.trackers (d : MtxDesc) : List Nat :=
  if d.trkrow then (List.range d.mp).map (d.trk + ·) else [d.trk]

/-- OFMT's QFMT (R232). -/
def MtxDesc.qfmt (d : MtxDesc) : Nat := d.ofmt - 2

/-- Code 0x41: formats, layouts and combinations. DESIGN CHOICE: a codebook load whose WFMT is no index format is one of
them (R188 and R220 give it no code). -/
def MtxDesc.bad41 (d : MtxDesc) (x : Mtx) : Bool :=
  (d.gemm && !d.combo) || (d.loads && !d.idx) || (d.gemm && d.idx && !d.cbld && !x.cbMatches d) ||
    (d.gemm && ((d.ta || d.tw) && (d.wfmt == 1 || d.wfmt == 2) || d.ta && d.asrc)) ||
    (d.gemm && d.asrc && (d.asm != 0 || d.olc != 0)) ||
    (d.ty != 2 && ((d.ofmt ≤ 1) != (d.qs == 0) || (d.oscale && d.qs ≤ 1))) ||
    (d.writes && d.qs == 3 && d.trackers.any fun i => i ≤ 255 && (x.tracker i).qfmt != d.qfmt)

/-- Code 0x42: dimensions, strides, windows and tracker indexes. The rules on ACT, POOL, trackers, QS, OSCALE and OZ name no
exception for a KEEP job (R210 to R212, R227, R233, R240); its output stride alone is not looked at, since it has no
output (R209). -/
def MtxDesc.bad42 (d : MtxDesc) : Bool :=
  (d.gemm && !d.asrc && (d.lda == 0 || d.lda * 64 < (if d.ta then d.k else d.m) * d.ea)) ||
    (d.gemm && (d.ldw == 0 || 2 * (d.ldw * 64) < (if d.tw then d.k else d.n) * d.ew2)) ||
    (d.gemm && 128 < d.olc) || (d.ty == 1 && (4096 < d.k || d.lda == 0)) ||
    (d.act == 2 && flt d.p1 d.p0) || (d.pool != 0 && (d.pw < 2 || d.m < d.pw)) ||
    (d.writes && (d.ldo == 0 || !d.outApart)) || ((d.qs == 3 || d.stat) && d.trackers.any (255 < ·))

/-- Code 0x45: OUT, POOL and OSCALE ranges disjoint from each other and from every input, but for an
output that accumulates in place over the PIN tile or the EPI input, the only inputs that must lie in PM (R202, R204):
the address at fault. -/
def MtxDesc.overlap (d : MtxDesc) : Option Nat :=
  let outs := d.outputs
  let inPlace := d.out == d.pinb && d.ofmt == 0 && d.olayout == 0 && d.ldo == 8
  (List.range outs.length).findSome? fun n => outs[n]?.bind fun o =>
    if (d.inputs.any fun i => o.meets i && !(inPlace && o.base == d.out && i.place == .pm)) ||
        ((outs.eraseIdx n).any fun p => o.meets p) then some o.base else none

/-- The outlier list (R208). -/
def MtxDesc.outliers (d : MtxDesc) (k : Core) : List Nat :=
  (List.range d.olc).map fun j => ofLe (k.bytes (d.ol + 2 * j) 2)

/-- The outlier indices ascend strictly and lie below K (R208): the address of the first that does
not. -/
def MtxDesc.badOutlier (d : MtxDesc) (k : Core) : Option Nat :=
  let l := d.outliers k
  (firstIdx d.olc fun j => decide (d.k ≤ listAt 0 l j) || (j != 0 && listAt 0 l j ≤ listAt 0 l (j - 1))).map
    fun j => d.ol + 2 * j

/-- The scale, column sum and zero point of a weight column in a group (R201, R205). -/
def MtxDesc.wsideAt (d : MtxDesc) (k : Core) (g n : Nat) : Word × Int × Int :=
  match d.wsm with
  | 1 =>
    let w : Word := leVal 32 (k.bytes (d.wside + 512 * g + 4 * n) 4)
    (w <<< 16, (fld w 16 16).toInt, 0)
  | 2 =>
    let w : DWord := leVal 64 (k.bytes (d.wside + 1024 * g + 8 * n) 8)
    (fld w 0 32, (fld w 32 16).toInt, (fld w 48 8).toInt)
  | _ => (d.wscale, 0, 0)

/-- Code 0x48: zero points (R207, R233). -/
def MtxDesc.bad48 (d : MtxDesc) (k : Core) : Bool :=
  (d.gemm && !d.int && (d.za != 0 || (d.wsm == 2 && (List.range d.groups).any fun g =>
      (List.range d.n).any fun n => (d.wsideAt k g n).2.2 != 0))) ||
    (d.gemm && d.int && d.wsm == 0 && d.za != 0) || (2 ≤ d.qs && d.oz != 0)

/-- The first marked address of a list of ranges. -/
def Core.firstMark (k : Core) (rs : List MtxRange) : Option Nat :=
  rs.findSome? fun r => (firstIdx r.len fun i => k.marked (r.base + i)).map (r.base + ·)

/-- Two addresses of a strided operand that are read lie in these runs of bytes. -/
def strided (base stride rows len : Nat) : List MtxRange :=
  (List.range rows).map fun i => ⟨.any, 1, base + i * stride, len⟩

/-- The outlier list of a job (R201). -/
def MtxDesc.olReads (d : MtxDesc) : List MtxRange := if d.gemm ∧ d.olc ≠ 0 then [⟨.any, 1, d.ol, 2 * d.olc⟩] else []

/-- The WS8 side words that the set-up of a floating-point job reads for their zero points (R207). -/
def MtxDesc.zeroReads (d : MtxDesc) : List MtxRange :=
  if d.gemm ∧ !d.int ∧ d.wsm = 2 then strided d.wside 1024 d.groups (8 * d.n) else []

/-- The set-up checks in code order: the status and the address at fault (R220). A marked word that the set-up reads is a
matrix job's 0x49 (R317). DESIGN CHOICE: it is found where its bytes would be checked, before 0x46 and before 0x48. -/
def MtxDesc.check (d : MtxDesc) (raw : BitVec 1024) (k : Core) (seq : BitVec 16) : Byte × Nat :=
  let ranges := d.inputs ++ d.outputs ++ d.recordRange
  if d.bad40 raw then (0x40, 0)
  else if d.bad41 k.mtx then (0x41, 0)
  else if d.bad42 then (0x42, 0)
  else match ranges.find? fun r => !r.ok with
  | some r => (0x43, r.base)
  | none =>
  match ranges.find? fun r => r.base % r.align != 0 with
  | some r => (0x44, r.base)
  | none =>
  match d.overlap with
  | some a => (0x45, a)
  | none =>
  match k.firstMark d.olReads with
  | some a => (0x49, a)
  | none =>
  match (if d.gemm then d.badOutlier k else none) with
  | some a => (0x46, a)
  | none =>
  if d.cont && !(match k.mtx.kept with
      | some q => q.seq + 1 == seq && q.m == d.m && q.n == d.n
      | none => false) then (0x47, 0)
  else match k.firstMark d.zeroReads with
  | some a => (0x49, a)
  | none =>
  if d.bad48 k then (0x48, 0)
  else (0, 0)

/-! ### Grouped accumulation (R187, R188, R205, R207) -/

/-- The weight bits of (k, n), nibbles as R187 gives. -/
def MtxDesc.wbits (d : MtxDesc) (c : Core) (k n : Nat) : Nat :=
  let lin := if d.tw then k else n
  let row := if d.tw then n else k
  let a := d.w + row * (d.ldw * 64)
  match d.ew2 with
  | 1 => (ofLe (c.bytes (a + lin / 2) 1)) / 16 ^ (lin % 2) % 16
  | 2 => ofLe (c.bytes (a + lin) 1)
  | _ => ofLe (c.bytes (a + 2 * lin) 2)

/-- The codebook entry that a column's index reads (R188). -/
def MtxDesc.cbEntry (d : MtxDesc) (c : Core) (n i : Nat) : BitVec 16 :=
  Tab.get 0 c.mtx.cb (256 * (if d.cbsh then 0 else n / 16) + i)

/-- A weight on the integer path (R187). -/
def MtxDesc.wInt (d : MtxDesc) (c : Core) (k n : Nat) : Int :=
  let v := d.wbits c k n
  match d.wfmt with
  | 0 => (BitVec.ofNat 8 v).toInt
  | 1 => (BitVec.ofNat 4 v).toInt
  | _ => (fld (d.cbEntry c n v) 0 8).toInt

/-- A pattern as a floating-point operand: formats 2 E4M3, 3 E5M2, 4 BF16, 5 FP16. -/
def operandFp (fmt v : Nat) : Fp :=
  match fmt with
  | 2 => unpackE4 v
  | 3 => e5m2.unpack v
  | 4 => bf16.unpack v
  | _ => fp16.unpack v

/-- A weight on the floating path (R187). -/
def MtxDesc.wFp (d : MtxDesc) (c : Core) (k n : Nat) : Fp :=
  let v := d.wbits c k n
  if d.idx then operandFp (d.cbv + 1) (d.cbEntry c n v).toNat
  else operandFp (d.wfmt - 2) v

/-- The bits of activation (m, k): from AM, or from the tile of a stripe stream. -/
def MtxDesc.abits (d : MtxDesc) (c : Core) (sd : Option (StripeDesc × Tile2)) (m k : Nat) : Nat :=
  match sd with
  | some (q, t) => c.stripeByte q (q.actPlace t m k)
  | none =>
    let a := if d.ta then d.a + m * (d.lda * 64) + k * d.ea else d.a + k * (d.lda * 64) + m * d.ea
    ofLe (c.bytes a d.ea)

/-- An activation on the integer path. -/
def MtxDesc.aInt (d : MtxDesc) (v : Nat) : Int := if d.afmt = 0 then (BitVec.ofNat 8 v).toInt else v

/-- The activation scale of a row in a group (R205). -/
def MtxDesc.ascaleAt (d : MtxDesc) (c : Core) (m g : Nat) : Word :=
  match d.asm with
  | 1 => leVal 32 (c.bytes (d.aside + 4 * m) 4)
  | 2 => leVal 32 (c.bytes (d.aside + 256 * g + 4 * m) 4)
  | _ => d.ascale

/-- result[m][n] (R205). -/
def MtxDesc.result (d : MtxDesc) (c : Core) (sd : Option (StripeDesc × Tile2)) (kept : Tab Word)
    (m n : Nat) : Word :=
  let ol := d.outliers c
  let start : Word :=
    if d.cont then Tab.get 0 kept (128 * m + n)
    else if d.pin then leVal 32 (c.bytes (d.pinb + 512 * m + 4 * n) 4) else 0
  let p := (List.range d.groups).foldl (fun (p : Word) g =>
    let ng := min d.g (d.k - g * d.g)
    let ks := (List.range ng).map (g * d.g + ·)
    let (ws, colsum, zw) := d.wsideAt c g n
    let gsum : Word :=
      if d.int then
        let sr := ks.foldl (fun (a : Int × Int) k =>
          let x := if ol.contains k then d.za else d.aInt (d.abits c sd m k)
          (a.1 + x * d.wInt c k n, a.2 + x)) (0, 0)
        fofInt (sr.1 - zw * sr.2 - d.za * colsum + ng * d.za * zw)
      else
        toF32 (ks.foldl (fun (a : Fp) k =>
          let x := if ol.contains k then Fp.fin false 0 0 else operandFp d.afmt (d.abits c sd m k)
          a.add (x.mul (d.wFp c k n))) (.fin false 0 0))
    fadd p (fmul gsum (fmul (d.ascaleAt c m g) ws))) start
  if d.olc = 0 then p
  else
    fadd p ((List.range d.olc).foldl (fun (o : Word) j =>
      let xo : Word := leVal 32 ([0, 0] ++ c.bytes (d.ox + 128 * j + 2 * m) 2)
      let wo : Word := leVal 32 ([0, 0] ++ c.bytes (d.ow + 256 * j + 2 * n) 2)
      ffma xo wo o) 0)

/-- The sums of a job. -/
def MtxDesc.sums (d : MtxDesc) (c : Core) (sd : Option (StripeDesc × Tile2)) (kept : Tab Word) : Tab Word :=
  (List.range d.m).foldl (fun t m => (List.range d.n).foldl (fun t n =>
    Tab.set 0 t (128 * m + n) (d.result c sd kept m n)) t) []

/-- The bytes that the feed of a GEMM job reads (R196, R220). -/
def MtxDesc.feedReads (d : MtxDesc) : List MtxRange :=
  let on (c : Bool) (r : List MtxRange) : List MtxRange := if c then r else []
  let half (x : Nat) : Nat := (x + 1) / 2
  on (!d.asrc) (if d.ta then strided d.a (d.lda * 64) d.m (d.k * d.ea)
      else strided d.a (d.lda * 64) d.k (d.m * d.ea))
    ++ (if d.tw then strided d.w (d.ldw * 64) d.n (half (d.k * d.ew2))
      else strided d.w (d.ldw * 64) d.k (half (d.n * d.ew2)))
    ++ on (d.asm == 1) [⟨.any, 1, d.aside, 4 * d.m⟩]
    ++ on (d.asm == 2) (strided d.aside 256 d.groups (4 * d.m))
    ++ on (d.wsm == 1) (strided d.wside 512 d.groups (4 * d.n))
    ++ on (d.wsm == 2) (strided d.wside 1024 d.groups (8 * d.n))
    ++ on (d.olc != 0) (⟨.any, 1, d.ol, 2 * d.olc⟩ :: strided d.ox 128 d.olc (2 * d.m)
      ++ strided d.ow 256 d.olc (2 * d.n))
    ++ on d.pin (strided d.pinb 512 d.m (4 * d.n))

/-! ### Epilogue (R210 to R214, R241) -/

/-- Bias and activation of a value (R210). -/
def MtxDesc.activate (d : MtxDesc) (c : Core) (n : Nat) (y : Word) : Word :=
  let y := if (f32 y).isNan then 0x7FC00000 else y
  let y := if d.bias then fadd y (leVal 32 (c.bytes (d.biasb + 4 * n) 4)) else y
  if (f32 y).isNan then y
  else match d.act with
  | 1 => if flt y 0 then 0 else y
  | 2 => if flt y d.p0 then d.p0 else if flt d.p1 y then d.p1 else y
  | 3 => if flt y 0 then fmul y d.p0 else y
  | _ => y

/-- The combination of pooling: the maximum of R165, or a sum (R211). -/
def MtxDesc.combine (d : MtxDesc) (a b : Word) : Word :=
  if d.pool = 1 then toF32 ((f32 a).max (f32 b)) else fadd a b

/-- Pooled row `r`, column `n`, before POOL_DIV: what PLAST = 0 stores (R211). -/
def MtxDesc.pooled (d : MtxDesc) (c : Core) (y : Nat → Nat → Word) (r n : Nat) : Word :=
  if d.pool = 0 then y r n
  else
    let h := (List.range (d.pw - 1)).foldl (fun h i => d.combine h (y (r * d.ps + i + 1) n)) (y (r * d.ps) n)
    if d.pfirst then h else d.combine (leVal 32 (c.bytes (d.poolb + 512 * r + 4 * n) 4)) h

/-- A row that goes on to requantisation. -/
def MtxDesc.rowVal (d : MtxDesc) (h : Word) : Word := if d.pool = 2 then fmul h d.pooldiv else h

/-- The largest magnitude of a list, NaNs ignored. -/
def maxAbs (l : List Word) : Word :=
  l.foldl (fun m y =>
    let a := y &&& 0x7FFFFFFF
    if !(f32 y).isNan && flt m a then a else m) 0

/-- The scale and inverse scale of ROWDYN (R241). -/
def rowDyn (qm mx : Word) : Word × Word :=
  if mx = 0 then (0x3F800000, 0x3F800000)
  else
    let rs := fdiv qm mx
    (fdiv mx qm, if flt qm (fmul mx rs) then rs - 1 else rs)

/-- A value requantised: its bits, and whether it counts as clipped (R212, R213). -/
def MtxDesc.quant (d : MtxDesc) (y rs : Word) : Nat × Bool :=
  let z := f32 (fmul y rs)
  let big : Int := 2 ^ 200
  let int (lo hi : Int) (w : Nat) : Nat × Bool :=
    let v := (if z.isNan then 0 else z.toInt (-big) big) + d.oz
    let q := sat lo hi v
    ((BitVec.ofInt w q).toNat, z.isNan || q != v)
  let beyond (lim : Nat) : Bool := z.isNan || decide ((Fp.ofInt lim).cmp z.abs < 0)
  match d.ofmt with
  | 0 => (y.toNat, false)
  | 1 => (bf16.pack (f32 y), false)
  | 2 => int (-128) 127 8
  | 3 => int 0 255 8
  | 4 => (packE4 z, beyond 448)
  | _ => (packE5 z, beyond 57344)

/-- What an epilogue comes to: the bytes written, the clipped count, and the deliveries. -/
structure EpiOut where
  writes : List (Nat × List Byte)
  clipped : Nat
  deliveries : List (Nat × Word × Nat × Nat)

/-- The epilogue of a job on its values (R210 to R214, R227). -/
def MtxDesc.epilogue (d : MtxDesc) (c : Core) (y : Nat → Nat → Word) : EpiOut :=
  let act (m n : Nat) : Word := d.activate c n (y m n)
  let rows := (List.range d.mp).map fun r => (List.range d.cols).map fun n => d.pooled c act r n
  if !d.writes then
    ⟨(List.range d.mp).flatMap fun r => (List.range d.cols).map fun n =>
      (d.poolb + 512 * r + 4 * n, leBytes (listAt 0 (listAt [] rows r) n) 4), 0, []⟩
  else
    let rows := rows.map fun l => l.map d.rowVal
    let scale (r : Nat) : Word × Word :=
      match d.qs with
      | 1 => (0, d.qrs)
      | 2 => rowDyn (qmax d.qfmt) (maxAbs (listAt [] rows r))
      | 3 =>
        let t := c.mtx.tracker (if d.trkrow then d.trk + r else d.trk)
        (t.scale, t.inv)
      | _ => (0, 0x3F800000)
    let q := (List.range d.mp).map fun r => (listAt [] rows r).map fun v => d.quant v (scale r).2
    let clip (r : Nat) : Nat := ((listAt [] q r).filter (·.2)).length
    let total := (List.range d.mp).foldl (fun n r => n + clip r) 0
    let out := (List.range d.mp).flatMap fun r => (List.range d.cols).map fun n =>
      (d.outAddr r n, leBytes (BitVec.ofNat 32 (listAt (0, false) (listAt [] q r) n).1) d.eo)
    let sc := if d.oscale then (List.range d.mp).map fun r => (d.oscaleb + 4 * r, leBytes (scale r).1 4)
      else []
    let del := if !d.stat then []
      else if d.trkrow then (List.range d.mp).map fun r =>
        (d.trk + r, maxAbs (listAt [] rows r), d.cols, clip r)
      else [(d.trk, maxAbs rows.flatten, d.mp * d.cols, total)]
    ⟨out ++ sc, total, del⟩

/-- The input rows of an EPI job (R201, R216). -/
def MtxDesc.epiRows (d : MtxDesc) : List MtxRange :=
  if d.ty = 1 then strided d.pinb (d.lda * 64) d.m (4 * d.cols) else []

/-- The bytes that an epilogue reads besides its values (R196, R220). -/
def MtxDesc.epiReads (d : MtxDesc) : List MtxRange :=
  (if d.bias then [⟨.any, 1, d.biasb, 4 * d.cols⟩] else [])
    ++ (if d.pool ≠ 0 ∧ !d.pfirst then strided d.poolb 512 d.mp (4 * d.n) else [])

/-! ### The queue -/

/-- The matrix unit changed. -/
def State.modMtx (s : State) (t : Tile) (f : Mtx → Mtx) : State :=
  s.modCore t fun k => { k with mtx := f k.mtx }

/-- A job of the queue changed. -/
def Mtx.modJob (x : Mtx) (seq : BitVec 16) (f : MtxJob → MtxJob) : Mtx :=
  { x with queue := x.queue.map fun j => if j.seq = seq then f j else j }

/-- The kept sums after a job has failed: discarded (R209, R220). DEDUCED: but for those that a later job of the queue has
kept meanwhile, since a failed job does not affect later ones (R220). -/
def Mtx.keptAfter (x : Mtx) (seq : BitVec 16) : Option Kept :=
  x.kept.filter fun q => (x.queue.dropWhile fun j => j.seq != seq).any fun j => j.seq == q.seq && j.seq != seq

/-- A job ends with a status of failure (R209, R220). -/
def State.mtxFail (s : State) (t : Tile) (seq : BitVec 16) (status : Byte) (a : Nat) : State :=
  s.modMtx t fun x => { x.modJob seq fun j => { j with
    stage := .finished, status := status, errAddr := BitVec.ofNat 32 a, sums := [] } with kept := x.keptAfter seq }

/-- The kept sums that a job continues (R209): they stay in its cells from the start of its feed. -/
def Mtx.continued (x : Mtx) (d : MtxDesc) : Tab Word :=
  if d.cont then match x.kept with
    | some q => q.sums
    | none => []
  else []

/-- `mjob` (R189, R190, R192). -/
def semMjob (e : Env) (d : BitVec 5) (m : MemAddr) : Res :=
  let r := e.x.lm m .word
  let a := r.1.toNat
  let raw : BitVec 1024 := leVal 1024 (e.core.bytes a 128)
  let x := e.core.mtx
  if !localOk a then e.exc 0x05 r.1
  else if a % 128 ≠ 0 then e.exc 0x06 r.1
  else if e.core.sbOwn e.c then .stall id
  else if e.s.spanHeld e.t a 128 then e.portStall (linesOf a 128)
  else if !(e.core.markedWords a 128).isEmpty then .exc 0x0E r.1 false fun s => s.readMarks e.t a 128
  else if (e.s.board.map.get e.lc).mtxOut || !e.s.enabled (.mtx e.t.val) then e.exc 0x11 r.1
  else if 8 ≤ x.queue.length then .block 6 (.queue 0) id
  else
    let j : MtxJob := ⟨raw, x.next, e.c, e.x.func, .queued, 0, 0, 0, none, [], false⟩
    .ok (fun s => (s.modCtx e.t e.c fun y => y.setD d (x.next.setWidth 32)).modMtx e.t fun x =>
      { x with queue := x.queue ++ [j], next := x.next + 1 }) .seq

/-- The job that is next to start: the first that is queued, with the jobs before it (R193). -/
def Mtx.nextStart : List MtxJob → List MtxJob → Option (MtxJob × List MtxJob)
  | _, [] => none
  | before, j :: js => if j.stage == .queued then some (j, before) else Mtx.nextStart (before ++ [j]) js

/-- The ordering conditions of R193, and a free partial-sum register in every cell: each has two, and every tile that
waits for its epilogue holds one (R185). -/
def MtxJob.mayStart (j : MtxJob) (before : List MtxJob) : Bool :=
  let d := mtxDesc j.desc
  (before.all fun b => b.stage != .feeding) &&
    (!d.gemm || decide (countIdx before.length (fun i => match before[i]? with
      | some b => b.stage == .fed && (mtxDesc b.desc).gemm
      | none => false) ≤ 1)) &&
    before.all fun b => b.stage == .finished ||
      !((mtxDesc b.desc).outputs.any fun o => d.inputs.any fun i => o.meets i)

/-- The codebook tables as a load leaves them (R188, R201). -/
def MtxDesc.loadCb (d : MtxDesc) (c : Core) (x : Mtx) : Mtx :=
  let tables := if d.cbsh then 1 else 8
  let cb := (List.range (tables * d.cbn)).foldl (fun cb i =>
    Tab.set 0 cb (256 * (i / d.cbn) + i % d.cbn) (leVal 16 (c.bytes (d.cb + i * d.cbe) d.cbe)))
    (if d.cbsh then Tab.clearRange x.cb 0 256 else [])
  { x with cb := cb, cbValid := true, cb256 := d.wfmt == 3, cbv := BitVec.ofNat 2 d.cbv, cbShared := d.cbsh }

/-- What the stripe stream gives to a job that has passed its set-up (R269, R270): nothing yet, with whether the head
stripe waits for triggers, a tile, or a refusal with its cause. -/
inductive TileGrant where
  | wait (trig : Bool)
  | tile (t : Tile2)
  | refused (cause : BitVec 2) (absorb : Bool)

/-- The tile that a job takes from its stream (R269, R270). -/
def StripeEngine.grant (k : StripeEngine) (d : MtxDesc) : TileGrant :=
  let i : Fin 8 := ⟨d.a % 8, Nat.mod_lt _ (by omega)⟩
  match k.head i with
  | none => .refused 1 false
  | some q =>
    let sd := stripeDesc q.desc
    match q.stage with
    | .waiting => .wait (decide ((k.st i).trigs.toNat < sd.trig))
    | .cancelled => .wait false
    | st =>
      if sd.jobs ≤ q.taken then .wait false
      else
        let tile := sd.tile q.taken
        if d.m ≠ tile.tw ∨ d.k ≠ sd.k ∨ d.ea ≠ sd.e then .refused 2 false
        else if st == .failed then .refused 3 true
        else .tile tile

/-- The start of a job that has passed its set-up: its codebook, its tile, and its feed (R193). One that waits for its
stream has still passed it (R232, R269). -/
def State.mtxFeed (s : State) (t : Tile) (j : MtxJob) : State :=
  let d := mtxDesc j.desc
  let i : Fin 8 := ⟨d.a % 8, Nat.mod_lt _ (by omega)⟩
  let k := s.core t
  let load (s : State) : State ⊕ State :=
    if !d.loads then .inl s
    else match k.firstMark [⟨.any, 1, d.cb, (if d.cbsh then 1 else 8) * d.cbn * d.cbe⟩] with
      | some a =>
        .inr (((s.rowError t a).mtxFail t j.seq 0x49 a).modMtx t fun x => { x with cbValid := false })
      | none => .inl (s.modMtx t fun x => d.loadCb k x)
  if d.ty = 1 then s.modMtx t fun x => { x.modJob j.seq fun j => { j with stage := .fed } with kept := none }
  else if d.ty = 2 then
    match load s with
    | .inl s => s.modMtx t fun x => { x.modJob j.seq fun j => { j with stage := .finished } with kept := none }
    | .inr s => s
  else
    let start (s : State) (tile : Option Tile2) : State :=
      match load s with
      | .inl s => s.modMtx t fun x => { x.modJob j.seq fun j => { j with
          stage := .feeding, tile := tile, sums := x.continued d } with kept := none }
      | .inr s => s
    let take (s : State) : State := s.modStr t fun k => k.modHead i fun q => { q with taken := q.taken + 1 }
    if !d.asrc then start s none
    else match k.str.grant d with
      | .wait trig =>
        let s := s.modMtx t fun x => x.modJob j.seq fun j => { j with checked := true }
        if trig then s.count (.stripe t.val) 5 1 else s
      | .tile tile => start (take s) (some tile)
      | .refused cause absorb =>
        let s := if absorb then take s else s
        (s.jobErr t j.seq cause i).mtxFail t j.seq 0x4A 0

/-- The bytes that the set-up and the codebook load of a job read (R217, R220). -/
def MtxDesc.setupReads (d : MtxDesc) : List MtxRange :=
  (if d.loads then [⟨.any, 1, d.cb, (if d.cbsh then 1 else 8) * d.cbn * d.cbe⟩] else [])
    ++ d.olReads ++ d.zeroReads

/-- Some bank that an engine needs for these ranges takes no access now (R319, R321). -/
def State.rangesHeld (s : State) (t : Tile) (rs : List MtxRange) : Bool :=
  (s.core t).clearing || ((s.core t).rmapBusy && rs.any fun r => s.spanHeld t r.base r.len)

/-- A job that waits for these ranges waits at AM ports (R299). -/
def State.rangesWait (s : State) (t : Tile) (rs : List MtxRange) : State :=
  s.portWait t (rs.flatMap fun r => linesOf r.base r.len)

/-- MATRIX_JOB_START (R193): the next queued job runs its set-up and starts, unless the array is out (R239) or a bank
that the set-up reads is paused. A job that has passed its set-up does not run it again (R232). -/
def execMatrixJobStart (core : LCore) (s : State) : Host.Outcome State Fault Refusal :=
  let t := s.tileOf core
  let k := s.core t
  .next (s.paced t (match Mtx.nextStart [] k.mtx.queue with
    | none => s
    | some (j, before) =>
      let d := mtxDesc j.desc
      if !j.mayStart before || s.frozen t || (s.board.map.get core).mtxOut then s
      else if s.rangesHeld t d.setupReads then s.rangesWait t d.setupReads
      else match (if j.checked then (0, 0) else d.check j.desc k j.seq) with
      | (0, _) => s.mtxFeed t j
      | (0x49, a) => (s.rowError t a).mtxFail t j.seq 0x49 a
      | (b, a) => s.mtxFail t j.seq b a))

/-- MATRIX_FEED_DONE (R193, R205): the feed and merge of the job being fed end, once no bank that they read is
paused; a feed that finds one is stalled (R218, R275). DESIGN CHOICE: every operand, side and outlier read of a feed falls
here, where R196 lets each row take the old contents or the new ones of a write made meanwhile; the outlier list and the zero
points that the set-up has checked are read again as they are then. -/
def execMatrixFeedDone (core : LCore) (s : State) : Host.Outcome State Fault Refusal :=
  let t := s.tileOf core
  let k := s.core t
  .next (s.paced t (match k.mtx.queue.find? fun j => j.stage == .feeding with
    | none => s
    | some j =>
      let d := mtxDesc j.desc
      if s.rangesHeld t d.feedReads then (s.rangesWait t d.feedReads).count (.mtx t.val) 2 1 else
      let done (s : State) (sd : Option (StripeDesc × Tile2)) : State :=
        match k.firstMark d.feedReads with
        | some a => (s.rowError t a).mtxFail t j.seq 0x49 a
        | none =>
          let sums := d.sums k sd j.sums
          s.modMtx t fun x =>
            if d.keep then
              { x.modJob j.seq fun j => { j with stage := .finished } with
                kept := some ⟨j.seq, d.m, d.n, sums⟩ }
            else { x.modJob j.seq fun j => { j with stage := .fed, sums := sums } with kept := none }
      match j.tile with
      | none => done s none
      | some tile =>
        match k.str.head tile.stream with
        | none => (s.jobErr t j.seq 3 tile.stream).mtxFail t j.seq 0x4A 0
        | some q =>
          let sd := stripeDesc q.desc
          let rows := sd.tileRows tile
          if rows.any fun r => r.heldAt s t then (s.portWait t (rows.filterMap StripePlace.amLine)).count (.mtx t.val) 2 1 else
          let s := (s.count (.stripe t.val) 2 (rows.filter (·.isAm)).length).count (.stripe t.val) 3
            (rows.filter fun r => !r.isAm).length
          match rows.find? k.rowMarked with
          | some r =>
            let s := match r with
              | .am a => s.rowError t a
              | _ => s
            let s := s.modStr t fun k => k.modHead tile.stream fun q => q.fail 0x49
            (s.jobErr t j.seq 3 tile.stream).mtxFail t j.seq 0x4A 0
          | none =>
            let s := s.modStr t fun k => k.modHead tile.stream fun q => { q with fed := q.fed + 1 }
            done (s.count (.stripe t.val) 1 1) (some (sd, tile))))

/-- The bytes of a job put in the banks. -/
def Core.putAll (k : Core) (ws : List (Nat × List Byte)) : Core :=
  ws.foldl (fun k w => k.bankWrite w.1 w.2) k

/-- The first row of an EPI job that holds an uncorrectable word, with that word (R216, R220). -/
def Core.epiFault (k : Core) (d : MtxDesc) : Option (Nat × Nat) :=
  if d.ty ≠ 1 then none
  else (List.range d.m).findSome? fun r =>
    (k.firstMark [⟨.any, 1, d.pinb + r * (d.lda * 64), 4 * d.cols⟩]).map fun a => (r, a)

/-- MATRIX_EPILOGUE (R193, R210): the oldest finished tile runs its epilogue; ODST 2 then starts its DMA
channel (R215). An EPI job whose row holds an uncorrectable word ends there with the rows before written (R220). DESIGN
CHOICE: under ROWDYN too a row's first pass comes directly before its second, and the clipped count of such a job is that
of the rows written. DESIGN CHOICE: every input row is read before any output row is written, also where an EPI job in place
has an LDA other than its LDO of 8 (R216 does not say). DESIGN CHOICE: a job that waits for its output transfer still counts
as in its epilogue, and holds off the next job's (R197 does not say). -/
def execMatrixEpilogue (core : LCore) (s : State) : Host.Outcome State Fault Refusal :=
  let t := s.tileOf core
  let k := s.core t
  .next (s.paced t (if k.mtx.queue.any fun j => j.stage == .output then s else
    match k.mtx.queue.find? fun j => j.stage != .finished with
    | none => s
    | some j =>
      if j.stage != .fed then s
      else
        let d := mtxDesc j.desc
        let rs := d.epiReads ++ d.epiRows ++ d.outputs
        if s.rangesHeld t rs then s.rangesWait t rs
        else match k.firstMark d.epiReads with
        | some a => (s.rowError t a).mtxFail t j.seq 0x49 a
        | none =>
          let y (m n : Nat) : Word :=
            if d.ty = 1 then leVal 32 (k.bytes (d.pinb + m * (d.lda * 64) + 4 * n) 4)
            else Tab.get 0 j.sums (128 * m + n)
          match k.epiFault d with
          | some (row, a) =>
            let r := { d with m := row }.epilogue k y
            let s := (s.modCore t fun k => k.putAll r.writes).rowError t a
            let s := (s.mtxFail t j.seq 0x49 (d.pinb + row * (d.lda * 64))).count (.mtx t.val) 6 r.clipped
            s.modMtx t fun x => x.modJob j.seq fun j => { j with clipped := r.clipped }
          | none =>
          let r := d.epilogue k y
          let s := s.modCore t fun k => k.putAll r.writes
          let s := s.modMtx t fun x =>
            let x := r.deliveries.foldl (fun x v => x.modTracker v.1 fun q => q.deliver v.2.1 v.2.2.1 v.2.2.2) x
            x.modJob j.seq fun j => { j with
              stage := if d.odst = 2 ∧ d.writes then .output else .finished, clipped := r.clipped, sums := [] }
          let s := s.count (.mtx t.val) 6 r.clipped
          if d.odst = 2 ∧ d.writes then
            let ch := (s.core t).ch d.och
            let ok := ch.run == .idle && s.enabled (.dma t.val)
            let s := s.dmaStart t d.och j.ctx (some j.seq)
            if ok then s
            else s.mtxFail t j.seq 0x4B 0
          else s))

/-- MATRIX_JOB_COMPLETE (R194): the job at the head completes with its completion actions. CYCLES is free:
the model has no cycles. DESIGN CHOICE: the record of a job whose REC_BASE its checks refused is left out where it
would lie outside local memory, and written at REC_BASE as it stands otherwise (R194 does not say). -/
def execMatrixJobComplete (core : LCore) (s : State) : Host.Outcome State Fault Refusal :=
  let t := s.tileOf core
  let k := s.core t
  .next (match k.mtx.queue with
    | [] => s
    | j :: js =>
      let d := mtxDesc j.desc
      if j.stage != .finished then s
      else if d.crec && s.spanHeld t d.recAt 16 then s.portWait t [d.recAt]
      else
        let s := s.modMtx t fun x => { x with queue := js, doneSeq := j.seq }
        let s := if d.crec && localRange d.recAt 16 then
            let bs := recordBytes j.seq j.status j.ctx 0 d.tag (BitVec.ofNat 32 (min j.clipped 0xFFFFFFFF))
              (Config.freeWord s.free)
            { (s.modCore t fun k => k.bankWrite d.recAt bs) with free := s.free + 1 }
          else s
        let s := if d.csync then s.sendSync ⟨.matrix, j.func, d.obj, .add (d.add.setWidth 64)⟩ else s
        let s := if d.cirq then (s.raise (.mtx t.val) 1).coreIrq t j.ctx 0x200 else s
        let s := s.count (.mtx t.val) 0 1
        let s := if 0x40 ≤ j.status.toNat then
            ((s.modMtx t fun x => { x with
              errSeq := j.seq, errStatus := j.status, errCtx := j.ctx, errAddr := j.errAddr }).count
                (.mtx t.val) 5 1).raise (.mtx t.val) 2
          else s
        s.wakeQueue t 0)

/-- A write of MQ_ABORT (R197): jobs of the writing context that have not started are cancelled. -/
def State.mqAbort (s : State) (t : Tile) (c : CtxId) (v : Word) : State :=
  if bit v 0 then s.modMtx t fun x => { x with queue := x.queue.map fun j =>
      if j.ctx = c ∧ j.stage = .queued then { j with stage := .finished, status := 1 } else j }
  else s

/-- MQ_STATUS, MQ_SEQ and MQ_ERR as they read (R197). DESIGN CHOICE: EPILOGUE shows the job that waits for its output
transfer; an epilogue is else one step. -/
def Mtx.reg (x : Mtx) (off : Nat) : Word :=
  match off with
  | 0x0 =>
    BitVec.ofNat 32 x.queue.length |||
      (b2v 32 (x.queue.any fun j => j.stage == .feeding) <<< 4) |||
      (b2v 32 (x.queue.any fun j => j.stage == .output) <<< 5) ||| (x.doneSeq.setWidth 32 <<< 16)
  | 0x4 => x.next.setWidth 32
  | 0x8 => x.errSeq.setWidth 32 ||| (x.errStatus.setWidth 32 <<< 16)
  | _ => 0

/-- A job that names a tracker is queued or in its epilogue (R237), one with KEEP among them. -/
def Mtx.trackerBusy (x : Mtx) (i : Nat) : Bool :=
  x.queue.any fun j =>
    let d := mtxDesc j.desc
    j.stage != .finished && decide (d.ty ≤ 1) && (d.qs == 3 || d.stat) && d.trackers.contains i

end Sys2Proof.Machine
end

