-- ==== Sys2Proof/Machine/Io.lean ====
section
/-! DEFINITION. The IO space and the system registers of a context (R88, R89, R97 to R100, R197, R234,
R235, R273, R307 to R309, R329, R571), `tagmode` (R306), the credit operations (R309 to R312), the `sync`
forms (R383), hardware loops (R118 to R120) and the other control operations. -/

namespace Sys2Proof.Machine

/-! ### The IO map (R97) -/

/-- A register of the IO space. -/
inductive IoReg where
  | timeLo | timeHi | jobSeq | cycles
  | dma (c : Fin 8) (off : Nat)
  | mq (off : Nat)
  | sq (off : Nat)
  | credit (m : Nat)
  | win (w : Fin 8) (hi : Bool)
  | treg (i : Nat) (hi : Bool)
  | setup
  | mbx (m : Nat) (hi : Bool)
  | trkSel | trkData | trkStep | trkReset
  deriving DecidableEq, Repr

/-- The register at an IO address; none where no register is named or the address is not a multiple
of 4. -/
def ioReg (a : Nat) : Option IoReg :=
  if a % 4 ≠ 0 then none
  else if a = 0x00 then some .timeLo
  else if a = 0x04 then some .timeHi
  else if a = 0x08 then some .jobSeq
  else if a = 0x0C then some .cycles
  else if 0x100 ≤ a ∧ a < 0x200 then
    some (.dma ⟨(a - 0x100) / 0x20 % 8, Nat.mod_lt _ (by omega)⟩ (a % 0x20))
  else if 0x200 ≤ a ∧ a < 0x210 then some (.mq (a - 0x200))
  else if 0x210 ≤ a ∧ a < 0x220 then some (.sq (a - 0x210))
  else if 0x400 ≤ a ∧ a < 0x500 then some (.credit ((a - 0x400) / 4))
  else if 0x800 ≤ a ∧ a < 0x840 then
    some (.win ⟨(a - 0x800) / 8 % 8, Nat.mod_lt _ (by omega)⟩ (a % 8 == 4))
  else if 0x900 ≤ a ∧ a < 0x980 then some (.treg ((a - 0x900) / 8) (a % 8 == 4))
  else if a = 0x980 then some .setup
  else if 0xA00 ≤ a ∧ a < 0xC00 then some (.mbx ((a - 0xA00) / 8) (a % 8 == 4))
  else if a = 0xF00 then some .trkSel
  else if a = 0xF04 then some .trkData
  else if a = 0xF08 then some .trkStep
  else if a = 0xF0C then some .trkReset
  else none

/-- A credit word (R309). -/
def Mbx.creditWord (m : Mbx) : Word := m.credit.setWidth 32 ||| (m.grant.setWidth 32 <<< 16)

/-- Word 1 of a mailbox (R307). -/
def Mbx.word1 (m : Mbx) : Word :=
  m.size.setWidth 32 ||| (m.sender.setWidth 32 <<< 16) ||| (m.func.setWidth 32 <<< 22) |||
    (b2v 32 m.en <<< 31)

/-- What a register reads, and the context after the read: CTX_TIME_LO latches CTX_TIME_HI, TRK_DATA
moves its window (R99, R235). -/
def ioRead (s : State) (k : Core) (x : Ctx) (r : IoReg) : Word × Ctx :=
  match r with
  | .timeLo => (s.time.setWidth 32, { x with timeHi := (s.time >>> 32).setWidth 32 })
  | .timeHi => (x.timeHi, x)
  | .jobSeq => (x.jobSeq, x)
  | .cycles => (x.cycles, x)
  | .dma c off => ((k.ch c).reg off, x)
  | .mq off => (k.mtx.reg off, x)
  | .sq off => (k.str.reg off, x)
  | .credit m => ((k.mb m).creditWord, x)
  | .win w hi => ((if hi then x.hbmWin.get w >>> 32 else x.hbmWin.get w).setWidth 32, x)
  | .treg i hi =>
    (if hi then (k.treg i).count.setWidth 32 ||| (b2v 32 (k.treg i).tagged <<< 31)
      else (k.treg i).first.setWidth 32, x)
  | .setup => (k.setup.setWidth 32, x)
  | .mbx m hi => (if hi then (k.mb m).word1 else (k.mb m).base.setWidth 32, x)
  | .trkSel => (x.trkSel, x)
  | .trkData => trkRead k x
  | .trkStep | .trkReset => (0, x)

/-! ### Set-up of tags and mailboxes (R307, R308) -/

/-- A tag region as a range of slots. -/
def TReg.range (r : TReg) : Nat × Nat := (r.first.toNat, r.first.toNat + r.count.toNat)

/-- Two ranges meet. -/
def meet (a b : Nat × Nat) : Bool := decide (a.1 < b.2) && decide (b.1 < a.2)

/-- A run of slots stays within one memory (R293). -/
def slotsOk (r : Nat × Nat) : Bool :=
  decide (r.1 < r.2) && (decide (r.2 ≤ 6144) || (decide (6144 ≤ r.1) && decide (r.2 ≤ 14336)) ||
    (decide (14336 ≤ r.1) && decide (r.2 ≤ 16384)))

/-- The code of SPAD_SETUP_STATUS for a `tagmode` that makes region `i` tagged (R308). -/
def Core.tagCode (k : Core) (i : Nat) : Byte :=
  let r := (k.treg i).range
  if !slotsOk r then 0x02
  else if (List.range 16).any fun j => j != i && (k.treg j).tagged && meet r (k.treg j).range then 0x04
  else 0

/-- `tagmode` on region `i` (R306): raw, tagged and EMPTY, or tagged and FULL. -/
def Core.tagmode (k : Core) (i mode : Nat) : Core :=
  let set (b : Bool) (k : Core) : Core :=
    { k with tregs := Tab.mod {} k.tregs i fun r => { r with tagged := b } }
  if mode = 0 then { set false k with setup := 0 }
  else
    let code := k.tagCode i
    if code ≠ 0 then { k with setup := code }
    else
      let r := (k.treg i).range
      let tags := Tab.clearRange k.tags r.1 (r.2 - r.1)
      let tags := if mode = 2 then
        (List.range (r.2 - r.1)).foldl (fun t j => Tab.set false t (r.1 + j) true) tags else tags
      { set true k with tags := tags, setup := 0 }

/-- A write of a word of SPAD_TREG (R307, R308). -/
def Core.writeTreg (k : Core) (i : Nat) (hi : Bool) (v : Word) : Core :=
  if (k.treg i).tagged then { k with setup := 0x07 }
  else { k with
    setup := 0
    tregs := Tab.mod {} k.tregs i fun r =>
      if hi then { r with count := v.setWidth 15 } else { r with first := v.setWidth 14 } }

/-- The addresses of a mailbox. -/
def Mbx.range (m : Mbx) : Nat × Nat := (m.base.toNat, m.base.toNat + 64 * m.size.toNat)

/-- The code for a mailbox as it would stand after a write (R308). -/
def Core.mbxCode (k : Core) (i : Nat) (m : Mbx) : Byte :=
  if (k.mb i).en && (k.mb i).grant != 0 then 0x07
  else if !m.en then 0
  else if m.size = 0 || !localRange m.base.toNat (64 * m.size.toNat) then 0x02
  else if fld m.base 0 6 ≠ 0 then 0x03
  else if (List.range 64).any fun j => j != i && (k.mb j).en && meet m.range (k.mb j).range then 0x04
  else 0

/-- A write of a word of SPAD_MBX (R307, R308). -/
def Core.writeMbx (k : Core) (i : Nat) (hi : Bool) (v : Word) : Core :=
  let m := k.mb i
  let m' : Mbx :=
    if hi then { m with
      size := v.setWidth 16, sender := fld v 16 6, func := fld v 22 4, en := bit v 31
      credit := if bit v 31 then m.credit else 0
      grant := if bit v 31 then m.grant else 0 }
    else { m with base := v.setWidth 24 }
  let code := k.mbxCode i m'
  if code ≠ 0 then { k with setup := code }
  else { k with setup := 0, mbx := Tab.set {} k.mbx i m' }

/-- A write of a CR_CNT word (R309). -/
def Core.writeCredit (k : Core) (i : Nat) (v : Word) : Core :=
  if (k.mb i).en then { k with mbx := Tab.mod {} k.mbx i fun m => { m with credit := v.setWidth 16 } }
  else k

/-- A word of an HBM window written (R94). -/
def setWin (r : DWord) (hi : Bool) (v : Word) : DWord :=
  if hi then setFld r 32 v else setFld r 0 (v &&& 0xFFE00001)

/-- A write of TRK_DATA (R235, R237). -/
def State.trkWrite (s : State) (t : Tile) (c : CtxId) (v : Word) : State :=
  let x := s.ctx t c
  let trk := (fld x.trkSel 0 8).toNat
  let word := (fld x.trkSel 8 5).toNat
  let busy := (s.core t).mtx.trackerBusy trk && decide (3 ≤ word)
  let s := s.modMtx t fun m => { m with
    trk := Tab.mod {} m.trk trk fun r => if busy then r.free s.free else r.setWord word v }
  let s := if busy then { s with free := s.free + 27 } else s
  s.modCtx t c fun x => { x with trkSel := trkInc x.trkSel }

/-- A write of TRK_STEP or TRK_RESET (R229, R234, R236). -/
def State.trkAll (s : State) (t : Tile) (v : Word) (f : Tracker → Tracker) : State :=
  s.modMtx t fun m => { m with trk := (trkRange v).foldl (fun l i => Tab.mod {} l i f) m.trk }

/-- A write of a register of the IO space. -/
def State.ioWrite (s : State) (t : Tile) (lc : LCore) (c : CtxId) (r : IoReg) (v : Word) : State :=
  match r with
  | .timeLo | .timeHi | .jobSeq | .cycles | .setup => s
  | .dma ch off =>
    if off = 0x18 then s.dmaCtrl t lc ch c v else s.modCh t ch fun h => h.setReg off v
  | .mq off => if off = 0xC then s.mqAbort t c v else s
  | .sq off => if off = 0xC then s.sqCtrl t c v else s
  | .credit m => s.modCore t fun k => k.writeCredit m v
  | .win w hi => s.modCtx t c fun x =>
      { x with hbmWin := x.hbmWin.set w.val (setWin (x.hbmWin.get w) hi v) w.isLt }
  | .treg i hi => s.modCore t fun k => k.writeTreg i hi v
  | .mbx m hi => s.modCore t fun k => k.writeMbx m hi v
  | .trkSel => s.modCtx t c fun x => { x with trkSel := v &&& 0x3FFF }
  | .trkData => s.trkWrite t c v
  | .trkStep => s.trkAll t v Tracker.close
  | .trkReset => s.trkAll t v Tracker.reset

/-- `in` from an IO address (R97 to R99, R571). -/
def semIn (e : Env) (rd : BitVec 5) (a : Word) : Res :=
  match ioReg a.toNat with
  | none => e.exc 0x07 a
  | some r =>
    let v := (ioRead e.s e.core e.x r).1
    .ok (fun s => s.modCtx e.t e.c fun x => ((ioRead e.s e.core x r).2).setD rd v) .seq

/-- The write needs the store-buffer entries of its context drained: START and RING (R331, R344). -/
def ioDrains (r : IoReg) (v : Word) : Bool :=
  match r with
  | .dma _ off => off == 0x18 && (bit v 0 || bit v 2)
  | _ => false

/-- User level is kept from the register: a channel or a mailbox of another function (R309, R328). -/
def Env.ioForeign (e : Env) (r : IoReg) : Bool :=
  match r with
  | .dma c _ => e.dmaForeign c
  | .credit m => !e.x.priv && (e.core.mb m).func != BitVec.ofNat 4 e.x.func.val
  | _ => false

/-- `out` to an IO address (R97, R98, R571). -/
def semOut (e : Env) (rs : BitVec 5) (a : Word) : Res :=
  let v := e.x.rd rs
  if 0x800 ≤ a.toNat ∧ a.toNat < 0x1000 then e.exc 0x03 0
  else match ioReg a.toNat with
  | none => e.exc 0x07 a
  | some r =>
    if e.ioForeign r then e.exc 0x03 0
    else if ioDrains r v && e.core.sbOwn e.c then .stall id
    else .ok (fun s => s.ioWrite e.t e.lc e.c r v) .seq

/-- `out.p` (R98, R571). -/
def semOutp (e : Env) (rs : BitVec 5) (io : BitVec 12) : Res :=
  let a : Word := io.setWidth 32
  if a.toNat < 0x800 then e.exc 0x07 a
  else match ioReg a.toNat with
  | none => e.exc 0x07 a
  | some r => .ok (fun s => s.ioWrite e.t e.lc e.c r (e.x.rd rs)) .seq

/-! ### System registers (R88, R89) -/

/-- The loop set that LSEL selects. -/
def Ctx.selected (x : Ctx) : LoopSet := x.loops.get x.lsel.toFin

/-- A system register read. -/
def Ctx.mfsr (x : Ctx) (lc : LCore) (c : CtxId) (sr : Nat) : Word :=
  match sr with
  | 0 => BitVec.ofNat 32 (c.val + 4 * lc.val + 128 * x.func.val)
  | 1 => x.status
  | 2 => x.epc.setWidth 32
  | 3 => x.ecause.setWidth 32
  | 4 => x.eaddr
  | 5 => x.excbase.setWidth 32
  | 6 => x.jobentry.setWidth 32
  | 7 => x.kstack
  | 8 => x.velem
  | 9 => x.selected.ls.setWidth 32
  | 10 => x.selected.le.setWidth 32
  | 11 => x.selected.lc.setWidth 32
  | 12 => x.lsel.setWidth 32
  | _ => 0

/-- The loop set that LSEL selects, changed. -/
def Ctx.modSelected (x : Ctx) (f : LoopSet → LoopSet) : Ctx :=
  { x with loops := x.loops.set x.lsel.toFin.val (f x.selected) x.lsel.toFin.isLt }

/-- A system register written. PRIV keeps its value: a context leaves system level through `eret` alone
(R76); DEDUCED. -/
def Ctx.mtsr (x : Ctx) (sr : Nat) (v : Word) : Ctx :=
  match sr with
  | 1 => { x with status := (v &&& 0xFE) ||| (x.status &&& 1) }
  | 2 => { x with epc := v.setWidth 20 }
  | 3 => { x with ecause := v.setWidth 9 }
  | 4 => { x with eaddr := v }
  | 5 => { x with excbase := (v &&& 0xFFFC0).setWidth 20 }
  | 6 => { x with jobentry := (v &&& 0xFFFC0).setWidth 20 }
  | 7 => { x with kstack := v }
  | 8 => { x with velem := v &&& 0x00FF7FFF }
  | 9 => x.modSelected fun l => { l with ls := v.setWidth 20 }
  | 10 => x.modSelected fun l => { l with le := v.setWidth 20 }
  | 11 => x.modSelected fun l => { l with lc := v.setWidth 16 }
  | 12 => { x with lsel := v.setWidth 2 }
  | _ => x

/-- `mfsr`. -/
def semMfsr (e : Env) (rd sr : BitVec 5) : Res :=
  let v := e.x.mfsr e.lc e.c sr.toNat
  e.reg (·.setD rd v)

/-- `mtsr`. -/
def semMtsr (e : Env) (sr rs : BitVec 5) : Res :=
  let v := e.x.rd rs
  e.reg (·.mtsr sr.toNat v)

/-- `tagmode` (R306). -/
def semTagmode (e : Env) (rs : BitVec 5) (operand : BitVec 14) : Res :=
  if e.core.sbOwn e.c then .stall id
  else
    let i := (fld (e.x.rd rs) 0 4).toNat
    .ok (fun s => s.modCore e.t fun k => k.tagmode i operand.toNat) .seq

/-- `eret` (R84, R135). -/
def semEret (e : Env) : Res :=
  e.deferPoint (.ok (fun s => s.modCtx e.t e.c Ctx.eret) (.jump (e.x.epc.setWidth 32)))

/-- The registers that `ctx.reset` clears (R572). -/
def Ctx.reset (x : Ctx) : Ctx :=
  { x with
    a := (Vector.replicate 16 0).set 15 (x.a.get 15)
    d := Vector.replicate 32 0
    acc := Vector.replicate 8 0
    v := Vector.replicate 32 0
    va := Vector.replicate 8 0
    p := Vector.replicate 8 0
    loops := Vector.replicate 4 {}
    status := x.status &&& ~~~(0xF0 : Word)
    wr := Vector.replicate 8 0
    lut := Vector.replicate 2 []
    hbmWin := Vector.replicate 8 0
    velem := 0
    trkLatch := []
    poison := []
    vl := 0
    sew := 0
    grp := 0 }

/-- `ctx.reset` (R572). -/
def semCtxReset (e : Env) : Res := e.reg Ctx.reset

/-- `irq.on` and `irq.off` (R571). -/
def semIe (e : Env) (on : Bool) : Res := e.reg fun x => { x with status := setBit x.status 3 on }

/-! ### Control (R118 to R120, R128, R132, R570) -/

/-- The address of the bundle after the one at `le` (R119), whose length is what the instruction store holds
there. -/
def State.afterEnd (s : State) (t : Tile) (le : Word) : Word :=
  le + BitVec.ofNat 32 (4 * s.bundleLen t le.toNat)

/-- `loop` (R118 to R120), in a bundle of `words` words. -/
def semLoop (e : Env) (words : Nat) (k : BitVec 2) (count : LoopCount) (endOff : BitVec 17) : Res :=
  let n : Nat := match count with
    | .imm n => n.toNat
    | .reg d => (e.x.rd d).toNat
  let le : Word := e.x.pc + 4 * endOff.setWidth 32
  let ls : Word := e.x.pc + BitVec.ofNat 32 (4 * words)
  if 65535 < n ∨ endOff.toNat ≤ words then e.exc 0x0B 0
  else
    let armed (on : Bool) (x : Ctx) : Ctx := { x.setLoopAct k.toNat on with
      loops := x.loops.set k.toFin.val ⟨ls.setWidth 20, le.setWidth 20, BitVec.ofNat 16 n⟩ k.toFin.isLt }
    if n = 0 then
      .ok (fun s => s.modCtx e.t e.c (armed false)) (.skip (e.s.afterEnd e.t le))
    else e.reg (armed true)

/-- `yield` (R77). -/
def semYield (e : Env) : Res := e.reg fun x => { x with run := .ready }

/-- `fence.sp` (R132). -/
def semFenceSp (e : Env) : Res := if e.core.sb.isEmpty then .ok id .seq else .stall id

/-- `fence.rm` (R132, R135). -/
def semFenceRm (e : Env) : Res := if e.x.stores = 0 then e.deferPoint (.ok id .seq) else .stall id

/-- `ifl` (R128). -/
def semIfl (e : Env) : Res :=
  .ok (fun s => s.modCore e.t fun k => { k with
    fetchBuf := []
    btb := []
    resume := (Vector.replicate 4 none).set e.c.val (k.resume.get e.c) e.c.isLt }) .seq

/-- `ctx.end` (R77, R135, R366): its effect on the job follows once the bundle has retired. -/
def semCtxEnd (e : Env) : Res :=
  if e.x.stores ≠ 0 ∨ e.core.sbOwn e.c then .stall id else e.deferPoint (.ok id .seq)

/-! ### Credits (R309 to R312) -/

/-- A credit operation at its target core `n`, from core `src` under function `f`: the result word, and
the mailbox (R310). -/
def Mbx.creditOp (m : Mbx) (n src : LCore) (f : Func) (put : Bool) (data : Word) : Word × Mbx :=
  let units := (fld data 8 16).toNat
  let ret := bit data 24
  let allowed := m.sender.toNat = 0x3F ∨ m.sender.toNat = src.val
  let denied : Bool := !m.en || m.func != BitVec.ofNat 4 f.val || (!put && !decide allowed) ||
    (put && !ret && n != src)
  let out (granted : Bool) (m : Mbx) : Word × Mbx :=
    (b2v 32 granted ||| (b2v 32 denied <<< 1) ||| (m.credit.setWidth 32 <<< 16), m)
  let add (m : Mbx) (u : Nat) : Mbx := { m with credit := BitVec.ofNat 16 (min (m.credit.toNat + u) 65535) }
  if denied then out false m
  else if !put then
    if units ≤ m.credit.toNat ∧ m.grant.toNat + units ≤ 65535 then
      out true { m with
        credit := m.credit - BitVec.ofNat 16 units, grant := m.grant + BitVec.ofNat 16 units }
    else out false m
  else if !ret then out true (add m units)
  else
    let u := min units m.grant.toNat
    out true (add { m with grant := m.grant - BitVec.ofNat 16 u } u)

/-- A credit operation applied to a mailbox of a core. -/
def Core.creditOp (k : Core) (n src : LCore) (f : Func) (put : Bool) (i : Nat) (data : Word) :
    Word × Core :=
  let r := (k.mb i).creditOp n src f put data
  (r.1, { k with mbx := Tab.set {} k.mbx i r.2 })

/-- A load of the context that has not all arrived (R311). -/
def Core.loading (k : Core) (c : CtxId) : Bool := k.loads.any fun l => l.ctx == c

/-- `crget` and `crput` (R310, R311). A remote one is a request of the core, which waits for one of its 32 places
(R81). -/
def semCredit (e : Env) (put : Bool) (d : BitVec 5) (m : MemAddr) : Res :=
  let a := (e.x.lm m .word).1
  let data := e.x.rd d
  let target : LCore := (fld data 0 5).toFin
  let i := (a.toNat - 0x400) / 4
  if a.toNat < 0x400 ∨ 0x500 ≤ a.toNat ∨ a.toNat % 4 ≠ 0 then e.exc 0x07 a
  else match e.doneVal with
    | some v => e.reg (·.setD d v)
    | none =>
      if e.core.sbOwn e.c || e.x.stores != 0 || e.core.loading e.c then .stall id
      else e.deferPoint <|
        if target = e.lc then
          .ok (fun s =>
            let r := (s.core e.t).creditOp e.lc e.lc e.x.func put i data
            (s.modCore e.t fun _ => r.2).modCtx e.t e.c fun x => x.setD d r.1) .seq
        else if 32 ≤ e.core.outstanding then .stall id
        else .block 5 (.credit e.pos) fun s =>
          s.sendMesh ⟨e.lc, .ctx e.c, e.x.func, target, .credit e.pos put (BitVec.ofNat 6 i) data⟩

/-! ### The `sync` forms (R132, R383) -/

/-- The value of a register pair. -/
def Ctx.pair (x : Ctx) (d : BitVec 5) : DWord :=
  (x.rd d).setWidth 64 ||| ((x.rd (d + 1)).setWidth 64 <<< 32)

/-- The `sync` forms. -/
def semSync (e : Env) (fn : SyncFn) (d : BitVec 5) (ab : BitVec 4) (off : BitVec 12) : Res :=
  let a := e.x.ra ab + off.signExtend 32
  let n := (a.toNat - 0x40000) / 8
  let obj := BitVec.ofNat 13 n
  let release := fn == .add || fn == .set || fn == .cas
  let src : SyncSrc := .ctx e.lc e.c e.pos
  let ask (op : SyncOp) (since : Option DWord) : Res :=
    .block 4 (.sync e.pos obj since) fun s => s.sendSync ⟨src, e.x.func, obj, op⟩
  let post (op : SyncOp) : Res := .ok (fun s => s.sendSync ⟨src, e.x.func, obj, op⟩) .seq
  if a.toNat < 0x40000 ∨ 0x50000 ≤ a.toNat ∨ a.toNat % 8 ≠ 0 ∨ e.s.syncOwner obj ≠ some e.x.func then
    e.exc 0x07 a
  else match e.doneVal with
    | some v => e.reg fun x =>
        let x := (x.setD d v).setD (d + 1) (e.doneWord 1)
        if fn == .cas then x.setD (d + 2) (e.doneWord 2) else x
    | none =>
      if release && (e.core.sbOwn e.c || e.x.stores != 0) then .stall id
      else match fn with
        | .add => e.deferPoint (post (.add (e.x.pair d)))
        | .set => e.deferPoint (post (.set (e.x.pair d)))
        | .cas => e.deferPoint (ask (.cas (e.x.pair d) (e.x.pair (d + 2))) none)
        | .wait => ask (.wait (e.x.pair d)) (some e.s.time)
        | .rd => ask .read none

end Sys2Proof.Machine
end

