-- ==== Sys2Proof/Machine/Replay.lean ====
section
/-! DEFINITION. How a job on a core ends, and the replay of suspects after a recovery (R366, R528, R536 to
R539). -/

namespace Sys2Proof.Machine

/-- A partition's record changed. -/
def State.modPart (s : State) (p : Part) (f : PartState → PartState) : State :=
  { s with parts := s.parts.set p.val (f (s.parts.get p)) p.isLt }

/-- A partition's record. -/
def State.part (s : State) (p : Part) : PartState := s.parts.get p

/-- The verdicts of R538. -/
inductive Verdict where
  | notGuilty | guilty | unresolved
  deriving DecidableEq, Repr

/-- The code of a verdict in its trace entry and its class 7 record; DESIGN CHOICE. -/
def Verdict.code : Verdict → Nat
  | .notGuilty => 0
  | .guilty => 1
  | .unresolved => 2

/-- A verdict given: counted in PART_REPLAY, traced and logged (R525, R538, R544). -/
def State.verdict (s : State) (p : Part) (j : CoreJob) (v : Verdict) : State :=
  let seq := (ringDesc j.job.desc).seq
  let s := s.modPart p fun x => { x with
    nDone := x.nDone + 1
    nGuilty := if v == .guilty then x.nGuilty + 1 else x.nGuilty
    nUnresolved := if v == .unresolved then x.nUnresolved + 1 else x.nUnresolved
    replayed := if v == .unresolved then x.replayed else x.replayed ++ [(j.job.ring, seq)] }
  let s := s.trace 0x06 (ringFn j.job.ring.toNat) 0 (j.job.ring.setWidth 64)
    (seq.setWidth 64 ||| (BitVec.ofNat 64 v.code <<< 32))
  s.log { cls := 7, code := BitVec.ofNat 8 (0x10 + v.code), page := .part p.val
          func := ringFn j.job.ring.toNat, info0 := j.job.ring.setWidth 64, info1 := seq.setWidth 64 }

/-- A job that a recovery took from its core retires ABORTED_BY_RESET, or CANCELLED where a function-level
reset asked for that (R432, R538, R539). -/
def State.abortHeld (s : State) (p : Part) (h : HeldJob) : State :=
  let st : Byte := if h.job.cancel then 0x02 else 0x06
  let s := s.retireJob h.job.job.ring.toNat h.job.job.desc st (h.job.ctx.map fun c => (h.lc, c)) 0 h.job.tStart
    h.job.cancel
  if h.job.cancel then s else s.count (.part p.val) 5 1

/-- Replay ends: with no suspect guilty, every replayed suspect is logged as transient (R538). -/
def State.endReplay (s : State) (p : Part) : State :=
  let x := s.part p
  let s := s.modPart p fun x => { x with
    run := if x.offline then .offline else .serving, suspects := [], replayed := [], replayCore := none }
  if x.nGuilty != 0 then s
  else x.replayed.foldl (fun s j =>
    s.log { cls := 7, code := 0x13, page := .part p.val, func := ringFn j.1.toNat
            info0 := j.1.setWidth 64, info1 := j.2.setWidth 64 }) s

/-- The next suspect is replayed on context 0 of the replay core; suspects with NOREPLAY, or with no core
to replay on or in a partition taken offline, stay unresolved (R537, R538). -/
def State.replayList (s : State) (p : Part) : List HeldJob → State
  | [] => s.endReplay p
  | h :: rest =>
    let s := s.modPart p fun x => { x with suspects := rest }
    match (s.part p).replayCore with
    | some n =>
      if (ringDesc h.job.job.desc).noreplay || h.job.cancel || !s.coreTakes n || (s.part p).offline then
        ((s.abortHeld p h).verdict p h.job .unresolved).replayList p rest
      else
        let j : CoreJob := ⟨h.job.job, s.time, none, 0, false, true⟩
        (s.modJobs n fun l => l ++ [j]).startOn n 0 j
    | none => ((s.abortHeld p h).verdict p h.job .unresolved).replayList p rest

/-- Replay goes on with the suspects that remain. -/
def State.replayNext (s : State) (p : Part) : State := s.replayList p (s.part p).suspects

/-- The job of a context retires; a replayed job that retires is not guilty, and the next one follows
(R538). -/
def State.finishJob (s : State) (lc : LCore) (c : CtxId) (status : Byte) (result : BitVec 16) : State :=
  match s.jobOn lc c with
  | none => s
  | some j =>
    let s := s.retireCore lc j status result
    if j.replay then (s.verdict (partOf lc) j .notGuilty).replayNext (partOf lc) else s

end Sys2Proof.Machine
end

