-- ==== Sys2Proof/Machine/Vector.lean ====
section
/-! DEFINITION. The vector unit's registers, elements and arithmetic (R142 to R148, R157 to R171). -/

namespace Sys2Proof.Machine

/-! ### Elements (R145 to R148) -/

/-- A vector register by number; registers past v31 do not exist. -/
def Ctx.vreg (x : Ctx) (k : Nat) : VReg := x.v.toList.getD k 0

/-- A vector-accumulator register by number. -/
def Ctx.vareg (x : Ctx) (k : Nat) : VAcc := x.va.toList.getD k 0

/-- A vector register written. -/
def Ctx.setV (x : Ctx) (k : Nat) (v : VReg) : Ctx :=
  if h : k < 32 then { x with v := x.v.set k v h } else x

/-- A vector-accumulator register written. -/
def Ctx.setVa (x : Ctx) (k : Nat) (v : VAcc) : Ctx :=
  if h : k < 8 then { x with va := x.va.set k v h } else x

/-- Element `i` of width `w` of the group at `r` (R147). -/
def Ctx.elt (x : Ctx) (r : BitVec 5) (w i : Nat) : BitVec w :=
  (x.vreg (r.toNat + i * w / 2048)).extractLsb' (i * w % 2048) w

/-- Accumulator element `j` of the group at `r` (R147). -/
def Ctx.aelt (x : Ctx) (r : BitVec 3) (j : Nat) : Acc :=
  (x.vareg (r.toNat + j / 128)).extractLsb' (40 * (j % 128)) 40

/-- The bits of a width code: 8, 16, 32. -/
def wBits (code : BitVec 2) : Nat := 8 * 2 ^ code.toNat

/-- VTYPE.SEW in bits. -/
def Ctx.sewBits (x : Ctx) : Nat := wBits x.sew

/-- The element width of a W field: 0 selects VTYPE.SEW (R145, R154). -/
def Ctx.width (x : Ctx) (w : BitVec 2) : Nat := if w = 0 then x.sewBits else wBits (w - 1)

/-- VLMAX of a type (R142). -/
def vlmax (sew g : BitVec 2) : Nat := 2048 * 2 ^ g.toNat / wBits sew

/-- How many elements an operation processes whose widest element has `wmax` bits (R145). -/
def Ctx.count (x : Ctx) (wmax : Nat) : Nat := min x.vl.toNat (2048 * x.g / wmax)

/-- Element `i` is active under `pg` (R148). -/
def Ctx.active (x : Ctx) (pg : BitVec 3) (i : Nat) : Bool := bit (x.rp pg) i

/-- A group of `y` with its active elements below `n` replaced, the others as `x` holds them: `x` is the
context before the bundle (R114, R147, R148). -/
def Ctx.setGroup (x y : Ctx) (r : BitVec 5) (w n : Nat) (act : Nat → Bool) (f : Nat → BitVec w) : Ctx :=
  let per := 2048 / w
  (List.range x.g).foldl (fun y j =>
    if n ≤ j * per then y
    else
      let old := x.vreg (r.toNat + j)
      y.setV (r.toNat + j) (tabulate 2048 per fun k =>
        let i := j * per + k
        if decide (i < n) && act i then f i else old.extractLsb' (k * w) w)) y

/-- An accumulator group of `y` with its active elements below `n` replaced, the others as `x` holds
them. -/
def Ctx.setAGroup (x y : Ctx) (r : BitVec 3) (n : Nat) (act : Nat → Bool) (f : Nat → Acc) : Ctx :=
  (List.range x.g).foldl (fun y j =>
    if n ≤ j * 128 then y
    else
      let old := x.vareg (r.toNat + j)
      y.setVa (r.toNat + j) (tabulate 5120 128 fun k =>
        let i := j * 128 + k
        if decide (i < n) && act i then f i else old.extractLsb' (k * 40) 40)) y

/-- A predicate result: active bits below `n` from `f`, every other bit 0 (R148). -/
def Ctx.predOf (x : Ctx) (pg : BitVec 3) (n : Nat) (f : Nat → Bool) : VReg :=
  bitsOf 2048 n fun i => x.active pg i && f i

/-- The group operands of an operation, whose numbers must be multiples of G (R146). -/
def Op.groups : Op → List Nat
  | .vint _ vd a b _ _ => [vd.toNat, a.toNat, b.toNat]
  | .vfp fn vd a b _ _ =>
    match fn with
    | .abs | .neg => [vd.toNat, a.toNat]
    | _ => [vd.toNat, a.toNat, b.toNat]
  | .vimm fn vd a _ _ _ =>
    match fn with
    | .movi => [vd.toNat]
    | _ => [vd.toNat, a.toNat]
  | .vun _ vd a _ _ | .vcvt _ vd a _ | .vlut _ _ vd a _ _ => [vd.toNat, a.toNat]
  | .vnarrow _ vd va _ _ _ => [vd.toNat, va.toNat]
  | .vmac _ va a b _ => [va.toNat, a.toNat, b.toNat]
  | .vacc fn va a _ _ =>
    match fn with
    | .clr => [va.toNat]
    | _ => [va.toNat, a.toNat]
  | .vcmp _ _ a b _ _ => [a.toNat, b.toNat]
  | .vperm fn vd a b _ _ =>
    match fn with
    | .perm | .zipLo | .zipHi | .unzipE | .unzipO => [vd.toNat, a.toNat, b.toNat]
    | .slideup | .slidedn | .rev | .trn => [vd.toNat, a.toNat]
    | .bcast => [vd.toNat]
  | .vred _ _ a _ _ _ | .vext _ a _ _ _ => [a.toNat]
  | .vins vd _ _ _ _ => [vd.toNat]
  | .vdwin _ v => [v.toNat]
  | .vmem fn _ v _ _ off =>
    match fn, off with
    | .indexed, .reg rx _ => [v.toNat, rx.toNat]
    | _, _ => [v.toNat]
  | _ => []

/-- Every group operand is aligned for G (R146). -/
def groupsOk (g : Nat) (o : Op) : Bool := (Op.groups o).all fun r => r % g == 0

/-- An effect of a vector operation on a group. -/
def Env.vec (e : Env) (vd : BitVec 5) (w n : Nat) (pg : BitVec 3) (f : Nat → BitVec w) : Res :=
  e.reg fun y => e.x.setGroup y vd w n (e.x.active pg) f

/-! ### Integer and fixed point (R157) -/

/-- One element of an integer operation at width `w`. DESIGN CHOICE: `vavg` takes its operands as signed, as its
`cround` does (R157 does not say). -/
def vintVal {w : Nat} (fn : VIntFn) (a b : BitVec w) : BitVec w :=
  let n := b.toNat % w
  match fn with
  | .add => a + b
  | .sub => a - b
  | .adds => satS w (a.toInt + b.toInt)
  | .addus => satU w (a.toNat + b.toNat)
  | .subs => satS w (a.toInt - b.toInt)
  | .subus => satU w (a.toNat - b.toNat : Int)
  | .and => a &&& b
  | .or => a ||| b
  | .xor => a ^^^ b
  | .min => if a.slt b then a else b
  | .max => if a.slt b then b else a
  | .minu => if a.ult b then a else b
  | .maxu => if a.ult b then b else a
  | .sll => a <<< n
  | .sra => a.sshiftRight n
  | .srl => a >>> n
  | .mulq => satS w (cround (a.toInt * b.toInt) (w - 1))
  | .mulh => BitVec.ofInt w (a.toInt * b.toInt / 2 ^ w)
  | .avg => BitVec.ofInt w (cround (a.toInt + b.toInt) 1)

/-- Majors 0x1E and 0x20 of two vectors. -/
def semVint (e : Env) (fn : VIntFn) (vd vs1 vs2 : BitVec 5) (pg : BitVec 3) (w : BitVec 2) : Res :=
  let wb := e.x.width w
  e.vec vd wb (e.x.count wb) pg fun i => vintVal fn (e.x.elt vs1 wb i) (e.x.elt vs2 wb i)

/-- One element of major 0x1F. -/
def vimmVal {w : Nat} (fn : VImmFn) (a : BitVec w) (imm : BitVec 6) : BitVec w :=
  let n := imm.toNat % w
  match fn with
  | .addi => a + imm.signExtend w
  | .slli => a <<< n
  | .srai => a.sshiftRight n
  | .srli => a >>> n
  | .movi => imm.signExtend w

/-- Major 0x1F. -/
def semVimm (e : Env) (fn : VImmFn) (vd vs1 : BitVec 5) (pg : BitVec 3) (w : BitVec 2)
    (imm : BitVec 6) : Res :=
  let wb := e.x.width w
  e.vec vd wb (e.x.count wb) pg fun i => vimmVal fn (e.x.elt vs1 wb i) imm

/-- `vabs`, `vneg` and `vmov`: one source. -/
def semVun (e : Env) (fn : VUnFn) (vd vs1 : BitVec 5) (pg : BitVec 3) (w : BitVec 2) : Res :=
  let wb := e.x.width w
  e.vec vd wb (e.x.count wb) pg fun i =>
    let a := e.x.elt vs1 wb i
    match fn with
    | .abs => satS wb a.toInt.natAbs
    | .neg => satS wb (-a.toInt)
    | .mov => a

/-- The narrowing rows: an accumulator element counts as 16 bits (R145, R157). -/
def semVnarrow (e : Env) (fn : VNarrowFn) (vd : BitVec 5) (va : BitVec 3) (sh : BitVec 5)
    (pg : BitVec 3) (w : BitVec 2) : Res :=
  let wb := e.x.width w
  let s := match fn with
    | .narrowd => (e.x.rd sh).toNat % 32
    | _ => sh.toNat
  e.vec vd wb (e.x.count (max wb 16)) pg fun i =>
    let q := cround (e.x.aelt va i).toInt s
    match fn with
    | .narrowu => satU wb q
    | _ => satS wb q

/-! ### Multiply-accumulate (R158, R164) -/

/-- The product that a row of major 0x21 adds for accumulator element `i`; a source element past `2n`
counts as 0. -/
def vmacTerm (x : Ctx) (fn : VMacFn) (vs1 vs2 : BitVec 5) (n i : Nat) : Int :=
  let s16 (r : BitVec 5) := (x.elt r 16 i).toInt
  let u16 (r : BitVec 5) : Int := (x.elt r 16 i).toNat
  let s8 (r : BitVec 5) (k : Nat) : Int := if k < 2 * n then (x.elt r 8 k).toInt else 0
  let u8 (r : BitVec 5) (k : Nat) : Int := if k < 2 * n then (x.elt r 8 k).toNat else 0
  match fn with
  | .h => s16 vs1 * s16 vs2
  | .hsu => s16 vs1 * u16 vs2
  | .huu => u16 vs1 * u16 vs2
  | .msuH => -(s16 vs1 * s16 vs2)
  | .b => s8 vs1 (2 * i) * s8 vs2 (2 * i) + s8 vs1 (2 * i + 1) * s8 vs2 (2 * i + 1)
  | .bsu => s8 vs1 (2 * i) * u8 vs2 (2 * i) + s8 vs1 (2 * i + 1) * u8 vs2 (2 * i + 1)
  | .buu => u8 vs1 (2 * i) * u8 vs2 (2 * i) + u8 vs1 (2 * i + 1) * u8 vs2 (2 * i + 1)
  | .msuB => -(s8 vs1 (2 * i) * s8 vs2 (2 * i) + s8 vs1 (2 * i + 1) * s8 vs2 (2 * i + 1))

/-- An effect on an accumulator group. -/
def Env.avec (e : Env) (va : BitVec 3) (n : Nat) (pg : BitVec 3) (f : Nat → Acc) : Res :=
  e.reg fun y => e.x.setAGroup y va n (e.x.active pg) f

/-- The vector MAC rows, modulo 2^40 (R164). -/
def semVmac (e : Env) (fn : VMacFn) (va : BitVec 3) (vs1 vs2 : BitVec 5) (pg : BitVec 3) : Res :=
  let n := e.x.count 16
  e.avec va n pg fun i => BitVec.ofInt 40 ((e.x.aelt va i).toInt + vmacTerm e.x fn vs1 vs2 n i)

/-- `vclr.acc`, `vmov.va` and `vmov.vau`. -/
def semVacc (e : Env) (fn : VAccFn) (va : BitVec 3) (vs1 sh : BitVec 5) (pg : BitVec 3) : Res :=
  e.avec va (e.x.count 16) pg fun i =>
    match fn with
    | .clr => 0
    | .movVa => (e.x.elt vs1 16 i).signExtend 40 <<< sh.toNat
    | .movVau => (e.x.elt vs1 16 i).setWidth 40 <<< sh.toNat

/-! ### Floating point (R165, R166) -/

/-- The format of a floating W field: 0b00 FP32, 0b01 BF16. -/
def fmtOf (w : BitVec 2) : Fmt := if w = 0 then fp32 else bf16

/-- The bits of a floating W field. -/
def fbits (w : BitVec 2) : Nat := if w = 0 then 32 else 16

/-- An element as a floating-point value. -/
def Ctx.felt (x : Ctx) (w : BitVec 2) (r : BitVec 5) (i : Nat) : Fp :=
  (fmtOf w).unpack (x.elt r (fbits w) i).toNat

/-- One floating-point result before its rounding; `d` is the destination's old value. -/
def vfpVal (fn : VFpFn) (d a b : Fp) : Fp :=
  match fn with
  | .add => a.add b
  | .sub => a.add b.neg
  | .mul => a.mul b
  | .fma => d.add (a.mul b)
  | .fms => d.add (a.mul b).neg
  | .min => a.min b
  | .max => a.max b
  | .abs => a.abs
  | .neg => a.neg

/-- Major 0x22. -/
def semVfp (e : Env) (fn : VFpFn) (vd vs1 vs2 : BitVec 5) (pg : BitVec 3) (w : BitVec 2) : Res :=
  let wb := fbits w
  e.vec vd wb (e.x.count wb) pg fun i =>
    BitVec.ofNat wb ((fmtOf w).pack
      (vfpVal fn (e.x.felt w vd i) (e.x.felt w vs1 i) (e.x.felt w vs2 i)))

/-! ### Length, compares and predicates (R143, R159) -/

/-- `vsetl`. -/
def semVsetl (e : Env) (rd rs : BitVec 5) (sew g : BitVec 2) : Res :=
  let vl : BitVec 12 := BitVec.ofNat 12 (min (e.x.rd rs).toNat (vlmax sew g))
  e.reg fun y => { y with sew := sew, grp := g, vl := vl }.setD rd (vl.setWidth 32)

/-- `vsetl.r`: restores a word of `vgetl`. -/
def semVsetlR (e : Env) (rs : BitVec 5) : Res :=
  let w := e.x.rd rs
  let sew := fld w 12 2
  let g := fld w 14 2
  if sew = 3 then e.reg fun y => { y with vl := 0, sew := 0, grp := 0 }
  else e.reg fun y => { y with
    vl := BitVec.ofNat 12 (min (fld w 0 12).toNat (vlmax sew g)), sew := sew, grp := g }

/-- `vgetl`. -/
def semVgetl (e : Env) (rd : BitVec 5) : Res :=
  let v : Word := e.x.vl.setWidth 32 ||| (e.x.sew.setWidth 32 <<< 12) ||| (e.x.grp.setWidth 32 <<< 14)
  e.reg (·.setD rd v)

/-- The vector compares. -/
def semVcmp (e : Env) (fn : VCmpFn) (pd : BitVec 3) (vs1 vs2 : BitVec 5) (pg : BitVec 3)
    (w : BitVec 2) : Res :=
  let isF := match fn with
    | .feq | .flt => true
    | _ => false
  let wb := if isF then fbits w else e.x.width w
  let v := e.x.predOf pg (e.x.count wb) fun i =>
    let a := e.x.elt vs1 wb i
    let b := e.x.elt vs2 wb i
    let fa := e.x.felt w vs1 i
    let fb := e.x.felt w vs2 i
    match fn with
    | .eq => a == b
    | .lt => a.slt b
    | .ltu => a.ult b
    | .le => a.sle b
    | .feq => !fa.isNan && !fb.isNan && fa.cmp fb == 0
    | .flt => !fa.isNan && !fb.isNan && decide (fa.cmp fb < 0)
  e.reg (·.setP pd v)

/-- How many bits of a predicate count, at the width that the encoding or VTYPE gives (R145, R148). -/
def Ctx.pcount (x : Ctx) (w : BitVec 2) : Nat := x.count (x.width w)

/-- The predicate logic; `pany` and `pall` fill every bit. -/
def semPred (e : Env) (fn : PredFn) (pd ps1 ps2 pg : BitVec 3) (w : BitVec 2) : Res :=
  let n := e.x.pcount w
  let a (i : Nat) := bit (e.x.rp ps1) i
  let b (i : Nat) := bit (e.x.rp ps2) i
  let v := match fn with
    | .and => e.x.predOf pg n fun i => a i && b i
    | .or => e.x.predOf pg n fun i => a i || b i
    | .xor => e.x.predOf pg n fun i => a i ^^ b i
    | .not => e.x.predOf pg n fun i => !a i
    | .any => predAll ((List.range n).any fun i => e.x.active pg i && a i)
    | .all => predAll ((List.range n).all fun i => !e.x.active pg i || a i)
  e.reg (·.setP pd v)

/-- `pcnt`. -/
def semPcnt (e : Env) (rd : BitVec 5) (ps pg : BitVec 3) (w : BitVec 2) : Res :=
  let v := BitVec.ofNat 32 (countIdx (e.x.pcount w) fun i => e.x.active pg i && bit (e.x.rp ps) i)
  e.reg (·.setD rd v)

/-! ### Permutes (R160) -/

/-- Major 0x24. -/
def semVperm (e : Env) (fn : VPermFn) (vd vs1 vs2 : BitVec 5) (pg : BitVec 3) (w : BitVec 2) : Res :=
  let wb := e.x.width w
  let n := e.x.count wb
  let a (i : Nat) := e.x.elt vs1 wb i
  let b (i : Nat) := e.x.elt vs2 wb i
  let y (i : Nat) := if i % 2 = 0 then a (i / 2) else b (i / 2)
  let xx (i : Nat) := if i < n then a i else b (i - n)
  let s := (e.x.rd vs2).toNat
  e.vec vd wb n pg fun i =>
    match fn with
    | .perm => if (b i).toNat < n then a (b i).toNat else 0
    | .slideup => if s ≤ i then a (i - s) else 0
    | .slidedn => if i + s < n then a (i + s) else 0
    | .zipLo => y i
    | .zipHi => y (n + i)
    | .unzipE => xx (2 * i)
    | .unzipO => xx (2 * i + 1)
    | .rev => a (n - 1 - i)
    | .trn =>
      let blk := i / 256
      if 256 * (blk + 1) ≤ n then a (256 * blk + 16 * (i % 16) + i % 256 / 16) else a i
    | .bcast => (e.x.rd vs1).setWidth wb

/-! ### Reductions (R161, R166, R167) -/

/-- The pairwise tree of R166 over 2^k sums, rounded to FP32 at each step. -/
def treeSum : Nat → List Nat → Nat
  | 0, l => l.headD 0
  | k + 1, l =>
    treeSum k ((List.range (l.length / 2)).map fun i =>
      fp32.pack (Fp.add (fp32.unpack (l.getD (2 * i) 0)) (fp32.unpack (l.getD (2 * i + 1) 0))))

/-- The least k with n ≤ 2^k. -/
def log2Up (n : Nat) : Nat := if n ≤ 1 then 0 else Nat.log2 (n - 1) + 1

/-- The index at which a search settles: the lowest whose value no other active one beats. -/
def bestIdx (idx : List Nat) (better : Nat → Nat → Bool) : Option Nat :=
  idx.foldl (fun (m : Option Nat) i =>
    match m with
    | none => some i
    | some j => if better i j then some i else some j) none

/-- The block exponent at width `w` of values given as integers (R167). -/
def blockExp (w : Nat) (vals : List (BitVec w)) : Nat :=
  vals.foldl (fun r v =>
    let u := if v.msb then ~~~v else v
    Nat.min r (w - bitLen u.toNat - 1)) (w - 1)

/-- Major 0x25 (R161). DESIGN CHOICE: where the two results of a search name one register, the index, which R161 gives
last, stays. -/
def semVred (e : Env) (fn : VRedFn) (rd vs1 rd2 : BitVec 5) (pg : BitVec 3) (w : BitVec 2) : Res :=
  let wb := e.x.width w
  let act (n : Nat) := (List.range n).filter (e.x.active pg)
  let ints := act (e.x.count wb)
  let val (i : Nat) := (e.x.elt vs1 wb i).toInt
  let lo : Int := -(2 ^ (wb - 1))
  let hi : Int := 2 ^ (wb - 1) - 1
  let one (v : Word) := e.reg (·.setD rd v)
  let two (v i : Word) := e.reg fun y => (y.setD rd v).setD rd2 i
  let fn' := act (e.x.count (fbits w))
  let nums := fn'.filter fun i => !(e.x.felt w vs1 i).isNan
  let fv (i : Nat) := e.x.felt w vs1 i
  match fn with
  | .sum => one (BitVec.ofInt 32 (ints.foldl (fun s i => s + val i) 0))
  | .sumu => one (BitVec.ofNat 32 (ints.foldl (fun s i => s + (e.x.elt vs1 wb i).toNat) 0))
  | .max => one (BitVec.ofInt 32 (ints.foldl (fun m i => max m (val i)) lo))
  | .min => one (BitVec.ofInt 32 (ints.foldl (fun m i => min m (val i)) hi))
  | .maxi =>
    match bestIdx ints fun i j => decide (val j < val i) with
    | some i => two (BitVec.ofInt 32 (val i)) (BitVec.ofNat 32 i)
    | none => two (BitVec.ofInt 32 lo) 0xFFFFFFFF
  | .mini =>
    match bestIdx ints fun i j => decide (val i < val j) with
    | some i => two (BitVec.ofInt 32 (val i)) (BitVec.ofNat 32 i)
    | none => two (BitVec.ofInt 32 hi) 0xFFFFFFFF
  | .bexp => one (BitVec.ofNat 32 (blockExp wb (ints.map fun i => e.x.elt vs1 wb i)))
  | .bexpAcc =>
    one (BitVec.ofNat 32 (blockExp 40 ((act (e.x.count 16)).map fun i =>
      e.x.aelt (vs1.setWidth 3) i)))
  | .fsum =>
    let n := e.x.count (fbits w)
    let k := log2Up n
    one (BitVec.ofNat 32 (treeSum k ((List.range (2 ^ k)).map fun i =>
      if decide (i < n) && e.x.active pg i then fp32.pack (fv i) else 0)))
  | .fmaxi =>
    match bestIdx nums fun i j => (fv j).below (fv i) with
    | some i => two (BitVec.ofNat 32 (fp32.pack (fv i))) (BitVec.ofNat 32 i)
    | none => two 0x7FC00000 0xFFFFFFFF
  | .fmini =>
    match bestIdx nums fun i j => (fv i).below (fv j) with
    | some i => two (BitVec.ofNat 32 (fp32.pack (fv i))) (BitVec.ofNat 32 i)
    | none => two 0x7FC00000 0xFFFFFFFF

/-! ### Conversions and element moves (R162) -/

/-- The source and destination widths of a conversion. -/
def cvtWidths : VCvtFn → Nat × Nat
  | .sW | .wS => (32, 32)
  | .sBf => (16, 32)
  | .bfS => (32, 16)
  | .sE4 | .sE5 => (8, 32)
  | .e4S | .e5S => (32, 8)
  | .hB | .hBu => (8, 16)

/-- One converted element, as a number. -/
def cvtVal (fn : VCvtFn) (v : Nat) : Nat :=
  match fn with
  | .sW => fp32.pack (Fp.ofInt (BitVec.ofNat 32 v).toInt)
  | .wS => (BitVec.ofInt 32 ((fp32.unpack v).toInt (-(2 ^ 31)) (2 ^ 31 - 1))).toNat
  | .sBf => fp32.pack (bf16.unpack v)
  | .bfS => bf16.pack (fp32.unpack v)
  | .sE4 => fp32.pack (unpackE4 v)
  | .sE5 => fp32.pack (e5m2.unpack v)
  | .e4S => packE4 (fp32.unpack v)
  | .e5S => packE5 (fp32.unpack v)
  | .hB => ((BitVec.ofNat 8 v).signExtend 16).toNat
  | .hBu => v

/-- The conversions. -/
def semVcvt (e : Env) (fn : VCvtFn) (vd vs1 : BitVec 5) (pg : BitVec 3) : Res :=
  let ws := cvtWidths fn
  e.vec vd ws.2 (e.x.count (max ws.1 ws.2)) pg fun i =>
    BitVec.ofNat ws.2 (cvtVal fn (e.x.elt vs1 ws.1 i).toNat)

/-- `vext`: an element sign-extended into a data register. -/
def semVext (e : Env) (rd vs1 rs : BitVec 5) (w : BitVec 2) : Res :=
  let wb := e.x.width w
  let i := (e.x.rd rs).toNat
  let v : Word := if i < e.x.count wb then (e.x.elt vs1 wb i).signExtend 32 else 0
  e.reg (·.setD rd v)

/-- `vins`: a data register into one active element. -/
def semVins (e : Env) (vd rs1 rs2 : BitVec 5) (pg : BitVec 3) (w : BitVec 2) : Res :=
  let wb := e.x.width w
  let k := (e.x.rd rs2).toNat
  e.reg fun y => e.x.setGroup y vd wb (e.x.count wb) (fun i => i == k && e.x.active pg i)
    fun _ => (e.x.rd rs1).setWidth wb

/-! ### Table lookup (R168, R169) -/

/-- Entry `i` of a lookup table. -/
def Ctx.lutAt (x : Ctx) (t : BitVec 1) (i : Nat) : Word := Tab.get 0 (x.lut.get t.toFin) i

/-- `vlut` and `vlut.i`. -/
def semVlut (e : Env) (interp : Bool) (t : BitVec 1) (vd vs1 : BitVec 5) (pg : BitVec 3)
    (w : BitVec 2) : Res :=
  let wo := e.x.width w
  let ws := if interp then 16 else e.x.sewBits
  e.vec vd wo (e.x.count (max wo ws)) pg fun i =>
    let a := (e.x.elt vs1 ws i).toNat
    if interp then
      let idx := a / 256
      let j := min (idx + 1) 255
      let lo := (e.x.lutAt t idx).toInt
      satS wo (lo + cround (((e.x.lutAt t j).toInt - lo) * (a % 256 : Nat)) 8)
    else (e.x.lutAt t (a % 256)).setWidth wo

/-! ### The depthwise path (R170, R171) -/

/-- `vdwin`: B moves into A, the register into B. -/
def semVdwin (e : Env) (wr : BitVec 3) (v : BitVec 5) : Res :=
  let old := e.x.wr.get wr.toFin
  let new : WinReg := (old >>> 2048) ||| ((e.x.vreg v.toNat).setWidth 4096 <<< 2048)
  e.reg fun y => { y with wr := y.wr.set wr.toFin.val new wr.toFin.isLt }

/-- `vdwmac`: one kernel row over a window, modulo 2^40. -/
def semVdwmac (e : Env) (va wr : BitVec 3) (v : BitVec 5) (k dil : BitVec 2) (c32 u z : Bool) : Res :=
  let kk := 2 * k.toNat + 3
  let d := dil.toNat + 1
  let ch := if c32 then 32 else 16
  let win := e.x.wr.get wr.toFin
  let wt := e.x.vreg v.toNat
  let act (i : Nat) : Int :=
    let b := win.extractLsb' (8 * i) 8
    if u then b.toNat else b.toInt
  let f (j : Nat) : Acc :=
    let p := j / ch
    let c := j % ch
    let base : Int := if z then 0 else (e.x.aelt va j).toInt
    BitVec.ofInt 40 ((List.range kk).foldl (fun s kx =>
      s + act ((p + kx * d) * ch + c) * (wt.extractLsb' (8 * (kx * ch + c)) 8).toInt) base)
  let half (h : Nat) : VAcc := tabulate 5120 128 fun j => f (128 * h + j)
  e.reg fun y => (y.setVa va.toNat (half 0)).setVa (va.toNat + 1) (half 1)

end Sys2Proof.Machine
end

