-- ==== Sys2Proof/Machine/VecMem.lean ====
section
/-! DEFINITION. Vector loads and stores, mid-vector faults, and the lookup-table accesses (R168, R172
to R184). -/

namespace Sys2Proof.Machine

/-- The effective address of a VM operand (R156, R172). -/
def Ctx.vea (x : Ctx) (ab : BitVec 4) (off : VOff) : Word :=
  match off with
  | .imm i => x.ra ab + (i.signExtend 32 <<< 6)
  | .reg rx _ => x.ra ab + x.rd rx
  | .short i => x.ra ab + BitVec.ofNat 32 (i.toNat * (x.vl.toNat * x.sewBits / 8))

/-- What a vector memory operation addresses (R172): its base address, its element addresses, the
alignment test of its base and strides, and the width that bounds its length. -/
structure VAddr where
  ea : Word
  addr : Nat → Word
  aligned : Bool
  wmax : Nat

/-- The addresses of a vector memory form (R172, R174). -/
def Ctx.vaddr (x : Ctx) (fn : VMemFn) (ab : BitVec 4) (off : VOff) : VAddr :=
  let w := x.sewBits
  let eb := w / 8
  let ok (v : Word) : Bool := v.toNat % eb == 0
  match fn, off with
  | .unit, off =>
    let ea := x.vea ab off
    ⟨ea, fun i => ea + BitVec.ofNat 32 (i * eb), ok ea, w⟩
  | .strided, .reg rx _ =>
    let ea := x.ra ab
    let st := x.rd rx
    ⟨ea, fun i => ea + BitVec.ofNat 32 i * st, ok ea && ok st, w⟩
  | .twoD, .reg rx _ =>
    let ea := x.ra ab
    let st := x.rd (rx + 1)
    let len := (fld (x.rd rx) 0 12).toNat
    let l := if len = 0 then 4096 else len
    ⟨ea, fun i => ea + BitVec.ofNat 32 (i / l) * st + BitVec.ofNat 32 (i % l * eb), ok ea && ok st, w⟩
  | .indexed, .reg rx sc =>
    let ea := x.ra ab
    let iw := if w = 32 then 32 else 16
    ⟨ea, fun i => ea + ((x.elt rx iw i).setWidth 32 <<< sc.toNat), true, max w iw⟩
  | _, _ => ⟨x.ra ab, fun _ => x.ra ab, true, w⟩

/-- The fault an active element meets, as its SUBCAUSE (R174, R179). -/
def Env.eltFault (e : Env) (store indexed : Bool) (eb : Nat) (a : Word) : Option Byte :=
  if indexed && a.toNat % eb != 0 then some 0x06
  else match target e.lc a with
  | none => some 0x05
  | some (.loc k) =>
    if store then none
    else if (List.range eb).any fun i => (e.core.sbByte (k + i)).isNone && e.core.marked (k + i) then
      some 0x0E
    else none
  | some (.remote _ _) => none
  | some (.hbm w off) =>
    match e.x.windowDva w off with
    | none => some 0x05
    | some dva =>
      if store then none
      else match (e.xl dva false e.s).1 with
        | .refused _ => some 0x0D
        | _ => none

/-- Two elements of one beat of 16 lie in different rows of one local bank: the later one (R175). DESIGN CHOICE: the
beats count every active element, remote and HBM ones with the local ones (R175 does not say). -/
def Env.bankClash (e : Env) (els : List (Nat × Word)) : Option Word :=
  let loc (a : Word) : Option Nat :=
    match target e.lc a with
    | some (.loc k) => some k
    | _ => none
  let beats := (List.range ((els.length + 15) / 16)).map fun b => (els.drop (16 * b)).take 16
  beats.findSome? fun beat =>
    (List.range beat.length).findSome? fun j =>
      let y := (beat.getD j (0, 0)).2
      match loc y with
      | none => none
      | some ky =>
        if (beat.take j).any fun z => match loc z.2 with
          | some kz => bankOf kz == bankOf ky && kz / 64 != ky / 64
          | none => false
        then some y else none

/-- A request of a vector access: the first element, and the elements it covers (R176). -/
abbrev VReq := List (Nat × Word)

/-- The elements grouped into requests: by 64-byte block for unit stride, one each otherwise (R176). -/
def vrequests (unit : Bool) : List (Nat × Word) → List VReq
  | [] => []
  | x :: xs =>
    match vrequests unit xs with
    | [] => [[x]]
    | (y :: ys) :: rs =>
      if unit && x.2 >>> 6 == y.2 >>> 6 then (x :: y :: ys) :: rs else [x] :: (y :: ys) :: rs
    | [] :: rs => [x] :: rs

/-- The bytes a request spans, from its first element, with `none` for bytes between its elements. -/
def reqBytes (eb : Nat) (val : Nat → List Byte) : VReq → List (Option Byte)
  | [] => []
  | (i, a) :: rest =>
    let here := (val i).map some
    match rest with
    | [] => here
    | (_, b) :: _ =>
      here ++ List.replicate ((b - a).toNat - eb) none ++ reqBytes eb val rest

/-- The bytes of a request's span that its elements name (R173). -/
def reqWant (eb : Nat) (r : VReq) : List Bool := (reqBytes eb (fun _ => List.replicate eb 0) r).map Option.isSome

/-- The span of a request in bytes. -/
def reqLen (eb : Nat) (r : VReq) : Nat :=
  match r.head?, r.getLast? with
  | some x, some y => (y.2 - x.2).toNat + eb
  | _, _ => 0

/-- The local elements of a load put into its group. -/
def loadLocal (e : Env) (y : Ctx) (v : BitVec 5) (els : List (Nat × Word)) : Ctx :=
  let w := e.x.sewBits
  let eb := w / 8
  let mine := els.filterMap fun x =>
    match target e.lc x.2 with
    | some (.loc k) => some (x.1, k)
    | _ => none
  e.x.setGroup y v w (e.x.count w) (fun i => mine.any fun x => x.1 == i) fun i =>
    match mine.find? fun x => x.1 == i with
    | some x => leVal w ((List.range eb).map fun j =>
        match e.core.sbByte (x.2 + j) with
        | some b => b
        | none => e.core.byte (x.2 + j))
    | none => 0

/-- The requests of a load take their turns, with one load record; each bears its first element (R176). -/
def sendLoads (e : Env) (v : BitVec 5) (reqs : List VReq) (s : State) : State :=
  let w := e.x.sewBits
  let eb := w / 8
  let far := reqs.filter fun r => match r.head? with
    | some x => (match target e.lc x.2 with
      | some (.loc _) => false
      | none => false
      | _ => true)
    | none => false
  if far.isEmpty then s
  else
    let id := (s.core e.t).loadId
    let act : VReg := bitsOf 2048 2048 fun i => far.any fun r => r.any fun x => x.1 == i
    let kinds := far.filterMap fun r => r.head?.map fun x => (x.1, match target e.lc x.2 with
      | some (.hbm ..) => true
      | _ => false)
    let s := s.modCore e.t fun q => q.newLoad fun i =>
      ⟨i, e.c, .vec v e.x.g w act, kinds, e.x.pc.setWidth 20, 0, none⟩
    far.foldl (fun s r =>
      match r.head? with
      | none => s
      | some x =>
        match target e.lc x.2 with
        | some (.remote k a) =>
          s.queueFar e.t e.c (.mesh ⟨e.lc, .ctx e.c, e.x.func, k, .read id x.1 a (reqLen eb r)
            (reqWant eb r)⟩)
        | some (.hbm win off) =>
          (match e.x.windowDva win off with
          | none => s
          | some dva =>
            match e.xl dva false s with
            | (.ok dpa, s) =>
              s.queueFar e.t e.c (.hbm ⟨.load e.lc e.c id x.1, e.x.func, dpa, reqLen eb r, none,
                (s.stackOf dpa).1, false⟩)
            | (_, s) => s)
        | _ => s) s

/-- A local load of these bytes must wait for the store buffer: some block is covered in part (R131,
R177). -/
def Env.mixed (e : Env) (bytes : List Nat) : Bool :=
  (bytes.map (· / 64)).eraseDups.any fun b =>
    let mine := bytes.filter fun a => a / 64 == b
    (mine.any fun a => (e.core.sbByte a).isSome) && mine.any fun a => (e.core.sbByte a).isNone

/-- The local bytes that elements name. -/
def Env.localBytes (e : Env) (eb : Nat) (els : List (Nat × Word)) : List Nat :=
  els.flatMap fun x => match target e.lc x.2 with
    | some (.loc k) => (List.range eb).map (k + ·)
    | _ => []

/-- A walk that a recovering stack holds stands before some element's translation (R400). -/
def Env.heldWalk (e : Env) (store : Bool) (els : List (Nat × Word)) : Bool :=
  els.any fun x => match target e.lc x.2 with
    | some (.hbm w off) =>
      (match e.x.windowDva w off with
      | some dva => (e.xl dva store e.s).1.isHeld
      | none => false)
    | _ => false

/-- The effect of a vector access on the elements `els`. -/
def vmemDo (e : Env) (store unit : Bool) (v : BitVec 5) (els : List (Nat × Word)) (s : State) : State :=
  let eb := e.x.sewBits / 8
  let reqs := vrequests unit els
  if store then
    reqs.foldl (fun s r =>
      match r.head? with
      | none => s
      | some x =>
        match storeAt e x.2 (reqBytes eb (fun i => leBytes (e.x.elt v e.x.sewBits i) eb) r) with
        | .ok f _ => f s
        | _ => s) s
  else
    let s := s.modCtx e.t e.c fun y => loadLocal e y v els
    sendLoads e v reqs s

/-- The VELEM of a resumable fault at element `i` (R178, R179). -/
def velemAt (i : Nat) (store : Bool) (sub : Byte) : Word :=
  BitVec.ofNat 32 (i % 4096) ||| 0x3000 ||| (b2v 32 store <<< 14) ||| (sub.setWidth 32 <<< 16)

/-- Vector loads and stores (R172 to R181). An access that resumes after a mid-vector fault starts at
VELEM.INDEX. -/
def semVmem (e : Env) (fn : VMemFn) (store : Bool) (v : BitVec 5) (ab : BitVec 4) (pg : BitVec 3)
    (off : VOff) : Res :=
  let q := e.x.vaddr fn ab off
  let w := e.x.sewBits
  let eb := w / 8
  let n := e.x.count q.wmax
  let start := if e.x.resuming then (fld e.x.velem 0 12).toNat else 0
  let els := ((List.range n).filter fun i => decide (start ≤ i) && e.x.active pg i).map fun i =>
    (i, q.addr i)
  let unit := fn == .unit
  if store && e.doneVal.isSome then .ok id .seq
  else if !q.aligned then e.exc 0x06 q.ea
  else match (if fn == .strided || fn == .twoD then e.bankClash els else none) with
  | some a => e.exc 0x08 a
  | none =>
    let bad := els.findSome? fun x =>
      (e.eltFault store (fn == .indexed) eb x.2).map fun c => (x.1, x.2, c)
    let good := match bad with
      | some b => els.filter fun x => decide (x.1 < b.1)
      | none => els
    let bytes := e.localBytes eb good
    if bytes.any fun a => e.core.paused a (e.s.rmapBank e.t) then e.portStall bytes
    else if !store && e.mixed bytes then e.sbStall
    else if e.heldWalk store good then .stall id
    else match bad with
    | none => .ok (vmemDo e store unit v els) .seq
    | some (i, a, code) =>
      .exc 0x0C 0 false fun s =>
        let s := vmemDo e store unit v good s
        let s := s.modCtx e.t e.c fun y => { y with velem := velemAt i store code }
        if code = 0x0E then
          (match target e.lc a with
          | some (.loc k) => s.uncorrectable e.t k
          | _ => s)
        else if code = 0x0D then
          (match target e.lc a with
          | some (.hbm win o) =>
            (match e.x.windowDva win o with
            | some dva => (e.xl dva false s).2
            | none => s)
          | _ => s)
        else s

/-- Word `i` from a local address, the store buffer's bytes before the bank's (R131). -/
def Env.localWord (e : Env) (a i : Nat) : Word :=
  leVal 32 ((List.range 4).map fun j => (e.core.sbByte (a + 4 * i + j)).getD (e.core.byte (a + 4 * i + j)))

/-- `vlutld` and `vlutst`: 1 KiB of local scratchpad, precise (R168). DESIGN CHOICE: R172 gives no effective address for
them, which is the unit-stride form's of the same VM layout; and EADDR of their exceptions is that address, not the one
of the word that is marked or lies outside (R136 does not say which). -/
def semVlutMem (e : Env) (store : Bool) (t : BitVec 1) (ab : BitVec 4) (off : VOff) : Res :=
  let ea := e.x.vea ab off
  if ea.toNat % 64 ≠ 0 then e.exc 0x06 ea
  else match target e.lc ea with
  | some (.loc a) =>
    if !localRange a 1024 then e.exc 0x05 ea
    else if (List.range 16).any fun i => e.core.paused (a + 64 * i) (e.s.rmapBank e.t) then e.portStall (linesOf a 1024)
    else if store && e.doneVal.isSome then .ok id .seq
    else if store then
      let bs := (List.range 256).flatMap fun i => leBytes (e.x.lutAt t i) 4
      .ok (fun s => s.modCore e.t fun k => k.sbStore e.c a bs) .seq
    else
      let held := (List.range 1024).map (a + ·)
      let put (f : Nat → Word) : Res :=
        let tab : Tab Word := (List.range 256).foldl (fun tb i => Tab.set 0 tb i (f i)) []
        e.reg fun y => { y with lut := y.lut.set t.toFin.val tab t.toFin.isLt }
      if e.doneVal.isSome then put e.doneWord
      else if e.mixed held then e.sbStall
      else
        if held.any fun k => (e.core.sbByte k).isNone && e.core.marked k then
          .exc 0x0E ea false fun s =>
            s.readMarks e.t a 1024
        else put (e.localWord a)
  | _ => e.exc 0x05 ea

/-! ### Accesses that go before the rest of their bundle (R115, R132, R311, R366) -/

/-- A plain store. -/
def Op.stores : Op → Bool
  | .store .. => true
  | .vmem _ store _ _ _ _ => store
  | .vlutMem store _ _ _ => store
  | _ => false

/-- A plain load of the scalar width, or of a lookup table. -/
def Op.loads : Op → Bool
  | .load .. => true
  | .vlutMem store _ _ _ => !store
  | _ => false

/-- A tagged load. -/
def Op.takes : Op → Bool
  | .tagged fn _ _ _ => fn == .peek || fn == .take
  | _ => false

/-- A tagged store. -/
def Op.puts : Op → Bool
  | .tagged fn _ _ _ => fn == .stT || fn == .put
  | _ => false

/-- A credit operation. -/
def Op.credits : Op → Bool
  | .crget .. | .crput .. => true
  | _ => false

/-- The operation loads or stores (R132). -/
def Op.accesses : Op → Bool
  | .load .. | .store .. | .tagged .. | .vmem .. | .vlutMem .. => true
  | _ => false

/-- The operation waits for the stores of its context before it (R132, R311, R331, R344, R366). -/
def Op.drains (x : Ctx) (o : Op) : Bool :=
  let io (rs : BitVec 5) (a : Word) : Bool :=
    match ioReg a.toNat with
    | some r => ioDrains r (x.rd rs)
    | none => false
  match o with
  | .tagged .. => Op.puts o
  | .crget .. | .crput .. | .mjob .. | .sjob .. | .dma .. | .dmac .. | .fenceSp | .fenceRm | .ctxEnd => true
  | .sync fn _ _ _ => fn == .add || fn == .set || fn == .cas
  | .out rs m => io rs (x.lm m .word).1
  | .outAt rs a => io rs (a.setWidth 32)
  | _ => false

/-- A tagged load in an HBM window, an acquire that does not block (R132, R301). -/
def Env.acquires (e : Env) (o : Op) : Bool :=
  match o with
  | .tagged _ size _ m =>
    Op.takes o && (match target e.lc (e.x.tm m size).1 with
      | some (.hbm ..) => true
      | _ => false)
  | _ => false

/-- A load beyond the core sent for the results of its bundle, which waits for it (R115, R132). -/
def Env.fetchEarly (e : Env) (size : MemSize) (tagged : Bool) (addr : Word) (s : State) : State :=
  let n := MemSize.bytes size
  let enter (hbm : Bool) (s : State) : State :=
    (s.modCore e.t fun q => q.newLoad fun i =>
      ⟨i, e.c, .place e.pos size tagged, [(0, hbm)], e.x.pc.setWidth 20, addr, none⟩).modCtx e.t e.c fun x =>
        { x with held := some e.core.loadId }
  match target e.lc addr with
  | some (.remote k a) =>
    (enter false s).queueFar e.t e.c (.mesh ⟨e.lc, .ctx e.c, e.x.func, k, .read e.core.loadId 0 a n []⟩)
  | some (.hbm w off) =>
    match e.x.windowDva w off with
    | none => s
    | some dva =>
      match e.xl dva false s with
      | (.ok dpa, s) => (enter true s).queueFar e.t e.c (.hbm
          ⟨.load e.lc e.c e.core.loadId 0, e.x.func, dpa, n, none, (s.stackOf dpa).1, false⟩)
      | (_, s) => s
  | _ => s

/-- A load performed before the rest of its bundle: what it reads becomes the result at its place. -/
def Env.loadEarly (e : Env) (o : Op) (s : State) : State :=
  let keep (vals : List Word) (s : State) : State := s.modCtx e.t e.c fun x => x.keepDone e.pos vals
  match o with
  | .load size _ m =>
    let q := (e.x.lm m size).1
    (match target e.lc q with
    | some (.loc a) =>
      (match e.core.load a (MemSize.bytes size) with
      | .bytes bs _ => keep [loadVal size bs] s
      | .wait => s)
    | _ => e.fetchEarly size false q s)
  | .tagged fn size _ m =>
    let q := (e.x.tm m size).1
    (match target e.lc q with
    | some (.loc a) =>
      let acc : TagAcc := ⟨fn, size, a, 0, q, true⟩
      keep [(e.core.tagAccess acc).1] (s.modCore e.t fun k => (k.tagAccess acc).2.2)
    | _ => e.fetchEarly size true q s)
  | .vlutMem false _ ab off =>
    (match target e.lc (e.x.vea ab off) with
    | some (.loc a) => keep ((List.range 256).map (e.localWord a)) s
    | _ => s)
  | _ => s

/-- A store performed before the rest of its bundle, but for its base update. -/
def Env.storeEarly (e : Env) (o : Op) (s : State) : State :=
  let r : Res := match o with
    | .store size rs m =>
      storeAt e (e.x.lm m size).1 ((leBytes (e.x.rd rs) (MemSize.bytes size)).map some)
    | .vmem fn store v ab pg off => semVmem e fn store v ab pg off
    | .vlutMem store t ab off => semVlutMem e store t ab off
    | _ => .ok id .seq
  match r with
  | .ok f _ => f s
  | _ => s

end Sys2Proof.Machine
end

