-- ==== Sys2Proof/Machine/Bundle.lean ====
section
/-! DEFINITION. A bundle issued (R78, R80, R81, R102, R104, R110 to R116, R122, R124, R136, R180 to
R183): its words, its checks, the outcomes of its operations, and what becomes of the context. -/

namespace Sys2Proof.Machine

/-! ### Outcomes of operations -/

/-- The MAC pipe is occupied: counted once for each operation that takes effect (R414). -/
def Res.macBusy (r : Res) (e : Env) : Res :=
  match r with
  | .ok f fl => .ok (fun s => (f s).count (.perf e.t.val) 0 1) fl
  | r => r

/-- The outcome of one operation of a bundle of `words` words. -/
def opRes (e : Env) (words : Nat) : Op → Res
  | .nop => .ok id .seq
  | .alu fn rd a b => semAlu e fn rd a b
  | .mov rd rs => semMov e rd rs
  | .mfp rd p => semMfp e rd p
  | .mtp p rs => semMtp e p rs
  | .aluImm fn rd a imm => semAluImm e fn rd a imm
  | .movi rd imm => semMovi e rd imm
  | .movhi rd imm => semMovhi e rd imm
  | .cmp fn pd a b => semCmp e fn pd a b
  | .mul fn rd a b => semMul e fn rd a b
  | .mac fn acc a b => semMac e fn acc a b
  | .clrAcc acc => semClrAcc e acc
  | .movAccFrom acc rs sh => semMovAccFrom e acc rs sh
  | .movAcc u rd acc sh => semMovAcc e u rd acc sh
  | .adda ad x rs => semAdda e ad x rs
  | .addaImm ad x imm => semAddaImm e ad x imm
  | .suba ad x rs => semSuba e ad x rs
  | .movaD ad rs => semMovaD e ad rs
  | .movaA ad x => semMovaA e ad x
  | .movd rd x => semMovd e rd x
  | .cmpa fn pd x y => semCmpa e fn pd x y
  | .load size rd m => semLoad e size rd m
  | .store size rs m => semStore e size rs m
  | .tagged fn size r m => semTagged e fn size r m
  | .br p neg soff => semBr e p neg soff
  | .call p neg soff => semCall e words p neg soff
  | .ret => semRet e
  | .loop k count endOff => semLoop e words k count endOff
  | .yield => semYield e
  | .fenceSp => semFenceSp e
  | .fenceRm => semFenceRm e
  | .ifl => semIfl e
  | .ctxEnd => semCtxEnd e
  | .inp rd m => semIn e rd (e.x.lm m .word).1
  | .out rs m => semOut e rs (e.x.lm m .word).1
  | .inAt rd io => semIn e rd (io.setWidth 32)
  | .outAt rs io => semOut e rs (io.setWidth 32)
  | .outp rs io => semOutp e rs io
  | .mfsr rd sr => semMfsr e rd sr
  | .mtsr sr rs => semMtsr e sr rs
  | .tagmode rs operand => semTagmode e rs operand
  | .eret => semEret e
  | .ctxReset => semCtxReset e
  | .irqOn => semIe e true
  | .irqOff => semIe e false
  | .crget d m => semCredit e false d m
  | .crput d m => semCredit e true d m
  | .sync fn d ab off => semSync e fn d ab off
  | .mjob d m => semMjob e d m
  | .dma d m => semDmaCmd e false d m
  | .dmac d m => semDmaCmd e true d m
  | .sjob d m => semSjob e d m
  | .vint fn vd a b pg w => semVint e fn vd a b pg w
  | .vimm fn vd a pg w imm => semVimm e fn vd a pg w imm
  | .vun fn vd a pg w => semVun e fn vd a pg w
  | .vnarrow fn vd va sh pg w => semVnarrow e fn vd va sh pg w
  | .vmac fn va a b pg => (semVmac e fn va a b pg).macBusy e
  | .vacc fn va a sh pg => (semVacc e fn va a sh pg).macBusy e
  | .vfp fn vd a b pg w => semVfp e fn vd a b pg w
  | .vsetl rd rs sew g => semVsetl e rd rs sew g
  | .vsetlR rs => semVsetlR e rs
  | .vgetl rd => semVgetl e rd
  | .vcmp fn pd a b pg w => semVcmp e fn pd a b pg w
  | .pred fn pd a b pg w => semPred e fn pd a b pg w
  | .pcnt rd ps pg w => semPcnt e rd ps pg w
  | .vperm fn vd a b pg w => semVperm e fn vd a b pg w
  | .vred fn rd a rd2 pg w => semVred e fn rd a rd2 pg w
  | .vcvt fn vd a pg => semVcvt e fn vd a pg
  | .vext rd a rs _ w => semVext e rd a rs w
  | .vins vd a b pg w => semVins e vd a b pg w
  | .vlut interp t vd a pg w => semVlut e interp t vd a pg w
  | .vlutMem store t ab off => semVlutMem e store t ab off
  | .vdwin wr v => semVdwin e wr v
  | .vdwmac va wr v k dil c32 u z => (semVdwmac e va wr v k dil c32 u z).macBusy e
  | .vmem fn store v ab pg off => semVmem e fn store v ab pg off

/-! ### The words of a bundle (R104, R110, R112) -/

/-- The words after the first that belong to the bundle: up to the first with E = 1. -/
def bundleWords : List Word → List Word
  | [] => []
  | w :: ws => if bit w 31 then [w] else w :: bundleWords ws

/-- The bundle ends within its words: it has one word, or its last has E = 1. -/
def bundleEnds (ws : List Word) : Bool :=
  match ws.getLast? with
  | none => true
  | some w => bit w 31

/-- The bundle crosses a fetch line or runs past four words, found from the E bits alone. -/
def bundleSplit (pc : Word) (ws : List Word) : Bool :=
  decide (64 < pc.toNat % 64 + 4 * (ws.length + 1)) || !bundleEnds ws || decide (3 < ws.length)

/-- The operations of a bundle, with none for an undefined one. An operation beside a short one is itself a short one,
and undefined where no short form reaches its operands (R105, R113). -/
def bundleOps (op : Op) (mate : Option (BitVec 15)) (ws : List Word) : List (Option Op) :=
  (match mate with
    | some m => [when (Op.shortForm op) (some op), decodeShort m]
    | none => [some op]) ++ ws.flatMap decodeWord

/-! ### What stands before a bundle issues (R81, R135, R183) -/

/-- The registers that a pending load will write. -/
def Load.regs (l : Load) : List Reg :=
  match l.dst with
  | .data rd _ | .acquire rd _ => [.d rd.toNat]
  | .vec v g _ _ => vgrp g v
  | .place .. => []

/-- The load is an acquire (R132). -/
def Load.acquires (l : Load) : Bool :=
  match l.dst with
  | .acquire .. => true
  | _ => false

/-- The first pending load of the context that blocks it: one whose destination the bundle reads or writes (R81,
R176). -/
def Core.pendingLoad (k : Core) (c : CtxId) (regs : List Reg) : Option Load :=
  k.loads.find? fun l => l.ctx == c && l.regs.any regs.contains

/-- An acquire of the context is pending, before which none of its later accesses is performed (R132). -/
def Core.acquiring (k : Core) (c : CtxId) : Bool := k.loads.any fun l => l.ctx == c && l.acquires

/-- The BLOCK code of a pending load: that of its first pending request (R176). -/
def Load.block (l : Load) : BitVec 4 :=
  match l.reqs.head? with
  | some (_, true) => 2
  | _ => 1

/-- A deferred fault of uncorrectable vector data whose group the bundle reads is taken there (R183). -/
def groupFault (t : Tile) (c : CtxId) (x : Ctx) (reads : List Reg) : List Res :=
  match x.deferred with
  | some d =>
    match d.velem with
    | some (n, v, g) =>
      if (vgrp g v).any reads.contains then
        [.exc 0x0C 0 true fun s => s.modCtx t c fun y =>
          { y with deferred := none, velem := n.setWidth 32 ||| 0x000E1000 }]
      else []
    | none => []
  | none => []

/-! ### Undefined results (R122, R182) -/

/-- Some active loop's body does not lie inside that of a lower active set (R122). -/
def Ctx.overlap (x : Ctx) : Bool :=
  (List.finRange 4).any fun k => (List.finRange 4).any fun j =>
    decide (j.val < k.val) && x.loopAct j.val && x.loopAct k.val &&
      (decide ((x.loops.get k).ls.toNat < (x.loops.get j).ls.toNat) ||
        decide ((x.loops.get j).le.toNat < (x.loops.get k).le.toNat))

/-- A register at an undefined value. -/
def Ctx.scramble (x : Ctx) (n : Nat) (r : Reg) : Ctx :=
  match r with
  | .a k => x.setA (BitVec.ofNat 4 k) (Config.freeWord (n + k))
  | .d k => x.setD (BitVec.ofNat 5 k) (Config.freeWord (n + 16 + k))
  | .acc k => x.setAcc (BitVec.ofNat 3 k) (Config.freeBits 40 (n + k))
  | .v k => x.setV k (Config.freeBits 2048 (n + k))
  | .va k => x.setVa k (Config.freeBits 5120 (n + k))
  | .p k => x.setP (BitVec.ofNat 3 k) (Config.freeBits 2048 (n + 32 + k))
  | .wr k => if h : k < 8 then { x with wr := x.wr.set k (Config.freeBits 4096 (n + k)) h } else x
  | .loop _ => x

/-- A resumed bundle in which a vector load's destination is another operation's source or its own index
group (R182). -/
def resumedClash (g : Nat) (ops : List Op) : Bool :=
  (List.range ops.length).any fun i =>
    match listAt .nop ops i with
    | .vmem fn false v _ _ off =>
      let dst := vgrp g v
      (match fn, off with
        | .indexed, .reg rx _ => (vgrp g rx).any dst.contains
        | _, _ => false) ||
      (List.range ops.length).any fun j =>
        j != i && (Op.reads g (listAt .nop ops j)).any dst.contains
    | _ => false

/-- The destination groups of vector loads. -/
def loadGroups (g : Nat) (ops : List Op) : List Reg :=
  ops.flatMap fun o => match o with
    | .vmem _ false v _ _ _ => vgrp g v
    | _ => []

/-- What the vector loads of a context numbered from `id` on still bring is lost in an undefined group (R182). -/
def Core.forgetLoads (k : Core) (c : CtxId) (id : Nat) : Core :=
  { k with loads := k.loads.map fun l =>
      if l.ctx == c && decide (id ≤ l.id) then
        { l with dst := match l.dst with
            | .vec v g w _ => .vec v g w 0
            | d => d }
      else l }

/-- Registers of a context left undefined (R182). -/
def State.scrambleRegs (s : State) (t : Tile) (c : CtxId) (regs : List Reg) : State :=
  let n := s.free
  let s := s.modCtx t c fun x => regs.foldl (fun y q => y.scramble n q) x
  { s with free := n + 64 }

/-- The next address and the loop sets of a context left undefined (R122). -/
def State.scrambleLoops (s : State) (t : Tile) (c : CtxId) : State :=
  let n := s.free
  let set (k : Fin 4) : LoopSet :=
    ⟨Config.freeBits 20 (n + k.val), Config.freeBits 20 (n + 4 + k.val), Config.freeBits 16 (n + k.val)⟩
  let s := s.modCtx t c fun x => { x with pc := Config.freeWord n, loops := Vector.ofFn set }
  { s with free := n + 8 }

/-! ### Issue -/

/-- A context takes an exception, and its resume line is that of the next bundle (R83, R126). -/
def State.except (s : State) (t : Tile) (c : CtxId) (code : Byte) (eaddr : Word) (deferred : Bool) : State :=
  let s := s.takeExc t c code eaddr deferred ((s.ctx t c).pc.setWidth 20)
  (s.modCore t fun k =>
    { k with resume := k.resume.set c.val (some (s.codeLine t ((k.ctxs.get c).pc.toNat / 64))) c.isLt }).reselect t

/-- A bundle that has issued takes an exception: its cycle counts (R100). -/
def State.fail (s : State) (t : Tile) (c : CtxId) (code : Byte) (eaddr : Word) (deferred : Bool) : State :=
  (s.issued t c).except t c code eaddr deferred

/-- A wait of a context counted on the PERF page: code 2 for HBM, code 1 for another core (R414). -/
def State.countWait (s : State) (t : Tile) (code : BitVec 4) : State :=
  if code = 2 then s.count (.perf t.val) 1 1 else if code = 1 then s.count (.perf t.val) 2 1 else s

/-- A context BLOCKED (R77). -/
def State.blockCtx (s : State) (t : Tile) (c : CtxId) (code : BitVec 4) (w : CtxWait) : State :=
  ((s.countWait t code).modCtx t c fun x => { x with run := .blocked, block := code, wait := w }).reselect t

/-- The codes whose exception keeps the base updates of its bundle (R102). -/
def keepsBase (code : Byte) : Bool :=
  code == 0x05 || code == 0x06 || code == 0x07 || code == 0x08 || code == 0x0D || code == 0x0E

/-- The base updates of a bundle's accesses, computed from the registers `old` (R102). -/
def Ctx.keepBases (y : Ctx) (ops : List Op) (old : Ctx) : Ctx :=
  ops.foldl (fun z o => Op.baseUpdate o old z) y

/-- The exception of lowest code among the outcomes, the earliest among equals (R136). -/
def lowestExc (rs : List Res) : Option (Byte × Word × Bool × (State → State)) :=
  rs.foldl (fun best r =>
    match r, best with
    | .exc c a d f, none => some (c, a, d, f)
    | .exc c a d f, some b => if c.toNat < b.1.toNat then some (c, a, d, f) else best
    | _, _ => best) none

/-- The first stall among the outcomes. -/
def firstStall (rs : List Res) : Option (State → State) :=
  rs.findSome? fun r => match r with
    | .stall f => some f
    | _ => none

/-- The outcome's block. -/
def Res.blocks (r : Res) : Option (BitVec 4 × CtxWait × (State → State)) :=
  match r with
  | .block c w f => some (c, w, f)
  | _ => none

/-- The first block among the outcomes of a bundle's operations, a tagged load's before a tagged store's, whose effect it
does not see (R115). -/
def firstBlock (ops : List Op) (rs : List Res) : Option (BitVec 4 × CtxWait × (State → State)) :=
  let of (p : Op → Bool) := (ops.zip rs).findSome? fun q => if p q.1 then q.2.blocks else none
  (of Op.takes).or (rs.findSome? Res.blocks)

/-- The store buffer brought back to its 16 entries: a store that finds it full goes on as entries drain
(R130). -/
def Core.drainTo16 (k : Core) : Nat → Core
  | 0 => k
  | n + 1 => if k.sb.length ≤ 16 then k else k.drain.drainTo16 n

/-- The stores of a bundle find the store buffer full: they have no effect and are tried again (R130, R177). -/
def sbOver (before after : Core) : Bool := decide (16 < after.sb.length) && !before.sb.isEmpty

/-- What a bundle's accesses leave under way: the store buffer within its 16 entries, and the requests in their
order, as many as the core's 32 places let leave (R81, R115, R130, R176). -/
def State.settleFar (s : State) (t : Tile) (c : CtxId) : State :=
  ((s.modCore t fun k => k.drainTo16 k.sb.length).modCtx t c Ctx.orderFar).pushAll t c

/-! ### The order within a bundle (R115, R131 to R133, R366)

A bundle whose ordering operation must find an earlier store of the same bundle performed is carried out in steps: the
store is performed, and its place marked; the bundle, issued again, waits as its ordering operation does. A load that such
a step would let see the bundle's own store is performed before it. -/

/-- The operation at place `i` of the bundle is one of these and is yet to be performed. -/
def Ctx.awaits (x : Ctx) (ops : List Op) (p : Op → Bool) (i : Nat) : Bool :=
  p (listAt .nop ops i) && !x.done.any fun d => d.1 == i

/-- The stores of a bundle that go first: each before an ordering operation behind it, and any before `ctx.end`. -/
def Env.storesFirst (e : Env) (ops : List Op) : List Nat :=
  let idx := List.range ops.length
  idx.filter fun i => e.x.awaits ops Op.stores i && idx.any fun j =>
    e.x.awaits ops (Op.drains e.x) j && (decide (i < j) || listAt .nop ops j == .ctxEnd)

/-- The loads of a bundle that go first: before its stores that do, before a tagged store that waits, before a credit
operation behind it; and an acquire of an HBM window before the accesses behind it. -/
def Env.loadsFirst (e : Env) (ops : List Op) (rs : List Res) : List Nat :=
  let idx := List.range ops.length
  let waits (p : Op → Bool) (j : Nat) : Bool := e.x.awaits ops p j && (listAt (.stall id) rs j).blocks.isSome
  let puts := idx.any (waits Op.puts) && !idx.any (waits Op.takes)
  idx.filter fun i =>
    (e.x.awaits ops (e.acquires ·) i && idx.any fun j => decide (i < j) && e.x.awaits ops Op.accesses j) ||
    (e.x.awaits ops Op.loads i && (puts || !(e.storesFirst ops).isEmpty ||
      idx.any fun j => decide (i < j) && e.x.awaits ops Op.credits j)) ||
    (e.x.awaits ops Op.takes i && puts)

/-- The step that goes before the bundle's other operations, where one must. -/
def Env.first (e : Env) (ops : List Op) (rs : List Res) : Option (State → State) :=
  if ops.length ≤ 1 then none
  else
    let at_ (i : Nat) : Env := { e with pos := i }
    match e.loadsFirst ops rs, e.storesFirst ops with
    | i :: _, _ => some fun s => ((at_ i).loadEarly (listAt .nop ops i) s).settleFar e.t e.c
    | [], i :: _ => some fun s =>
      let after := (at_ i).storeEarly (listAt .nop ops i) s
      if sbOver e.core (after.core e.t) then s.count (.core e.t.val) 6 1
      else (after.settleFar e.t e.c).modCtx e.t e.c fun x => x.keepDone i [0]
    | [], [] => none

/-- The effects in order, and where the context goes. -/
def applyAll (rs : List Res) (s : State) : State × Flow :=
  rs.foldl (fun a r => match r with
    | .ok f .seq => (f a.1, a.2)
    | .ok f fl => (f a.1, fl)
    | _ => a) (s, .seq)

/-- A vector load or store (R172). -/
def Op.vectorAccess : Op → Bool
  | .vmem .. => true
  | _ => false

/-- Data registers that this bundle's loads have already filled with uncorrectable data (R317). -/
def Env.tainted (e : Env) (ops : List Op) : List Reg :=
  (List.range ops.length).flatMap fun i =>
    if ({ e with pos := i } : Env).doneWord 1 = 0 then []
    else match listAt .nop ops i with
      | .load _ rd _ | .tagged _ _ rd _ => [.d rd.toNat]
      | _ => []

/-- A job ends by `ctx.end` (R77, R100, R366): RESULT and status from d0, the context IDLE, the next job
taken. A job that a function-level reset has stopped ends CANCELLED (R432). A replay's outcome belongs to
its partition (R537). -/
def State.endJob (s : State) (t : Tile) (lc : LCore) (c : CtxId) (d0 : Word) : State :=
  let s := s.modCtx t c fun x => { x with run := .idle, jobSeq := 0, chk := none, stopReq := false }
  let status : Byte := if bit d0 16 then 0x44 else 0
  ((s.finishJob lc c status (d0.setWidth 16)).startJobs lc).reselect t

/-- The board changed. -/
def State.modBoard (s : State) (f : Board → Board) : State := { s with board := f s.board }

/-- The answer is one that a BLOCKED context waits for. -/
def MeshAns.awaited : MeshAns → Bool
  | .tagged .. | .taggedRefused .. | .credit .. | .cancelled => true
  | _ => false

/-- The answer says that the access has been performed at its target. -/
def MeshAns.performed : MeshAns → Bool
  | .tagged .. | .credit .. => true
  | _ => false

/-- What a BLOCKED context waits for has already been performed, and its answer is on its way (R137). -/
def State.waitPerformed (s : State) (lc : LCore) (c : CtxId) : Bool :=
  (s.board.answers.any fun r => r.dst == lc && r.agent == .ctx c && r.ans.performed) ||
    s.sync.answers.any fun a => a.lc == lc && a.c == c

/-- A BLOCKED context abandons its wait; the operation that waits has no effect (R137). One that its target has
already performed is not abandoned: its answer ends the wait, and the boundary comes after its bundle. That an
earlier blocking operation of the same bundle is performed again is a DESIGN CHOICE. -/
def State.abandon (s : State) (t : Tile) (lc : LCore) (c : CtxId) : State :=
  if (s.ctx t c).run != .blocked || s.waitPerformed lc c then s
  else
    let mine (a : Agent) (n : LCore) : Bool := n == lc && a == .ctx c
    let waits (b : MeshBody) : Bool := match b with
      | .tagged .. | .credit .. | .cancel => true
      | _ => false
    let s := s.modSync fun b => b.forget lc c
    let s := s.modBoard fun b => { b with
      mesh := b.mesh.filter fun r => !(mine r.agent r.src && waits r.body)
      retried := b.retried.filter fun r => !(mine r.agent r.src && waits r.body)
      answers := b.answers.filter fun r => !(mine r.agent r.dst && r.ans.awaited) }
    let cores := s.cores.map fun k => { k with
      parked := k.parked.filter fun r => !mine r.agent r.src
      waiters := k.waiters.filter fun w => w != (lc, .ctx c) }
    let s := { s with cores := cores }
    s.modCtx t c fun x => { x with run := .ready, block := 0, wait := .none, done := [], held := none, fault := none }

/-- The context is RUNNING and stands between bundles: no operation of its next one has been performed, and every
request of the one before has left (R77, R135, R184). -/
def Ctx.atBoundary (x : Ctx) : Bool :=
  x.run == .running && x.done.isEmpty && x.held.isNone && x.fault.isNone && x.sending.isEmpty

/-- A STOP request of a context is taken at a bundle boundary; a context that abandons its wait is READY, and reaches one
when it next runs (R77, R137). -/
def State.takeStop (s : State) (t : Tile) (lc : LCore) (c : CtxId) : State :=
  let s := s.abandon t lc c
  if (s.ctx t c).atBoundary then
    (s.modCtx t c fun x => { x with stopReq := false }).except t c 0x10 0 false
  else s

/-- Data registers that a bundle writes hold no uncorrectable data any more. -/
def Ctx.cure (x : Ctx) (regs : List Reg) : Ctx :=
  { x with poison := x.poison.filter fun p => !regs.contains (.d p.1.toNat) }

/-- Uncorrectable data that a bundle reads from a data register is reported at that bundle, once (R135,
R317); DEDUCED. -/
def poisonRes (t : Tile) (c : CtxId) (x : Ctx) (reads : List Reg) : List Res :=
  match x.poison.find? fun p => reads.contains (.d p.1.toNat) with
  | some p => [.exc 0x0E p.2 false fun s => s.modCtx t c fun y => { y with poison := y.poison.erase p }]
  | none => []

/-- The effects of a bundle take hold and the context goes on; requests beyond the 32 outstanding stall it in
RUNNING from its next bundle on (R81). -/
def State.complete (s : State) (e : Env) (ops : List Op) (words : Nat) (r : State × Flow) : State :=
  if sbOver e.core (r.1.core e.t) then s.count (.core e.t.val) 6 1
  else
    let s := r.1.settleFar e.t e.c
    let g := e.x.g
    let s := if e.x.resuming && resumedClash g ops then
        (s.scrambleRegs e.t e.c (ops.flatMap fun o => Op.writes g o)).modCore e.t
          (·.forgetLoads e.c e.core.loadId) else s
    let here : BitVec 20 := e.x.pc.setWidth 20
    let vague := (s.ctx e.t e.c).overlap && ((s.ctx e.t e.c).endLoop here).isSome
    let s := s.modCtx e.t e.c fun x => x.cure ((ops.flatMap fun o => Op.writes g o).filter fun r =>
      !(e.tainted ops).contains r)
    let s := s.retire e.t e.c words r.2
    let s := if vague then s.scrambleLoops e.t e.c else s
    if ops.contains .ctxEnd then s.endJob e.t e.lc e.c (e.x.rd 0) else s.reselect e.t

/-- The exception of a code is one that an access of the bundle itself raises precisely: the outcomes `rs` of the
bundle's operations hold it (R102). -/
def raisedHere (rs : List Res) (code : Byte) : Bool :=
  rs.any fun r => match r with
    | .exc c _ d _ => c == code && !d
    | _ => false

/-- A vector access that a lower code of another operation stands before performs no element and leaves VALID 0
(R180). -/
def Ctx.dropVelem (x : Ctx) (other : Bool) (code : Byte) : Ctx :=
  if decide (code.toNat < 0x0C) && other then { x with velem := setBit x.velem 12 false } else x

/-- The code comes from an operation beside a vector access. -/
def otherThanVector (ops : List Op) (rs : List Res) (code : Byte) : Bool :=
  ops.any Op.vectorAccess && (ops.zip rs).any fun p => !Op.vectorAccess p.1 && raisedHere [p.2] code

/-- The bundle's operations have their outcomes: an exception, a stall, a step that goes before the others, a block, or
its effects. A resumed bundle that R182 leaves undefined is so where it faults again too. A mid-vector
fault whose elements before it have requests yet to leave is taken once they have. -/
def State.settleBundle (s : State) (e : Env) (ops : List Op) (words : Nat) (rs : List Res) : State :=
  let stallOr (r : State) : State :=
    match firstStall rs with
    | some f => f s
    | none => r
  match lowestExc rs with
  | some (code, eaddr, deferred, f) =>
    let go : State :=
      let after := f s
      if sbOver e.core (after.core e.t) then s.count (.core e.t.val) 6 1
      else
        let s := after.settleFar e.t e.c
        let s := if e.x.resuming && resumedClash e.x.g ops then
            (s.scrambleRegs e.t e.c (loadGroups e.x.g ops)).modCore e.t (·.forgetLoads e.c e.core.loadId) else s
        let s := if keepsBase code && !deferred && raisedHere (rs.take ops.length) code then
          s.modCtx e.t e.c fun y => y.keepBases ops e.x else s
        let s := s.modCtx e.t e.c fun x => x.dropVelem (otherThanVector ops rs code) code
        if (s.ctx e.t e.c).sending.isEmpty then s.fail e.t e.c code eaddr deferred
        else s.modCtx e.t e.c fun x => { x with fault := some (code, eaddr) }
    if deferred then stallOr go else go
  | none => stallOr <|
    match e.first ops rs with
    | some f => f s
    | none =>
      match firstBlock ops rs with
      | some (code, w, f) => (f s).blockCtx e.t e.c code w
      | none => s.complete e ops words (applyAll rs s)

/-- The bundle of a command issues on the RUNNING context of its core (R78). With no such context, or on a
tile that is paused for castling, nothing happens; while requests of the bundle before wait to leave (R81), while a
load of this one that goes first is on its way (R115, R132), or behind an acquire (R132), the context stalls. A STOP is taken at the boundary before the bundle's first operation is performed
(R137, R184). -/
def issue (i : Issue) (op : Op) (s : State) : State :=
  let t := s.tileOf i.core
  match (s.core t).running with
  | none => s
  | some c =>
    let x := s.ctx t c
    let ws := bundleWords i.rest
    let words := ws.length + 1
    let known := bundleOps op i.mate ws
    let ops := known.filterMap id
    let g := x.g
    let reads := ops.flatMap fun o => Op.reads g o
    let bad (o : Op) : Bool := !Op.legal o || !groupsOk g o
    let fail (code : Byte) (besides : Bool) : State :=
      (s.modCtx t c fun y => y.dropVelem (ops.any Op.vectorAccess && besides) code).fail t c code 0 false
    let many := decide (1 < known.length)
    if s.frozen t then s
    else if !x.sending.isEmpty then s.pushAll t c
    else if x.held.isSome then s
    else if x.stopReq && x.atBoundary then s.takeStop t i.core c
    else if 2 ^ 20 ≤ x.pc.toNat then s.except t c 0x04 0 false
    else if bundleSplit x.pc ws then fail 0x02 many
    else if known.any Option.isNone || ops.any bad then
      fail 0x01 (known.any Option.isNone || ops.any fun o => !Op.vectorAccess o && bad o)
    else if overLimit ops || clash g ops || (ops.any Op.privileged && decide (1 < words)) then fail 0x02 many
    else if ops.any Op.privileged && !x.priv then fail 0x03 many
    else match x.fault with
    | some (code, eaddr) =>
      (if keepsBase code then s.modCtx t c fun y => y.keepBases ops x else s).fail t c code eaddr false
    | none =>
      match (s.core t).pendingLoad c (ops.flatMap fun o => Op.reads g o ++ Op.writes g o) with
      | some l => s.blockCtx t c l.block (.load l.id)
      | none =>
        if ops.any Op.accesses && (s.core t).acquiring c then s
        else
        let e (n : Nat) : Env := ⟨t, i.core, c, x, s, n⟩
        s.settleBundle (e 0) ops words
          (((List.range ops.length).map fun n => opRes (e n) words (listAt .nop ops n)) ++
            (poisonRes t c x reads ++ groupFault t c x reads))

end Sys2Proof.Machine
end

