-- ==== Sys2Proof/Machine/AccessRows.lean ====
section
/-! DEFINITION. The loads, stores, IO, control and system rows of a bundle (R84, R97, R101, R109,
R118, R128, R132, R301, R306, R310, R383, R569 to R572). -/

namespace Sys2Proof.Machine

/-- LD_BU (R569): ld.bu loads a zero-extended byte from D-space. -/
def execLdBu (i : Issue) (rd : BitVec 5) (m : MemAddr) (s : State) :
    Host.Outcome State Fault Refusal :=
  .next (issue i (.load .byte rd m) s)

/-- LD_H (R569): ld.h loads a sign-extended halfword from D-space. -/
def execLdH (i : Issue) (rd : BitVec 5) (m : MemAddr) (s : State) :
    Host.Outcome State Fault Refusal :=
  .next (issue i (.load .half rd m) s)

/-- LD_W (R569): ld.w loads a word from local scratchpad, a remote core or an HBM window. -/
def execLdW (i : Issue) (rd : BitVec 5) (m : MemAddr) (s : State) :
    Host.Outcome State Fault Refusal :=
  .next (issue i (.load .word rd m) s)

/-- ST_B (R569): st.b stores the low byte of a data register. -/
def execStB (i : Issue) (rs : BitVec 5) (m : MemAddr) (s : State) :
    Host.Outcome State Fault Refusal :=
  .next (issue i (.store .byte rs m) s)

/-- ST_H (R569): st.h stores the low halfword of a data register. -/
def execStH (i : Issue) (rs : BitVec 5) (m : MemAddr) (s : State) :
    Host.Outcome State Fault Refusal :=
  .next (issue i (.store .half rs m) s)

/-- ST_W (R569): st.w stores a word to local scratchpad via the store buffer, or to a remote core or
HBM. -/
def execStW (i : Issue) (rs : BitVec 5) (m : MemAddr) (s : State) :
    Host.Outcome State Fault Refusal :=
  .next (issue i (.store .word rs m) s)

/-- LD_PEEK (R301): ld.peek reads a tagged slot once it is FULL and leaves it FULL. -/
def execLdPeek (i : Issue) (size : MemSize) (r : BitVec 5) (m : TagAddr) (s : State) :
    Host.Outcome State Fault Refusal :=
  .next (issue i (.tagged .peek size r m) s)

/-- LD_TAKE (R301): ld.take reads a tagged slot once it is FULL and sets it EMPTY. -/
def execLdTake (i : Issue) (size : MemSize) (r : BitVec 5) (m : TagAddr) (s : State) :
    Host.Outcome State Fault Refusal :=
  .next (issue i (.tagged .take size r m) s)

/-- ST_T (R301): st.t writes a tagged slot once it is EMPTY and leaves it EMPTY. -/
def execStT (i : Issue) (size : MemSize) (r : BitVec 5) (m : TagAddr) (s : State) :
    Host.Outcome State Fault Refusal :=
  .next (issue i (.tagged .stT size r m) s)

/-- ST_PUT (R301): st.put writes a tagged slot once it is EMPTY and sets it FULL. -/
def execStPut (i : Issue) (size : MemSize) (r : BitVec 5) (m : TagAddr) (s : State) :
    Host.Outcome State Fault Refusal :=
  .next (issue i (.tagged .put size r m) s)

/-- BR (R570): br branches to a bundle soff20 words away when the predicate condition holds,
clearing loop sets left. -/
def execBr (i : Issue) (p : BitVec 3) (neg : Bool) (soff : BitVec 20) (s : State) :
    Host.Outcome State Fault Refusal :=
  .next (issue i (.br p neg soff) s)

/-- CALL (R570): call branches as br and writes the return address to a14. -/
def execCall (i : Issue) (p : BitVec 3) (neg : Bool) (soff : BitVec 20) (s : State) :
    Host.Outcome State Fault Refusal :=
  .next (issue i (.call p neg soff) s)

/-- RET (R109): ret branches to the address in a14. -/
def execRet (i : Issue) (s : State) : Host.Outcome State Fault Refusal :=
  .next (issue i .ret s)

/-- LOOP (R118): loop starts hardware loop set k with its start, end and count. -/
def execLoop (i : Issue) (k : BitVec 2) (count : LoopCount) (endOff : BitVec 17) (s : State) :
    Host.Outcome State Fault Refusal :=
  .next (issue i (.loop k count endOff) s)

/-- YIELD (R77): yield makes the running context READY so another context may issue. -/
def execYield (i : Issue) (s : State) : Host.Outcome State Fault Refusal :=
  .next (issue i .yield s)

/-- FENCE_SP (R132): fence.sp waits until the store buffer is empty. -/
def execFenceSp (i : Issue) (s : State) : Host.Outcome State Fault Refusal :=
  .next (issue i .fenceSp s)

/-- FENCE_RM (R132): fence.rm waits until every remote and HBM store of the context is acknowledged.
-/
def execFenceRm (i : Issue) (s : State) : Host.Outcome State Fault Refusal :=
  .next (issue i .fenceRm s)

/-- IFL (R128): ifl empties the fetch buffer, the other contexts' resume lines and the BTB. -/
def execIfl (i : Issue) (s : State) : Host.Outcome State Fault Refusal :=
  .next (issue i .ifl s)

/-- CTX_END (R366): ctx.end ends the job once the context's remote stores are acknowledged and its
store-buffer entries drained, returning the context to IDLE. -/
def execCtxEnd (i : Issue) (s : State) : Host.Outcome State Fault Refusal :=
  .next (issue i .ctxEnd s)

/-- IN (R571): in reads a 32-bit IO-space word. -/
def execIn (i : Issue) (rd : BitVec 5) (m : MemAddr) (s : State) :
    Host.Outcome State Fault Refusal :=
  .next (issue i (.inp rd m) s)

/-- OUT (R571): out writes a data register to an IO-space address outside the protected range. -/
def execOut (i : Issue) (rs : BitVec 5) (m : MemAddr) (s : State) :
    Host.Outcome State Fault Refusal :=
  .next (issue i (.out rs m) s)

/-- OUT_P (R571): out.p writes a data register to the protected IO range at system level. -/
def execOutP (i : Issue) (rs : BitVec 5) (io : BitVec 12) (s : State) :
    Host.Outcome State Fault Refusal :=
  .next (issue i (.outp rs io) s)

/-- MFSR (R571): mfsr reads a system register into a data register. -/
def execMfsr (i : Issue) (rd sr : BitVec 5) (s : State) : Host.Outcome State Fault Refusal :=
  .next (issue i (.mfsr rd sr) s)

/-- MTSR (R571): mtsr writes a data register into a system register. -/
def execMtsr (i : Issue) (sr rs : BitVec 5) (s : State) : Host.Outcome State Fault Refusal :=
  .next (issue i (.mtsr sr rs) s)

/-- ERET (R84): eret restores PRIV from PPRIV, clears EXL and resumes at EPC, resuming a mid-vector
fault where VELEM says so. -/
def execEret (i : Issue) (s : State) : Host.Outcome State Fault Refusal :=
  .next (issue i .eret s)

/-- CTX_RESET (R572): ctx.reset zeroes the context's registers, windows, tables and HBM windows and
stalls for 64 cycles. -/
def execCtxReset (i : Issue) (s : State) : Host.Outcome State Fault Refusal :=
  .next (issue i .ctxReset s)

/-- IRQ_ON (R571): irq.on sets STATUS.IE. -/
def execIrqOn (i : Issue) (s : State) : Host.Outcome State Fault Refusal :=
  .next (issue i .irqOn s)

/-- IRQ_OFF (R571): irq.off clears STATUS.IE. -/
def execIrqOff (i : Issue) (s : State) : Host.Outcome State Fault Refusal :=
  .next (issue i .irqOff s)

/-- TAGMODE (R306): tagmode makes a tag region raw, tagged EMPTY or tagged FULL after checks, and
re-evaluates waiters on it. -/
def execTagmode (i : Issue) (rs : BitVec 5) (operand : BitVec 14) (s : State) :
    Host.Outcome State Fault Refusal :=
  .next (issue i (.tagmode rs operand) s)

/-- CRGET (R310): crget takes UNITS lines of credit from a mailbox into GRANT if enough credit is
free. -/
def execCrget (i : Issue) (d : BitVec 5) (m : MemAddr) (s : State) :
    Host.Outcome State Fault Refusal :=
  .next (issue i (.crget d m) s)

/-- CRPUT (R310): crput adds credit to the core's own mailbox, or with RET returns unused grant. -/
def execCrput (i : Issue) (d : BitVec 5) (m : MemAddr) (s : State) :
    Host.Outcome State Fault Refusal :=
  .next (issue i (.crput d m) s)

/-- SYNC_ADD (R383): sync.add posts an add to a synchronisation object with release semantics. -/
def execSyncAdd (i : Issue) (d : BitVec 5) (ab : BitVec 4) (off : BitVec 12) (s : State) :
    Host.Outcome State Fault Refusal :=
  .next (issue i (.sync .add d ab off) s)

/-- SYNC_SET (R383): sync.set posts a set of a synchronisation object with release semantics. -/
def execSyncSet (i : Issue) (d : BitVec 5) (ab : BitVec 4) (off : BitVec 12) (s : State) :
    Host.Outcome State Fault Refusal :=
  .next (issue i (.sync .set d ab off) s)

/-- SYNC_CAS (R383): sync.cas compares and swaps a synchronisation object and returns the old value
and success. -/
def execSyncCas (i : Issue) (d : BitVec 5) (ab : BitVec 4) (off : BitVec 12) (s : State) :
    Host.Outcome State Fault Refusal :=
  .next (issue i (.sync .cas d ab off) s)

/-- SYNC_WAIT (R383): sync.wait blocks until the object's value reaches a threshold. -/
def execSyncWait (i : Issue) (d : BitVec 5) (ab : BitVec 4) (off : BitVec 12) (s : State) :
    Host.Outcome State Fault Refusal :=
  .next (issue i (.sync .wait d ab off) s)

/-- SYNC_RD (R383): sync.rd reads a synchronisation object's value. -/
def execSyncRd (i : Issue) (d : BitVec 5) (ab : BitVec 4) (off : BitVec 12) (s : State) :
    Host.Outcome State Fault Refusal :=
  .next (issue i (.sync .rd d ab off) s)

end Sys2Proof.Machine
end

