-- ==== Sys2Proof/Machine/Keys.lean ====
section
/-! DEFINITION. Hash-based message codes, key derivation, the encryption of a line of HBM, sealed model keys and
the flit's CRC (R419, R439, R466, R468, R471, R473), over the ciphers, hash and curve that `Config` names. A byte
string of fixed length has its first byte in the lowest bits; a point or a private key of the curve is written as its
standard writes it, most significant byte first (PRESUMED). -/

namespace Sys2Proof.Machine

/-- The big-endian bytes of a point, private key or shared secret. -/
def beBytes {w : Nat} (v : BitVec w) : List Byte := (leBytes v (w / 8)).reverse

/-! ### The key derivation (R466) -/

/-- SHA-384 as bytes. -/
def hash (bytes : List Byte) : List Byte := leBytes (Config.sha384 bytes) 48

/-- HMAC-SHA-384 (R466), whose block is 128 bytes. -/
def hmac (key msg : List Byte) : List Byte :=
  let k := if 128 < key.length then hash key else key
  let pad (x : Byte) : List Byte := (List.range 128).map fun i => listAt 0 k i ^^^ x
  hash (pad 0x5C ++ hash (pad 0x36 ++ msg))

/-- Block `i` of a derivation: HMAC over the counter, the label, a zero byte, the context and the length in bits. -/
def kdfBlock (key label context : List Byte) (bits i : Nat) : List Byte :=
  hmac key (beBytes (BitVec.ofNat 32 i) ++ label ++ [0] ++ context ++ beBytes (BitVec.ofNat 32 bits))

/-- KDF(key, label, context, bits) (R466): the counter mode of SP 800-108, from block 1 on. PRESUMED, of that
standard: a 32-bit counter before the fixed input, and a 32-bit length after it. -/
def kdf (key label context : List Byte) (bits : Nat) : List Byte :=
  ((List.range ((bits + 383) / 384)).flatMap fun i => kdfBlock key label context bits (i + 1)).take (bits / 8)

/-- The ASCII bytes of a label (R466). -/
def labelBytes (s : String) : List Byte := s.toList.map fun c => BitVec.ofNat 8 c.toNat

/-- Half `i` of a derived string of 512 bits, as a key. -/
def halfKey (bs : List Byte) (i : Nat) : BitVec 256 := leVal 256 ((bs.drop (32 * i)).take 32)

/-! ### HBM (R419, R466) -/

/-- The data key and the tweak key of HBM: the halves of KDF(memory key, "HBM-XTS", empty, 512). -/
def hbmKeys : BitVec 256 × BitVec 256 :=
  let k := kdf (leBytes Config.memoryKey 32) (labelBytes "HBM-XTS") [] 512
  (halfKey k 0, halfKey k 1)

/-- A tweak multiplied by the primitive element of XTS's field. -/
def xtsNext (t : BitVec 128) : BitVec 128 := (t <<< 1) ^^^ (if bit t 127 then 0x87 else 0)

/-- AES-256-XTS of a data unit, block after block from tweak `t` on. -/
def xtsBlocks (key : BitVec 256) (t : BitVec 128) : List (BitVec 128) → List (BitVec 128)
  | [] => []
  | x :: xs => (Config.aes256 key (x ^^^ t) ^^^ t) :: xtsBlocks key (xtsNext t) xs

/-- The 64 bytes that HBM holds of the line at DPA `l`: AES-256-XTS with the tweak L >> 6 (R419). -/
def sealLine (l : Nat) (line : List Byte) : List Byte :=
  let t := Config.aes256 hbmKeys.2 (BitVec.ofNat 128 (l / 64))
  let blocks := (List.range 4).map fun i => leVal 128 ((line.drop (16 * i)).take 16)
  (xtsBlocks hbmKeys.1 t blocks).flatMap fun b => leBytes b 16

/-! ### The alias key and sealed model keys (R468, R473) -/

/-- The order of the curve P-384 (PRESUMED, FIPS 186-5). -/
def p384Order : Nat :=
  0xFFFFFFFFFFFFFFFFFFFFFFFFFFFFFFFFFFFFFFFFFFFFFFFFC7634D81F4372DDF581A0DB248B0A77AECEC196ACCC52973

/-- The seed of the alias key (R468), from the measurement and the mode's number; CHIP_REV is 257 (R469). -/
def aliasSeed (measure : BitVec 384) (mode : Nat) : List Byte :=
  kdf (beBytes Config.identityKey) (labelBytes "ALIAS")
    (leBytes measure 48 ++ [BitVec.ofNat 8 mode] ++ leBytes (257 : BitVec 16) 2) 448

/-- The alias private key: the seed by key-pair generation with extra random bits (R468). PRESUMED, of FIPS 186-5:
the seed, most significant byte first, modulo the order less one, plus one. -/
def aliasKey (measure : BitVec 384) (mode : Nat) : BitVec 384 :=
  BitVec.ofNat 384 (ofLe (aliasSeed measure mode).reverse % (p384Order - 1) + 1)

/-- AES-256-GCM decryption of a key under an IV with additional data; none where the tag differs (R473). -/
def gcmOpen (key : BitVec 256) (iv : BitVec 96) (aad : List Byte) (c : BitVec 256) (tag : BitVec 128) :
    Option (BitVec 256) :=
  if Config.gcmTag key iv aad (leBytes c 32) = tag then
    some (c ^^^ (Config.keyStream key iv 3 ++ Config.keyStream key iv 2))
  else none

/-- The model key that KEY_LOAD carries, unwrapped under the alias key of a measurement and mode (R473). -/
def unwrapKey (measure : BitVec 384) (mode : Nat) (slot : Byte) (fmask : BitVec 16) (ephemeral : BitVec 776)
    (iv : BitVec 96) (wrapped : BitVec 256) (tag : BitVec 128) : Option (BitVec 256) :=
  let z := beBytes (Config.ecdh (aliasKey measure mode) ephemeral)
  let aad := slot :: leBytes fmask 2
  let kek := halfKey (kdf z (labelBytes "XP-MODEL-KEY") (aad ++ beBytes ephemeral) 256) 0
  gcmOpen kek iv aad wrapped tag

/-! ### Vabor (R439, R471) -/

/-- The session keys of two devices, from this one's ephemeral private key and the other's public key, by PEERID: what
the lower one sends with, and what the higher one does (R471). -/
def vaborKeys (mine : BitVec 384) (theirs : BitVec 776) (lower : Bool) : BitVec 256 × BitVec 256 :=
  let a := beBytes (Config.publicKey mine)
  let b := beBytes theirs
  let k := kdf (beBytes (Config.ecdh mine theirs)) (labelBytes "VABOR") (if lower then a ++ b else b ++ a) 512
  (halfKey k 0, halfKey k 1)

/-- One bit of CRC-64's division by the ECMA-182 polynomial (R439). -/
def crc64Step (c : DWord) : DWord := (c <<< 1) ^^^ (if bit c 63 then 0x42F0E1EBA9EA3693 else 0)

/-- CRC-64 of bytes (R439): ECMA-182's, with each byte's highest bit first. PRESUMED, of that standard: the register
starts at 0 and is not inverted. -/
def crc64 (bytes : List Byte) : DWord :=
  let next (c : DWord) (b : Byte) : DWord := (List.range 8).foldl (fun c _ => crc64Step c) (c ^^^ (b.setWidth 64 <<< 56))
  bytes.foldl next 0

end Sys2Proof.Machine
end

