-- ==== Sys2Proof/Machine/Certificate.lean ====
section
/-! DEFINITION. The attestation report: the alias certificate as X.509 version 3 in DER (R469, R470). The encodings are
X.509's and its algorithms' (PRESUMED); log entry "The alias certificate" names the choices that they leave. -/

namespace Sys2Proof.Machine

/-! ### DER -/

/-- A length: one byte below 128, else a count byte and the bytes of the length. -/
def derLength (n : Nat) : List Byte :=
  if n < 128 then [BitVec.ofNat 8 n]
  else if n < 256 then [0x81, BitVec.ofNat 8 n]
  else [0x82, BitVec.ofNat 8 (n / 256), BitVec.ofNat 8 n]

/-- An element: its tag, its length and its content. -/
def der (tag : Byte) (content : List Byte) : List Byte := tag :: derLength content.length ++ content

/-- A SEQUENCE, a SET, an OCTET STRING, a BIT STRING of whole bytes, and a BOOLEAN that is true. -/
def derSeq (parts : List (List Byte)) : List Byte := der 0x30 parts.flatten

def derSet (parts : List (List Byte)) : List Byte := der 0x31 parts.flatten

def derOctets (bytes : List Byte) : List Byte := der 0x04 bytes

def derBits (bytes : List Byte) : List Byte := der 0x03 (0 :: bytes)

def derTrue : List Byte := der 0x01 [0xFF]

/-- An INTEGER that is not negative, from its bytes, the highest first: no needless leading zeros, and one where the top
bit is set. -/
def derInt (bytes : List Byte) : List Byte :=
  let l := bytes.dropWhile (· == 0)
  der 0x02 (match l with
    | [] => [0]
    | b :: _ => if bit b 7 then 0 :: l else l)

/-- A number in base 128, every digit but the last with its top bit set. -/
def base128 : Nat → Nat → List Byte
  | 0, n => [BitVec.ofNat 8 (n % 128)]
  | k + 1, n => if n < 128 then [BitVec.ofNat 8 n] else
      (base128 k (n / 128)).map (· ||| 0x80) ++ [BitVec.ofNat 8 (n % 128)]

/-- An OBJECT IDENTIFIER, its first two arcs as one number. -/
def derOid (first : Nat) (arcs : List Nat) : List Byte := der 0x06 ((first :: arcs).flatMap (base128 4))

/-! ### The certificate (R469) -/

/-- One attribute of a name. -/
def nameAttr (arc : Nat) (tag : Byte) (value : List Byte) : List Byte :=
  derSet [derSeq [derOid 85 [4, arc], der tag value]]

/-- The serial in 16 hexadecimal digits. -/
def serialDigits (serial : DWord) : List Byte :=
  (List.range 16).map fun i =>
    let d := (serial >>> (4 * (15 - i))).toNat % 16
    BitVec.ofNat 8 (if d < 10 then 48 + d else 55 + d)

/-- A name: CN, and the device's serial. -/
def certName (cn : String) : List Byte :=
  derSeq [nameAttr 3 0x0C (labelBytes cn), nameAttr 5 0x13 (serialDigits Config.serial)]

/-- ecdsa-with-SHA384. -/
def ecdsaSha384 : List Byte := derSeq [derOid 42 [840, 10045, 4, 3, 3]]

/-- The alias public key of a measurement and mode (R468). -/
def aliasPublic (measure : BitVec 384) (mode : Nat) : List Byte :=
  beBytes (Config.publicKey (aliasKey measure mode))

/-- serialNumber: the first 16 bytes of SHA-384 of the alias public key, with bit 127 cleared. -/
def certSerial (key : List Byte) : List Byte :=
  match (hash key).take 16 with
  | [] => []
  | b :: l => (b &&& 0x7F) :: l

/-- The Xanpol extension: version, measurement, mode and stepping; CHIP_REV is 257. -/
def xanpolExtension (measure : BitVec 384) (mode : Nat) : List Byte :=
  derSeq [derInt [1], derOctets (leBytes measure 48), der 0x0A [BitVec.ofNat 8 mode], derInt [1, 1]]

/-- The three extensions: basicConstraints and keyUsage, both critical, and Xanpol's. -/
def certExtensions (measure : BitVec 384) (mode : Nat) : List Byte :=
  der 0xA3 (derSeq [
    derSeq [derOid 85 [29, 19], derTrue, derOctets (derSeq [])],
    derSeq [derOid 85 [29, 15], derTrue, derOctets (der 0x03 [3, 0x88])],
    derSeq [derOid 105 [8320571], derOctets (xanpolExtension measure mode)]])

/-- What the identity key signs. -/
def certBody (measure : BitVec 384) (mode : Nat) : List Byte :=
  let key := aliasPublic measure mode
  let time (s : String) : List Byte := der 0x18 (labelBytes s)
  derSeq [
    der 0xA0 (derInt [2]), derInt (certSerial key), ecdsaSha384, certName "XP-SKV832 identity",
    derSeq [time "19700101000000Z", time "99991231235959Z"], certName "XP-SKV832 alias",
    derSeq [derSeq [derOid 42 [840, 10045, 2, 1], derOid 43 [132, 0, 34]], derBits key],
    certExtensions measure mode]

/-- The alias certificate of a measurement and mode. -/
def aliasCertificate (measure : BitVec 384) (mode : Nat) : List Byte :=
  let body := certBody measure mode
  let sig := beBytes (Config.ecdsaSign Config.identityKey body)
  derSeq [body, ecdsaSha384, derBits (derSeq [derInt (sig.take 48), derInt (sig.drop 48)])]

/-- The certificate chain of slot 0 (R470), as SPDM lays a chain out (PRESUMED): its length, two bytes reserved, the root
hash, which is SHA-384 of Xanpol's identity certificate for the device, and the one certificate. -/
def certificateChain (measure : BitVec 384) (mode : Nat) : List Byte :=
  let cert := aliasCertificate measure mode
  leBytes (BitVec.ofNat 16 (52 + cert.length)) 2 ++ [0, 0] ++ hash Config.identityCertificate ++ cert

end Sys2Proof.Machine
end

