-- ==== Sys2Proof/Machine/Control.lean ====
section
/-! DEFINITION. Commit and control registers: the start of a consistency check, and writes held while one
runs (R57, R59). -/

namespace Sys2Proof.Machine

/-- A check of a page is running: its CHECKING (R52); of a ring page, one of that ring. -/
def State.checkRuns (s : State) (c : PageClass) (k : Check) : Bool :=
  let l := (s.page (pageNo c)).checking
  match k with
  | .ring i => l.contains (.ring i) || l.contains .enable
  | _ => !l.isEmpty

/-- A check starts: CHECKING is set, REFUSED and REFUSE_CODE cleared (R59); a ring's in RING_STATUS
(R357). -/
def State.startCheck (s : State) (c : PageClass) (k : Check) : State :=
  match c, k with
  | .ring n, .ring i =>
    (s.modPage (pageNo c) fun p => { p with checking := p.checking ++ [k] }).modRing (16 * n + i.val)
      fun r => { r with refused := false, code := 0 }
  | _, _ => s.modPage (pageNo c) fun p =>
      { p with checking := p.checking ++ [k], refused := false, refuseCode := 0 }

/-- A write held until the check that runs ends (R57), or until the page's island goes on (R494). -/
def State.holdWrite (s : State) (c : PageClass) (x : HeldWrite) : State :=
  s.modPage (pageNo c) fun p => { p with held := p.held ++ [x] }

/-- A write that the page takes at once, or that waits for its island to go on (R494). DESIGN CHOICE: a read is answered
from the state that the island keeps. -/
def State.accept (s : State) (c : PageClass) (x : HeldWrite) (go : State → State) : State :=
  if s.gatedPage c then s.holdWrite c x else go s

/-- A write of a commit register: dropped where the writer may not write the page, held while a check
runs, else carried out (R57). -/
def State.commitWrite (s : State) (w : Who) (c : PageClass) (k : Check) (off : Nat) (data : Word)
    (go : State → State) : State :=
  if !s.mayWrite w c then s
  else if s.checkRuns c k then
    s.holdWrite c ⟨w, BitVec.ofNat 12 off, .b4, data.setWidth 64⟩
  else go s

end Sys2Proof.Machine
end

