-- ==== Sys2Proof/Machine/Mesh.lean ====
section
/-! DEFINITION. Events of the cores and of the mesh between them: requests at their targets, answers at
their senders, tag and credit waits, the store buffer, the quantum, interrupts and STOP (R79, R81, R125,
R130, R132, R135, R137, R298 to R314, R533). -/

namespace Sys2Proof.Machine

/-! ### Requests at a target (R298, R304, R312 to R314, R533) -/

/-- Two requests are of one sender and for one target (R133). -/
def MeshReq.sameWay (r q : MeshReq) : Bool := r.src == q.src && r.agent == q.agent && r.dst == q.dst

/-- The target core of a remote tagged access, from the address as issued. -/
def remoteOf (dad : Word) : LCore := ⟨(dad.toNat - 0x10000000) / 0x01000000 % 32, Nat.mod_lt _ (by omega)⟩

/-- The answer of a remote tagged access that has been performed, refused or lost (R301, R304, R533). -/
def MeshAns.ofTagged : MeshAns → Bool
  | .tagged .. | .taggedRefused .. | .lost => true
  | _ => false

/-- An answer on its way to the sender of a request; one to a recovering partition is discarded (R533). -/
def State.answer (s : State) (r : MeshReq) (a : MeshAns) : State :=
  if s.recovering (partOf r.src) then s
  else s.modBoard fun b => { b with answers := b.answers ++ [⟨r.src, r.agent, a⟩] }

/-- A request answered RETRY: its sender's router holds it (R304, R533). -/
def State.retryLater (s : State) (r : MeshReq) : State :=
  s.modBoard fun b => { b with retried := b.retried ++ [r] }

/-- The outcome of the credit check: the mailbox that takes the write, or a refusal with the mailbox
matched and its cause (R313, R314). -/
inductive Grant where
  | ok (m : Nat)
  | no (m : Nat) (cause : Nat)
  deriving DecidableEq, Repr

/-- The check of a write to `[a, a + n)` from core `src` under function `f` (R313). -/
def Core.grant (k : Core) (src : LCore) (f : Func) (a n : Nat) : Grant :=
  match firstIdx 64 fun i =>
      (k.mb i).en && decide ((k.mb i).range.1 ≤ a) && decide (a + n ≤ (k.mb i).range.2) with
  | none => .no 0 1
  | some i =>
    let m := k.mb i
    if (m.sender.toNat ≠ 0x3F ∧ m.sender.toNat ≠ src.val) ∨ m.func ≠ BitVec.ofNat 4 f.val then .no i 2
    else if m.grant = 0 then .no i 3
    else .ok i

/-- GRANT taken by an accepted write. -/
def Core.takeGrant (k : Core) (i : Nat) : Core :=
  { k with mbx := Tab.mod {} k.mbx i fun m => { m with grant := m.grant - 1 } }

/-- A refusal recorded at the target (R314). -/
def State.noCredit (s : State) (t : Tile) (r : MeshReq) (a m cause : Nat) : State :=
  let info := BitVec.ofNat 32 (r.src.val + 2 ^ 5 * r.func.val + 2 ^ 9 * m + 2 ^ 15 * cause)
  let s := s.modCore t fun k => { k with nocrAddr := BitVec.ofNat 32 a, nocrInfo := info }
  ((s.count (.spad t.val) 4 1).raise (.spad t.val) 1).log
    { spadReport t 3 (BitVec.ofNat 8 cause) a with func := r.func }

/-- The lowest local address of a slot (R293, R294). -/
def slotAddr (slot : Nat) : Nat :=
  if slot < 6144 then 512 * slot
  else if slot < 14336 then 0x400000 + 512 * (slot - 6144)
  else 0x800000 + 512 * (slot - 14336)

/-- A remote access parked at its target, or answered RETRY where 32 are (R304). -/
def State.park (s : State) (t : Tile) (r : MeshReq) : State :=
  if (s.core t).parked.length < 32 then
    s.modCore t fun k => { k with parked := k.parked ++ [r] }.waitsOn (r.src, r.agent)
  else (s.count (.spad t.val) 8 1).retryLater r

/-- A remote tagged access performed, and answered (R301, R302). -/
def State.remoteTagged (s : State) (t : Tile) (r : MeshReq) (op : Nat) (acc : TagAcc) : State :=
  let out := (s.core t).tagAccess acc
  let s := s.modCore t fun _ => out.2.2
  let s := if out.2.1 then s.uncorrectable t acc.addr else s
  s.answer r (.tagged op out.1 out.2.1 acc.dad)

/-- A DMA channel's wait is over: its slot lets it pass (R301). -/
def State.dmaGrant (s : State) (n : LCore) (c : Fin 8) : State :=
  s.modCh (s.tileOf n) c fun h =>
    if h.run == .waiting then { h with run := .ready, granted := h.wait, wait := none } else h

/-- A channel that waits at a slot, failed with a status (R347, R349); OFFSET names the write that waited, or else the next
byte. -/
def State.dmaWaitFail (s : State) (n : LCore) (c : Fin 8) (status : Byte) : State :=
  let t := s.tileOf n
  let h := (s.core t).ch c
  if h.run == .waiting then
    match h.first, h.outs.getLast? with
    | some ⟨_, _, false⟩, some w =>
      (s.modCh t c fun h => { h with outs := h.outs.dropLast, first := none }).dmaFail t c status w.1
    | _, _ => (s.modCh t c fun h => { h with first := none }).dmaFail t c status h.pos
  else s

/-- The sender of a cancel still waits for its tagged access at this target: the access has not been performed, for
then its answer would be on its way (R305). -/
def State.stillWaits (s : State) (r : MeshReq) : Bool :=
  match r.agent with
  | .dma _ => false
  | .ctx c =>
    (match (s.ctx (s.tileOf r.src) c).wait with
    | .remoteTag _ dad true _ => remoteOf dad == r.dst
    | _ => false) &&
      !s.board.answers.any fun x => x.dst == r.src && x.agent == r.agent && x.ans.ofTagged

/-- A tagged access that a cancel ends, taken from wherever it stands: on its way, answered RETRY, or parked at its
target (R304, R305). -/
def State.dropTagged (s : State) (t : Tile) (r : MeshReq) : State :=
  let mine (q : MeshReq) : Bool := q.sameWay r && (match q.body with
    | .tagged .. => true
    | _ => false)
  let s := s.modBoard fun b => { b with
    mesh := b.mesh.filter fun q => !mine q, retried := b.retried.filter fun q => !mine q }
  s.modCore t fun k => { k with
    parked := k.parked.filter fun q => !mine q
    waiters := if r.src == r.dst then k.waiters else k.waiters.filter fun w => w != (r.src, r.agent) }

/-- The bytes of an accepted write put in the banks; it has its credit (R313, R317). -/
def Core.meshPut (k : Core) (a : Nat) (data : List (Option Byte)) : Core :=
  (List.range data.length).foldl (fun k i =>
    match listAt none data i with
    | some b => { k with mem := Tab.set 0 k.mem (a + i) b }
    | none => k)
    { k with marks := endMarksOf k.marks a data }

/-- The change of a slot's tag by the last access of a tagged DMA channel (R301). -/
def Core.lastTag (k : Core) (slot : Nat) (full last : Bool) : Core :=
  if last && k.tagged slot then k.setTag slot full else k

/-- An access of a tagged DMA channel performed at another core's slot: a channel that waited there becomes READY
(R301, R334). -/
def State.dmaPass (s : State) (r : MeshReq) : State :=
  match r.agent with
  | .dma c => s.dmaGrant r.src c
  | .ctx _ => s

/-- The first access of a tagged DMA channel to a slot that does not let it pass: the channel waits, its access parked
here (R301, R304, R351). A channel that has been disabled has dropped its wait (R350). -/
def State.dmaParkAt (s : State) (t : Tile) (r : MeshReq) (slot : Nat) (full : Bool) : State :=
  match r.agent with
  | .ctx _ => s
  | .dma c =>
    let run := ((s.core (s.tileOf r.src)).ch c).run
    if run == .active || run == .waiting then (s.dmaWaits r.src c ⟨r.dst, slot, full⟩).park t r else s

/-- A read of a tagged DMA channel performed at another core's slot (R301, R317). -/
def State.dmaReadAt (s : State) (t : Tile) (r : MeshReq) (pos a n slot : Nat) (last : Bool) : State :=
  let k := s.core t
  let s := (s.readMarks t a n).modCore t fun k => k.lastTag slot false last
  (s.dmaPass r).answer r (.data 0 pos (k.bytes a n) ((List.range n).map fun i => k.marked (a + i)))

/-- A write of a tagged DMA channel, which has its credit, performed at another core's slot (R301). -/
def State.dmaWriteAt (s : State) (t : Tile) (r : MeshReq) (a : Nat) (data : List (Option Byte)) (slot : Nat)
    (last : Bool) : State :=
  ((s.modCore t fun k => (k.meshPut a data).lastTag slot true last).dmaPass r).answer r .written

/-- A request performed at its target (R298, R301, R304, R313, R317). -/
def State.perform (s : State) (t : Tile) (r : MeshReq) : State :=
  let k := s.core t
  match r.body with
  | .read id pos a n want =>
    let named (i : Nat) : Bool := want.getD i true
    let marks := (List.range n).map fun i => named i && k.marked (a + i)
    let words := (k.markedWords a n).filter fun w => (List.range n).any fun i => named i && (a + i) / 8 == w / 8
    (s.reportWords t words).answer r (.data id pos (k.bytes a n) marks)
  | .write a data issued =>
    match k.grant r.src r.func a data.length with
    | .no m cause => (s.noCredit t r a m cause).answer r (.refused 0x0F issued)
    | .ok m => (s.modCore t fun k => (k.takeGrant m).meshPut a data).answer r .written
  | .tagged op fn size a data issued =>
    let store := fn == .stT || fn == .put
    let acc : TagAcc := ⟨fn, size, a, data, issued, false⟩
    let ready := k.tagReady fn a && !k.contested r.dst (slotOf a)
    let go (s : State) : State := if ready then s.remoteTagged t r op acc else s.park t r
    if store then
      match k.grant r.src r.func a (MemSize.bytes size) with
      | .no m cause => (s.noCredit t r a m cause).answer r (.taggedRefused op issued)
      | .ok m => go (if ready || k.parked.length < 32 then s.modCore t (·.takeGrant m) else s)
    else go s
  | .cancel => if s.stillWaits r then (s.dropTagged t r).answer r .cancelled else s
  | .credit op put mbx data =>
    let out := k.creditOp r.dst r.src r.func put mbx.toNat data
    (s.modCore t fun _ => out.2).answer r (.credit op out.1)
  | .dmaRead pos a n slot first last =>
    if first && k.tagged slot && !(k.full slot && !k.contested r.dst slot) then s.dmaParkAt t r slot true
    else s.dmaReadAt t r pos a n slot last
  | .dmaWrite a data issued slot first last =>
    match k.grant r.src r.func a data.length with
    | .no m cause => ((s.noCredit t r a m cause).dmaPass r).answer r (.refused 0x0F issued)
    | .ok m =>
      if first && k.tagged slot && (k.full slot || k.contested r.dst slot) then
        (if k.parked.length < 32 then s.modCore t (·.takeGrant m) else s).dmaParkAt t r slot false
      else (s.modCore t (·.takeGrant m)).dmaWriteAt t r a data slot last

/-- The local address whose bank a request needs. -/
def MeshBody.bank : MeshBody → Option Nat
  | .read _ _ a _ _ | .write a _ _ | .tagged _ _ _ a _ _ | .dmaRead _ a .. | .dmaWrite a .. => some a
  | _ => none

/-- A request may be performed: no earlier one of its sender for its target was answered RETRY, since the accesses
of one context to one target are performed in order (R133); a cancel overtakes the access it cancels. -/
def State.inTurn (s : State) (r : MeshReq) : Bool :=
  r.body == .cancel || !s.board.retried.any r.sameWay

/-- The first request for a core of the kind `p` whose turn it is, taken from the mesh: answered RETRY while its
partition recovers, held while the core is paused or its bank takes no access, else performed (R30, R133, R321,
R533). -/
def State.serveMesh (s : State) (core : LCore) (p : MeshBody → Bool) : State :=
  let t := s.tileOf core
  let mine (r : MeshReq) : Bool := r.dst == core && p r.body && s.inTurn r
  match s.board.mesh.find? mine with
  | none => s
  | some r =>
    let taken := s.modBoard fun b => { b with mesh := b.mesh.eraseP mine }
    if s.recovering (partOf core) then taken.retryLater r
    else if s.frozen t then s
    else match r.body.bank with
      | some a => if s.bankHeld t a then s.portWait t [a] else taken.perform t r
      | none => if (s.core t).clearing then s else taken.perform t r

/-- A credit operation. -/
def MeshBody.isCredit : MeshBody → Bool
  | .credit .. => true
  | _ => false

/-- REMOTE_REQUEST (R298): the first request for the core, a credit operation apart. -/
def execRemoteRequest (core : LCore) (s : State) : Host.Outcome State Fault Refusal :=
  .next (s.serveMesh core fun b => !b.isCredit)

/-- CREDIT_OP_REQUEST (R312): the first credit operation for the core is applied and answered. -/
def execCreditOpRequest (core : LCore) (s : State) : Host.Outcome State Fault Refusal :=
  .next (s.serveMesh core MeshBody.isCredit)

/-- A request of a core that was answered RETRY is sent again, ahead of the later ones of its sender (R133). -/
def State.resend (s : State) (core : LCore) : State :=
  let mine (r : MeshReq) : Bool := r.src == core
  match s.board.retried.find? mine with
  | none => s
  | some r => s.modBoard fun b => { b with retried := b.retried.eraseP mine, mesh := r :: b.mesh }

/-- REMOTE_RETRY_RESEND (R304). -/
def execRemoteRetryResend (core : LCore) (s : State) : Host.Outcome State Fault Refusal :=
  .next (s.resend core)

/-! ### Answers at a sender -/

/-- The first answer to a context of a core that `p` admits, with the state without it; the answers to a paused core
are held as every packet to it is (R30). -/
def State.takeAnswer (s : State) (core : LCore) (p : CtxId → MeshAns → Bool) :
    Option (CtxId × MeshAns × State) :=
  if s.frozen (s.tileOf core) then none else
  let mine (r : MeshResp) : Bool := r.dst == core && (match r.agent with
    | .ctx c => p c r.ans
    | .dma _ => false)
  match s.board.answers.find? mine with
  | none => none
  | some r =>
    match r.agent with
    | .ctx c => some (c, r.ans, s.modBoard fun b => { b with answers := b.answers.eraseP mine })
    | .dma _ => none

/-- What an answer to the load numbered `id` writes to the context: a register, the group's elements from `pos` on, or
the result at a place of the bundle that waits for it (R81, R115, R176, R301, R317). -/
def LoadDst.arrive (d : LoadDst) (id : Nat) (dad : Word) (pos : Nat) (bytes : List Byte) (bad : Bool) (x : Ctx) :
    Ctx :=
  match d with
  | .data rd size => x.takeWord rd dad (loadVal size bytes) bad
  | .acquire rd size => x.takeWord rd dad (takeVal size bytes) bad
  | .place at_ size tagged =>
    if x.held == some id then
      { x.keepDone at_ [if tagged then takeVal size bytes else loadVal size bytes, b2v 32 bad] with held := none }
    else x
  | .vec v g w act =>
    let eb := w / 8
    let per := 2048 / w
    (List.range g).foldl (fun y j =>
      let old := y.vreg (v.toNat + j)
      y.setV (v.toNat + j) (tabulate 2048 per fun q =>
        let i := j * per + q
        if decide (pos ≤ i) && decide ((i - pos + 1) * eb ≤ bytes.length) && bit act i then
          leVal w ((bytes.drop ((i - pos) * eb)).take eb)
        else old.extractLsb' (q * w) w)) x

/-- The lowest active element of a vector load that an answer brings with a mark (R183). -/
def LoadDst.marked (d : LoadDst) (pos : Nat) (marks : List Bool) : Option Nat :=
  match d with
  | .vec _ _ w act => (firstIdx marks.length fun i =>
      listAt false marks i && bit act (pos + i / (w / 8))).map fun i => pos + i / (w / 8)
  | _ => none

/-- The lower of two element numbers. -/
def lower (a b : Option Nat) : Option Nat :=
  match a, b with
  | some x, some y => some (min x y)
  | some x, none => some x
  | none, y => y

/-- The lowest marked element of a vector load so far, `i`, as a deferred fault: recorded with the load's first marked
answer, and lowered in place while it has not been taken (R135, R183). -/
def State.deferMarked (s : State) (t : Tile) (l : Load) (i : Nat) : State :=
  match l.dst with
  | .vec v g _ _ =>
    let new : Deferred := ⟨0x0C, 0, some (BitVec.ofNat 12 i, v, g)⟩
    match l.bad with
    | none => s.defer t l.ctx new
    | some j =>
      if i < j then s.modCtx t l.ctx fun x =>
        if x.deferred = some ⟨0x0C, 0, some (BitVec.ofNat 12 j, v, g)⟩ then { x with deferred := some new } else x
      else s
  | _ => s

/-- The data of an answer to a load (R81, R176, R317): written to the destination; the load ends with its
last answer, and a context that waits for it becomes READY. Marked data of a vector load is a deferred fault from its
arrival on (R183). -/
def State.loadData (s : State) (t : Tile) (id pos : Nat) (bytes : List Byte) (marks : List Bool) : State :=
  match (s.core t).loads.find? fun l => l.id == id with
  | none => s
  | some l =>
    let s := s.modCtx t l.ctx (l.dst.arrive id l.dad pos bytes (marks.any (·)))
    let worst := lower l.bad (l.dst.marked pos marks)
    let s := match worst with
      | some i => s.deferMarked t l i
      | none => s
    let reqs := l.reqs.filter fun q => q.1 != pos
    if !reqs.isEmpty then
      s.modCore t fun k => { k with loads := k.loads.map fun q =>
        if q.id = id then { q with reqs := reqs, bad := worst } else q }
    else
      let s := s.modCore t fun k => { k with loads := k.loads.filter fun q => q.id != id }
      match (s.ctx t l.ctx).wait with
      | .load n => if n = id then s.wake t l.ctx else s
      | _ => s

/-- The answer to a remote tagged access (R301, R303 to R305): done, with ECC_UNCORR pending at its bundle
where the data is marked; refused, which ends the access with a deferred fault; or lost or cancelled, which
is TAG_TIMEOUT. -/
def State.taggedAnswer (s : State) (t : Tile) (c : CtxId) (a : MeshAns) : State :=
  match (s.ctx t c).wait with
  | .remoteTag op dad .. =>
    match a with
    | .tagged _ v marked _ =>
      (s.modCtx t c fun x =>
        if marked then { x with fault := some (0x0E, dad) } else x.keepDone op [v]).wake t c
    | .taggedRefused _ issued =>
      ((s.modCtx t c fun x => x.keepDone op [0]).defer t c ⟨0x0F, issued, none⟩).wake t c
    | .lost | .cancelled =>
      let s := (s.count (.spad t.val) 5 1).raise (.spad t.val) 0x10
      (s.modCtx t c fun x => { x with fault := some (0x09, dad) }).wake t c
    | _ => s
  | _ => s

/-- LOAD_DATA_ARRIVAL (R81): the first data for a context of the core. -/
def execLoadDataArrival (core : LCore) (s : State) : Host.Outcome State Fault Refusal :=
  let t := s.tileOf core
  match s.takeAnswer core fun _ a => match a with
      | .data .. | .tagged .. => true
      | _ => false with
  | some (_, .data id pos bytes marks, s) => .next (s.loadData t id pos bytes marks)
  | some (c, a, s) => .next (s.taggedAnswer t c a)
  | none => .next s

/-- A store of a context acknowledged. -/
def State.lessStores (s : State) (t : Tile) (c : CtxId) : State :=
  s.modCtx t c fun x => { x with stores := x.stores - 1 }

/-- REMOTE_ACK (R93, R132, R314): the first acknowledgement for a context of the core. A refused store is
a deferred fault. -/
def execRemoteAck (core : LCore) (s : State) : Host.Outcome State Fault Refusal :=
  let t := s.tileOf core
  match s.takeAnswer core fun _ a => match a with
      | .written | .refused .. | .tagged .. | .taggedRefused .. | .lost => true
      | _ => false with
  | some (c, .written, s) => .next (s.lessStores t c)
  | some (c, .refused cause issued, s) =>
    .next ((s.lessStores t c).defer t c ⟨cause, issued, none⟩)
  | some (c, a, s) => .next (s.taggedAnswer t c a)
  | none => .next s

/-- TAG_CANCEL_REPLY (R305): the answer to a cancel, or to the access that was performed before it. -/
def execTagCancelReply (core : LCore) (ctx : CtxId) (s : State) : Host.Outcome State Fault Refusal :=
  let t := s.tileOf core
  match s.takeAnswer core fun c a => c == ctx && (match a with
      | .tagged .. | .taggedRefused .. | .cancelled | .lost => true
      | _ => false) with
  | some (c, a, s) => .next (s.taggedAnswer t c a)
  | none => .next s

/-- CREDIT_OP_REPLY (R311): the answer to a remote credit operation. -/
def execCreditOpReply (core : LCore) (ctx : CtxId) (s : State) : Host.Outcome State Fault Refusal :=
  let t := s.tileOf core
  match s.takeAnswer core fun c a => c == ctx && (match a with
      | .credit .. => true
      | _ => false) with
  | some (c, .credit _ v, s) =>
    (match (s.ctx t c).wait with
    | .credit op => .next ((s.modCtx t c fun x => x.keepDone op [v]).wake t c)
    | _ => .next s)
  | some (_, _, s) => .next s
  | none => .next s

/-! ### Tag waits (R302, R303, R305) -/

/-- What a waiter of a core waits for, if its slot lets it pass now: served, with the state after. -/
def State.serveWaiter (s : State) (core : LCore) (slot : Nat) (w : LCore × Agent) : Option State :=
  let t := s.tileOf core
  let k := s.core t
  let gone (s : State) : State := s.modCore t fun k => { k with waiters := k.waiters.erase w }
  match k.parked.find? fun r => r.src == w.1 && r.agent == w.2 with
  | some r =>
    let unpark (s : State) : State := gone (s.modCore t fun k => { k with parked := k.parked.erase r })
    (match r.body with
    | .tagged op fn size a data issued =>
      if slotOf a = slot ∧ k.tagReady fn a then
        some ((unpark s).remoteTagged t r op ⟨fn, size, a, data, issued, false⟩)
      else none
    | .dmaRead pos a n q _ last =>
      if q = slot ∧ (!k.tagged slot || k.full slot) then some ((unpark s).dmaReadAt t r pos a n q last) else none
    | .dmaWrite a data _ q _ last =>
      if q = slot ∧ (!k.tagged slot || !k.full slot) then some ((unpark s).dmaWriteAt t r a data q last) else none
    | _ => none)
  | none =>
    if w.1 ≠ core then none
    else match w.2 with
      | .dma c =>
        let h := k.ch c
        (match h.wait with
        | some q =>
          if h.run == .waiting && q.core == core && q.slot == slot && s.slotReady q then
            some ((gone s).dmaGrant core c)
          else none
        | none => none)
      | .ctx c =>
        (match (s.ctx t c).wait with
        | .tag op acc _ =>
          if slotOf acc.addr = slot ∧ k.tagReady acc.fn acc.addr ∧ k.tagSees acc then
            let out := k.tagAccess acc
            let s := gone (s.modCore t fun _ => out.2.2)
            let s := if out.2.1 then s.uncorrectable t acc.addr else s
            some ((s.modCtx t c fun x =>
              if out.2.1 then { x with fault := some (0x0E, acc.dad) }
              else x.keepDone op [out.1]).wake t c)
          else none
        | _ => none)

/-- TAG_WAIT_SERVE (R302): the tag unit serves the oldest waiter of a slot that its tag lets pass. -/
def execTagWaitServe (core : LCore) (slot : BitVec 14) (s : State) : Host.Outcome State Fault Refusal :=
  let t := s.tileOf core
  if s.recovering (partOf core) || s.frozen t then .next s
  else if s.bankHeld t (slotAddr slot.toNat) then .next (s.portWait t [slotAddr slot.toNat])
  else match (s.core t).waiters.findSome? fun w => s.serveWaiter core slot.toNat w with
    | some s' => .next s'
    | none => .next s

/-- SPAD_TAG_TIMEOUT of a core, in µs (R305, R323). -/
def State.tagLimit (s : State) (t : Tile) : Nat := (fld (s.live (.spad t.val) 0x040) 0 24).toNat

/-- TAG_TIMEOUT (R305, R349): a wait reaches its limit. A local wait ends in TAG_TIMEOUT; for a remote one
a cancel is sent; a DMA channel fails with 0x48. -/
def execTagTimeout (core : LCore) (who : Sum CtxId (Fin 8)) (s : State) :
    Host.Outcome State Fault Refusal :=
  let t := s.tileOf core
  match who with
  | .inl c =>
    (match (s.ctx t c).wait with
    | .tag _ acc since =>
      if !s.passed since (s.tagLimit t) then .next s else
      let s := s.modCore t fun k => { k with waiters := k.waiters.erase (core, .ctx c) }
      let s := (s.count (.spad t.val) 5 1).raise (.spad t.val) 0x10
      .next ((s.modCtx t c fun x => { x with fault := some (0x09, acc.dad) }).wake t c)
    | .remoteTag op dad false since =>
      if !s.passed since (s.tagLimit t) then .next s else
      let s := s.sendMesh ⟨core, .ctx c, (s.ctx t c).func, remoteOf dad, .cancel⟩
      .next (s.modCtx t c fun x => { x with wait := .remoteTag op dad true since })
    | _ => .next s)
  | .inr ch =>
    if ((s.core t).ch ch).run == .waiting && s.passed ((s.core t).ch ch).since (s.tagLimit t) then
      .next ((s.dropWait core ch).dmaWaitFail core ch 0x48)
    else .next s

/-! ### The core itself -/

/-- STORE_BUFFER_DRAIN (R130): the head entry is written to its bank. -/
def execStoreBufferDrain (core : LCore) (s : State) : Host.Outcome State Fault Refusal :=
  let t := s.tileOf core
  match (s.core t).sb.head? with
  | none => .next s
  | some e => .next (if s.bankHeld t (64 * e.block) then s.portWait t [64 * e.block] else s.modCore t Core.drain)

/-- CORE_QUANTUM.CYCLES of a tile (R79, R138). -/
def State.quantumOf (s : State) (t : Tile) : Nat := (fld (s.live (.core t.val) 0x080) 0 24).toNat

/-- QUANTUM_EXPIRY (R79): at a bundle boundary, the running context that has issued for its quantum becomes READY
where another is. -/
def execQuantumExpiry (core : LCore) (s : State) : Host.Outcome State Fault Refusal :=
  let t := s.tileOf core
  match (s.core t).running with
  | none => .next s
  | some c =>
    if !s.frozen t && (s.ctx t c).atBoundary && decide (s.quantumOf t ≤ (s.core t).quantum) &&
        (List.finRange 4).any fun d => d != c && (s.ctx t d).run == .ready then
      .next ((s.modCtx t c fun x => { x with run := .ready }).reselect t)
    else .next s

/-- The line that a core's fetch unit reads next (R126): the first, from the running context's own on and at most
four ahead of it, that neither the buffer nor its resume line holds. -/
def State.nextFetch (s : State) (t : Tile) : Option Nat :=
  let k := s.core t
  k.running.bind fun c =>
    let here := (s.ctx t c).pc.toNat / 64
    let held (l : Nat) : Bool := (k.fetchBuf.any fun f => f.line == l) ||
      (match k.resume.get c with
      | some f => f.line == l
      | none => false)
    ((List.range 5).map (here + ·)).find? fun l => !held l

/-- FETCH_LINE_RETURN (R125, R126): the line that the core fills next enters its fetch buffer of four, or the line of
a context's next bundle becomes its resume line. A line that is not wanted any more is dropped. -/
def execFetchLineReturn (core : LCore) (ctx : Option CtxId) (line : BitVec 14) (s : State) :
    Host.Outcome State Fault Refusal :=
  let t := s.tileOf core
  let f := s.codeLine t line.toNat
  .next (match ctx with
    | some c =>
      if (s.ctx t c).pc.toNat / 64 = line.toNat then
        s.modCore t fun k => { k with resume := k.resume.set c.val (some f) c.isLt }
      else s
    | none =>
      if s.nextFetch t = some line.toNat then
        s.modCore t fun k =>
          { k with fetchBuf := (f :: k.fetchBuf.filter fun l => l.line != line.toNat).take 4 }
      else s)

/-- CORE_IRQ (R135): the oldest pending interrupt of a context is taken between bundles. -/
def execCoreIrq (core : LCore) (ctx : CtxId) (s : State) : Host.Outcome State Fault Refusal :=
  let t := s.tileOf core
  let x := s.ctx t ctx
  match x.irqs with
  | [] => .next s
  | src :: rest =>
    if x.ie && x.atBoundary && !s.frozen t then
      .next ((s.modCtx t ctx fun x => { x with irqs := rest }).except t ctx 0x20 src false)
    else .next s

/-- A STOP request for a context (R137): dropped where it is IDLE or HALTED; a wait is abandoned. -/
def State.requestStop (s : State) (t : Tile) (c : CtxId) : State :=
  let x := s.ctx t c
  if x.run == .idle || x.run == .halted then s
  else ((s.abandon t ((s.lcoreOf t).getD 0) c).modCtx t c fun x => { x with stopReq := true }).reselect t

/-- CORE_STOP (R137, R138). -/
def execCoreStop (w : Who) (tile : Tile) (req : BitVec 4) (s : State) : Host.Outcome State Fault Refusal :=
  if s.mayWrite w (.core tile.val) then
    .next (s.accept (.core tile.val) ⟨w, 0x084, .b4, req.setWidth 64⟩ fun s =>
      (List.finRange 4).foldl (fun s c => if bit req c.val then s.requestStop tile c else s) s)
  else .next s

/-- STOP_TAKEN (R137). -/
def execStopTaken (core : LCore) (ctx : CtxId) (s : State) : Host.Outcome State Fault Refusal :=
  let t := s.tileOf core
  let x := s.ctx t ctx
  .next (if x.stopReq && (x.atBoundary || x.run == .blocked) && !s.frozen t then s.takeStop t core ctx else s)

/-- A HALTED context returned to IDLE with its registers clear; the record of its latest exception stays
(R138). -/
def Ctx.halted (x : Ctx) : Ctx :=
  { ({} : Ctx) with
    excCause := x.excCause, excAddr := x.excAddr, stores := x.stores - (x.sending.filter fun r => !r.isRead).length }

/-- A HALTED context reset by system firmware (R138, R528). -/
def State.ctxReset (s : State) (tile : Tile) (ctx : CtxId) : State :=
  if (s.ctx tile ctx).run != .halted then s
  else
    let x := s.ctx tile ctx
    let s := s.modCore tile fun k =>
      { k.modCtx ctx Ctx.halted with loads := k.loads.filter fun l => l.ctx != ctx }
    match s.lcoreOf tile with
    | none => s
    | some n =>
      if (s.jobOn n ctx).isNone then s
      else
        let s := s.log { cls := 7, code := 0x04, page := .core tile.val
                         addr := x.pc.setWidth 64, info0 := x.excCause.setWidth 64 }
        ((s.finishJob n ctx 0x44 0xC003).startJobs n).reselect tile

/-- CORE_CTX_RESET (R77, R138, R528): system firmware alone. The job of the context retires JOB_FAILED with
RESULT 0xC003, and its PC and exception are recorded. -/
def execCoreCtxReset (w : Who) (tile : Tile) (ctx : CtxId) (s : State) :
    Host.Outcome State Fault Refusal :=
  match w with
  | .func _ => .next s
  | .firmware => .next (s.ctxReset tile ctx)

end Sys2Proof.Machine
end

