-- ==== Sys2Proof/Machine/Hbm.lean ====
section
/-! DEFINITION. The memory system's commands (R400 to R421): reservations, channel arbitration, refresh
and scrub, invalidation, and the host window. -/

namespace Sys2Proof.Machine

/-! ### The deficit condition (R408) -/

/-- DEFICIT or RESTORED raised where the deficit condition differs from its last value; neither while the
partition recovers (R408). -/
def State.settleDeficit (s : State) (p : Part) : State :=
  let now := decide (s.deliver p < s.rsvSum p)
  if s.recovering p || now == (s.hbm.units.get p).deficit then s
  else (s.modUnit p fun u => { u with deficit := now }).raise (.dat p.val) (if now then 2 else 4)

/-- The deficit condition of every partition evaluated. -/
def State.settleDeficits (s : State) : State := (List.finRange 4).foldl State.settleDeficit s

/-! ### Channels (R409, R416, R418, R420) -/

/-- Bytes of a masked write performed; marks end on lines that it covers whole (R416). -/
def State.hbmWriteMask (s : State) (dpa : Nat) (bs : List (Option Byte)) : State :=
  let whole := !bs.isEmpty && bs.all Option.isSome
  let mem := (List.range bs.length).foldl (fun (m : Tab Byte) i =>
    match listAt none bs i with
    | some b => if s.lineOk (dpa + i) then Tab.set 0 m (dpa + i) b else m
    | none => m) s.hbm.mem
  let clear (m : Tab Bool) : Tab Bool := if whole then clearMarks m dpa bs.length else m
  { s with hbm := { s.hbm with mem := mem, marks := clear s.hbm.marks, faults := clear s.hbm.faults } }

/-- An answer of a channel; one to a recovering partition is discarded (R533). -/
def State.channelAnswer (s : State) (lc : LCore) (agent : Agent) (a : MeshAns) : State :=
  if s.recovering (partOf lc) then s
  else s.modBoard fun b => { b with answers := b.answers ++ [⟨lc, agent, a⟩] }

/-- The answer to an agent's request once it is performed. -/
def State.hbmAnswer (s : State) (g : HbmAgent) (bytes : List Byte) (marks : List Bool) : State :=
  match g with
  | .load lc c id pos => s.channelAnswer lc (.ctx c) (.data id pos bytes marks)
  | .store lc c => s.channelAnswer lc (.ctx c) .written
  | .gone .. => s
  | .dmaRead lc ch line => s.channelAnswer lc (.dma ch) (.data 0 line bytes marks)
  | .dmaWrite lc ch pos => s.channelAnswer lc (.dma ch) (.landed pos)

/-- A masked write performed at its channel, or dropped and counted where that is out of service (R393, R405,
R420). -/
def State.hbmPut (s : State) (f : Func) (dpa : Nat) (bs : List (Option Byte)) : State :=
  let n := (bs.filter Option.isSome).length
  if s.lineOk dpa then (s.mergeReports dpa n).foldl State.log ((s.hbmWriteMask dpa bs).lineWritten f dpa n)
  else s.count (s.memcOf dpa) 3 1

/-- A request performed at its channel (R393, R405, R415, R416, R418, R420). -/
def State.hbmPerform (s : State) (r : HbmReq) : State :=
  match r.data with
  | none =>
    let marks := (List.range r.len).map fun i => s.hbmMarked (r.dpa + i)
    let bytes := s.hbmBytes r.dpa r.len
    (s.hbmRead r.func r.dpa r.len).hbmAnswer r.agent bytes marks
  | some bs => (s.hbmPut r.func r.dpa bs).hbmAnswer r.agent [] []

/-- The request that a channel serves next (R409): the oldest of a function within its reservation, else
the oldest of the next function in round robin; and whether it is within a reservation. -/
def State.arbitrate (s : State) (p : Part) (c : Fin 16) : Option (HbmReq × Bool) :=
  let mine := s.waiting p c
  let within (r : HbmReq) : Bool := decide (64 ≤ s.tokens p r.func)
  match mine.find? within with
  | some r => some (r, true)
  | none =>
    let rr := (s.chan (16 * p.val + c.val)).rr
    match roundRobin 16 ((rr + 1) % 16) fun f => mine.any fun r => r.func.val == f with
    | some f => (mine.find? fun r => r.func.val == f).map (·, false)
    | none => none

/-! ### Commits and invalidation -/

/-- DAT_COMMIT (R402). -/
def execDatCommit (w : Who) (s : State) : Host.Outcome State Fault Refusal :=
  .next (s.commitWrite w (.dat 0) .dat 0x044 1 fun s => s.startCheck (.dat 0) .dat)

/-- DAT_RSV_COMMIT (R406). -/
def execDatRsvCommit (w : Who) (part : Part) (s : State) : Host.Outcome State Fault Refusal :=
  .next (s.commitWrite w (.dat part.val) .rsv 0x048 1 fun s => s.startCheck (.dat part.val) .rsv)

/-- Translations of a function, or of all, dropped from every unit's cache (R400). -/
def State.datDrop (s : State) (fn : BitVec 4) (all : Bool) : State :=
  let mark (r : HbmReq) : HbmReq := if all || r.func.val == fn.toNat then { r with old := true } else r
  let far (r : FarReq) : FarReq := match r with
    | .hbm r => .hbm (mark r)
    | .mesh r => .mesh r
  let cores := s.cores.map fun k => { k with ctxs := k.ctxs.map fun x => { x with sending := x.sending.map far } }
  { s with cores := cores, hbm := { s.hbm with
      invBusy := true
      queue := s.hbm.queue.map mark
      units := s.hbm.units.map fun u => { u with
        tlb := if all then [] else u.tlb.filter fun e => e.func.val != fn.toNat } } }

/-- DAT_INV (R400, R402): a write of DAT_INV with GO set, which also writes FUNC and ALL. -/
def execDatInv (w : Who) (fn : BitVec 4) (all : Bool) (s : State) : Host.Outcome State Fault Refusal :=
  if s.mayWrite w (.dat 0) then
    let v : Word := fn.setWidth 32 ||| (b2v 32 all <<< 4)
    let s := s.modPage (pageNo (.dat 0)) fun p => { p with
      staged := Tab.set 0 p.staged 0x050 v, live := Tab.set 0 p.live 0x050 v }
    .next (s.datDrop fn all)
  else .next s

/-- DAT_INV_DONE (R400): BUSY falls once every access translated through a dropped entry is performed, be it at its channel
or still with its context. -/
def execDatInvDone (s : State) : Host.Outcome State Fault Refusal :=
  let old (r : FarReq) : Bool := match r with
    | .hbm r => r.old
    | .mesh _ => false
  if s.hbm.queue.any (·.old) || s.cores.toList.any (fun k => k.ctxs.toList.any fun x => x.sending.any old) then .next s
  else .next { s with hbm := { s.hbm with invBusy := false } }

/-! ### Refresh and scrub (R411, R415, R417) -/

/-- The device physical address of a channel's line (R391, R392, R394). -/
def State.lineAddr (s : State) (p : Part) (c : Fin 16) (line : Nat) : Nat :=
  let set := s.ileave p
  let x := (line / 4 * set.length + (set.findIdx? (· == c)).getD 0) * 256 + line % 4 * 64
  if s.hbm.wide then x / 4096 * 16384 + p.val * 4096 + x % 4096 else p.val * 0x600000000 + x

/-- The lines of a channel of 1.5 GiB. -/
def channelLines : Nat := 0x60000000 / 64

/-- An error of one word that has come up in a channel's array since the last refresh window, if any: where, and whether
it is one that SECDED corrects, is the hardware's matter. An uncorrectable word holds bytes that nothing says; in saggar
mode the block of 16 that its cipher covers does (R419). On-die
error-check-and-scrub may report as well, and the report is logged (R415). DESIGN CHOICE: the specification does not say
when errors come up. -/
def State.arise (s : State) (p : Part) (c : Fin 16) : State :=
  let n := s.free
  let s := { s with free := n + 19 }
  let i := 16 * p.val + c.val
  let line := (Config.freeWord n).toNat % channelLines
  let a := s.lineAddr p c line
  let s :=
    if Config.freeBool n then
      s.log { cls := 1, code := 1, page := .memc i, addr := BitVec.ofNat 64 a }
    else s
  if !s.lineOk a || !Config.freeBool (n + 1) then s
  else if Config.freeBool (n + 2) then { s with hbm := { s.hbm with faults := Tab.set false s.hbm.faults (a / 64) true } }
  else
    let size := if s.saggar then 16 else 8
    let w := a + size * ((Config.freeWord (n + 1)).toNat % (64 / size))
    { s with hbm := { s.hbm with
        mem := (List.range size).foldl (fun m k => Tab.set 0 m (w + k) (Config.freeByte (n + 3 + k))) s.hbm.mem
        marks := Tab.set false s.hbm.marks (a / 64) true } }

/-- The row that soft post-package repair is due for (R411). -/
def Channel.dueRow (x : Channel) : Option Nat := (x.rowErrors.find? fun e => decide (8 ≤ e.2.length)).map (·.1)

/-- BEHIND follows the schedule of one pass in 24 h, and raises SCRUB_BEHIND as it rises (R411, R421). -/
def State.judgeScrub (s : State) (i : Nat) : State :=
  let y := s.chan i
  let due := y.scrubFrom.toNat + dayNs * y.scrubPos.toNat / channelLines + 3600000000000
  let behind := decide (due < s.time.toNat)
  let s := s.modChan i fun x => { x with behind := behind }
  if behind && !y.behind then s.raise (.memc i) 2 else s

/-- HBM_REFRESH (R411): a refresh window runs. A row whose correctable errors have reached 8 in 24 h is repaired in
it, and the repair logged; not while a read that waited through the pause before still waits (R404). -/
def execHbmRefresh (part : Part) (ch : Func) (s : State) : Host.Outcome State Fault Refusal :=
  let i := 16 * part.val + ch.val
  let s := (s.arise part ch).judgeScrub i
  match (s.chan i).dueRow with
  | none => .next s
  | some row =>
    if s.pausePending i then .next s
    else
      let s := (s.pauseChan i).modChan i fun x => { x with
        rowErrors := Tab.set [] x.rowErrors row [], repairs := x.repairs ++ [row] }
      .next (s.log { cls := 7, code := 0x01, page := .memc i, addr := BitVec.ofNat 64 row })

/-- The scrub position moves on; a pass that is complete is counted (R411, R421). -/
def State.scrubNext (s : State) (i : Nat) : State :=
  let last := decide (channelLines ≤ (s.chan i).scrubPos.toNat + 1)
  let s := s.modChan i fun x =>
    if last then { x with scrubPos := 0, scrubFrom := s.time }
    else { x with scrubPos := x.scrubPos + 1 }
  (if last then s.count (.memc i) 6 1 else s).judgeScrub i

/-- The scrub of a channel takes a slot: the next line is read. A correctable error is corrected, counted and logged; a
marked line counts as an uncorrectable read, is logged, and keeps its mark (R411, R415 to R417). -/
def State.scrubLine (s : State) (p : Part) (c : Fin 16) : State :=
  let i := 16 * p.val + c.val
  let a := s.lineAddr p c (s.chan i).scrubPos.toNat
  let t := if s.hbmMarked a then s.hbmBad a else s.hbmCorrect a
  ((s.lineReports a).foldl State.log (t.modChan i fun x => { x with slots := 0 })).scrubNext i

/-- The scrub may read the channel: it is in service, in the set, and its page is enabled (R393, R421, R533). -/
def State.scrubs (s : State) (p : Part) (c : Fin 16) : Bool :=
  !s.recovering p && s.channelIn p c.val && s.memcOn (.memc (16 * p.val + c.val)) && (s.ileave p).contains c

/-- PATROL_SCRUB (R409, R411): the scrub gets a slot of its channel, while it is BEHIND or no request waits. -/
def execPatrolScrub (part : Part) (ch : Func) (s : State) : Host.Outcome State Fault Refusal :=
  let s := s.judgeScrub (16 * part.val + ch.val)
  .next (if s.scrubs part ch && ((s.chan (16 * part.val + ch.val)).behind || (s.waiting part ch).isEmpty) then
    s.scrubLine part ch else s)

/-- HBM_REQUEST (R409): a channel fills a slot with a waiting request, and what waits on is counted (R410). It serves
while its MEMC page is enabled and its stack is not recovering (R421, R533); a channel that has gone out of service
answers all the same (R393). While the scrub is BEHIND, one slot in 256 is its own (R411): DEDUCED, so that the scrub
counts as waiting, in the order of R409, once in 256 slots. What the dispatcher and the trace hold back for the channels
goes on once its turn has come. -/
def execHbmRequest (part : Part) (ch : Func) (s : State) : Host.Outcome State Fault Refusal :=
  let i := 16 * part.val + ch.val
  if s.recovering part || (s.channelIn part ch.val && !s.memcOn (.memc i)) then .next s
  else
    let s := (s.fillBuckets part).judgeScrub i
    match s.arbitrate part ch with
    | none => .next s.flushHeld
    | some (r, within) =>
      if (s.chan i).behind && decide (255 ≤ (s.chan i).slots) && s.scrubs part ch then
        .next ((s.scrubLine part ch).count (.memc i) 4 1).flushHeld
      else
        let s := { s with hbm := { s.hbm with queue := s.hbm.queue.erase r } }
        let s := s.modChan i fun x => { x with
          rr := if within then x.rr else r.func.val, slots := if x.behind then x.slots + 1 else 0 }
        let s := if (s.waiting part ch).isEmpty then s else s.count (.memc i) 4 1
        .next (s.hbmPerform r).flushHeld

/-! ### The host window (R403, R423, R431, R533) -/

/-- An access of the host lies outside the function's bounce regions in saggar mode: cause 7 (R464). -/
def State.bounceCause (s : State) (f : Func) (dva : DWord) : Nat :=
  if s.saggar && !(s.sec.bounce.any fun b => b.func == f &&
      decide (b.base.toNat * 2 ^ 21 ≤ dva.toNat) &&
      decide (dva.toNat < (b.base.toNat + b.len.toNat) * 2 ^ 21)) then 7 else 0

/-- BAR2 of a function covers an offset (R403, R437). -/
def State.inBar2 (s : State) (f : Func) (off : DWord) : Bool :=
  decide (off.toNat < 2 ^ (30 + (s.host.bar2Log.get f).toNat))

/-- BAR2 accesses of a function reach the device, though it is being reset (R432). -/
def State.bar2Open (s : State) (f : Func) : Bool :=
  s.barReached f 1

/-- BAR2 acts as in BOOT: in BOOT, while wedging, and during the function's reset (R431, R432, R460). -/
def State.bar2Boot (s : State) (f : Func) : Bool := s.inBoot || fnBit s.host.flr f

/-- Bytes that one TLP may carry, by Max Payload Size (R422). -/
def Endpoint.payload (h : Endpoint) : Nat := 128 * 2 ^ h.mps.toNat

/-- An error message of a function, where its reporting is enabled (R422). -/
def Endpoint.reportError (h : Endpoint) (f : Func) (k : ErrKind) (masked : Bool) : Endpoint :=
  let on := (Tab.get {} h.aer f.val).report.get (match k with
    | .correctable => 0
    | .nonFatal => 1
    | .fatal => 2)
  if on && !masked then { h with sent := .error f k :: h.sent } else h

/-- AER of a function notes an error: the status bits set (R422). -/
def Endpoint.noteError (h : Endpoint) (f : Func) (uncorr corr : Word) : Endpoint :=
  { h with aer := Tab.mod {} h.aer f.val fun x => { x with uncorr := x.uncorr ||| uncorr, corr := x.corr ||| corr } }

/-- A completion with poisoned data (R423): AER logs Poisoned TLP, bit 12, as an advisory non-fatal error, bit 13 of
the correctable ones. -/
def State.poison (s : State) (f : Func) : State :=
  let masked := bit (Tab.get {} s.host.aer f.val).corrMask 13
  let h := { s.host with sent := .poisoned :: s.host.sent }
  let s := { s with host := (h.noteError f 0x1000 0x2000).reportError f .correctable masked }
  ((s.count .pcie 0 1).raise .pcie 1).log { cls := 1, code := 0, page := .pcie, func := f }

/-- A request with more bytes than Max Payload Size is a Malformed TLP, bit 18 of the uncorrectable errors: it is
dropped and reported at its severity (R422, R437, PRESUMED: PCI Express). -/
def State.malformed (s : State) (f : Func) : State :=
  let x := Tab.get {} s.host.aer f.val
  let k := if bit x.severity 18 then ErrKind.fatal else .nonFatal
  let s := { s with host := (s.host.noteError f 0x40000 0).reportError f k (bit x.uncorrMask 18) }
  (s.count .pcie 1 1).raise .pcie 2

/-- Poisoned data, whose value is open. -/
def State.poisonBytes (s : State) (n : Nat) : List Byte × Bool × State :=
  ((List.range n).map fun i => Config.freeByte (s.free + i), true, { s with free := s.free + n })

/-- One piece of a host read: its bytes, and whether they are poisoned (R397, R403, R423, R533). -/
def State.bar2Piece (s : State) (f : Func) (off len : Nat) : List Byte × Bool × State :=
  let dva := BitVec.ofNat 64 off
  match s.xlateShared f dva .host false (s.bounceCause f dva) with
  | (.refused _, s) => (List.replicate len 0xFF, false, s)
  | (.held _, s) => s.poisonBytes len
  | (.ok dpa, s) =>
    if s.recovering (s.stackOf dpa).1 then s.poisonBytes len
    else (s.hbmBytes dpa len, s.hbmAnyMark dpa len, s.hbmRead f dpa len)

/-- A piece of a host access waits: its channel takes no request now, or others come before it (R409, R421). -/
def State.bar2Waits (s : State) (f : Func) (write : Bool) (p : Nat × Nat) : Bool :=
  let dva := BitVec.ofNat 64 p.1
  match (s.xlateShared f dva .host write (s.bounceCause f dva)).1 with
  | .ok dpa => !s.recovering (s.stackOf dpa).1 && s.hbmHeld f dpa p.2
  | .held (some q) => !s.recovering q
  | _ => false

/-- BAR2_READ (R403). -/
def execBar2Read (fn : Func) (off : DWord) (len : BitVec 13) (s : State) :
    Host.Outcome State Fault Refusal :=
  if len = 0 || !s.bar2Open fn || !s.inBar2 fn off then .next s
  else if s.bar2Boot fn then
    .next { s with host := { s.host with rbytes := List.replicate len.toNat 0xFF } }
  else
    match (pagePieces off.toNat len.toNat).foldl (fun (o : Option (List Byte × Bool × State)) p => o.bind fun a =>
      if a.2.2.bar2Waits fn false p then none
      else
        let r := a.2.2.bar2Piece fn p.1 p.2
        some (a.1 ++ r.1, a.2.1 || r.2.1, r.2.2)) (some ([], false, s)) with
    | none => .next s
    | some out =>
      let s := if out.2.1 then out.2.2.poison fn else out.2.2
      .next { s with host := { s.host with rbytes := out.1 } }

/-- A host write that a recovery drops: counted on the partition, and logged (R397, R520, R533). -/
def State.hostDrop (s : State) (p : Nat) (f : Func) (dva : DWord) : State :=
  (s.count (.part p) 6 1).log { cls := 3, code := 0, page := .part p, func := f, addr := dva }

/-- One piece of a host write. -/
def State.bar2Put (s : State) (f : Func) (off : Nat) (data : List Byte) : State :=
  let dva := BitVec.ofNat 64 off
  match s.xlateShared f dva .host true (s.bounceCause f dva) with
  | (.refused _, s) => s
  | (.held q, s) => s.hostDrop (match q with
      | some p => p.val
      | none => 0) f dva
  | (.ok dpa, s) =>
    if s.recovering (s.stackOf dpa).1 then s.hostDrop (s.stackOf dpa).1.val f dva
    else s.hbmStore f dpa data

/-- BAR2_WRITE (R403). -/
def execBar2Write (fn : Func) (off : DWord) (data : List Byte) (s : State) :
    Host.Outcome State Fault Refusal :=
  if data.isEmpty || !s.bar2Open fn || !s.inBar2 fn off then .next s
  else if s.host.payload < data.length then .next (s.malformed fn)
  else if s.bar2Boot fn then .next s
  else
    .next (((pagePieces off.toNat data.length).foldl (fun (o : Option State) p => o.bind fun s =>
      if s.bar2Waits fn true p then none
      else some (s.bar2Put fn p.1 ((data.drop (p.1 - off.toNat)).take p.2))) (some s)).getD s)

end Sys2Proof.Machine
end

