-- ==== Sys2Proof/Machine/Dump.lean ====
section
/-! DEFINITION. The registers that a crash dump copies, what a dump collects, and the bytes of its region (R25, R28,
R530, R531, R544). -/

namespace Sys2Proof.Machine

/-- A word from its fields: values and their lowest bits. -/
def wordOf (l : List (Nat × Nat)) : Word := BitVec.ofNat 32 (l.foldl (fun n x => n + x.1 * 2 ^ x.2) 0)

/-- A 64-bit half of a value by its offset within it. -/
def half (v : DWord) (high : Bool) : Word := if high then (v >>> 32).setWidth 32 else v.setWidth 32

/-! ### The registers of a dump's first section (R25, R28, R37 to R39, R544) -/

/-- The rank and file of a core tile (R14): S0 and S1 stand at ranks 1 and 2 of file 8. -/
def tileRank (t : Tile) : Nat := if t.val < 32 then t.val % 4 else t.val - 31

/-- CORE_MAP[n] (R25). -/
def MapEntry.word (m : MapEntry) : Word :=
  wordOf [(m.tile.val, 0), (tileRank m.tile, 8), (m.tile.val / 4, 10), (b2n m.castled, 16), (b2n m.out, 17),
    (b2n m.mtxOut, 18)]

/-- CHIP_SPARE[s] (R28). -/
def Spare.word (x : Spare) : Word :=
  let st := match x.state with
    | .idle => 0
    | .copying => 1
    | .castled => 2
    | .testing => 3
    | .failed => 4
  wordOf [(st, 0), (if st = 1 ∨ st = 2 then x.lcore.val else 0, 8), (b2n x.retest, 13)]

/-- The five registers that a read of CHIP_SVC_STATE latches (R41). -/
def State.svcWords (s : State) : List Word := s.board.svc.count :: s.board.svc.part.toList

/-- A PART page (R544). -/
def State.partWord (s : State) (p : Part) (off : Nat) : Word :=
  let x := s.part p
  let log (f : LogRec → Bool) : Nat := (s.journal.places.filter fun e => match e.2 with
    | some r => f r
    | none => false).length
  let run := match x.run with
    | .serving => 0
    | .recovering => 1
    | .replaying => 2
    | .offline => 3
  if off = 0x040 then wordOf [(run, 0), (x.step.toNat, 2), (b2n x.dumpValid, 5), (b2n x.dumpLost, 6),
      (x.result.toNat, 8)]
  else if off = 0x04C then x.hangInfo
  else if off = 0x050 then half x.hangTime false
  else if off = 0x054 then half x.hangTime true
  else if off = 0x058 then x.recoverUs
  else if off = 0x05C then wordOf [(x.nSuspects.toNat, 0), (x.nDone.toNat, 6), (x.nGuilty.toNat, 12),
      (x.nUnresolved.toNat, 18)]
  else if off = 0x060 then x.lostWrites.setWidth 32
  else if off = 0x080 ∧ p = 0 then wordOf [(log fun _ => true, 0), (log LogRec.severe, 11)]
  else if off = 0x084 ∧ p = 0 then s.journal.seq
  else if off = 0x098 ∧ p = 0 then s.journal.traceWptr
  else s.staged (.part p.val) off

/-- The logical cores of a partition. -/
def coresOf (p : Part) : List LCore := (List.finRange 32).filter fun n => partOf n == p

/-- The service registers, CORE_MAP and the PART page by offset, as a declaration finds them (R531). -/
def State.hangWords (s : State) (p : Part) : List (Nat × Word) :=
  (0x080, s.board.svc.word) :: (0x084, listAt 0 s.svcWords 0) ::
    ((List.range 4).map fun i => (0x090 + 4 * i, listAt 0 s.svcWords (1 + i))) ++
    ((List.finRange 32).map fun n => (0x100 + 4 * n.val, (s.board.map.get n).word)) ++
    ((List.finRange 2).map fun i => (0x188 + 4 * i.val, (s.board.spares.get i).word)) ++
    ((List.range 24).map fun i => (0x1000 + 0x040 + 4 * i, s.partWord p (0x040 + 4 * i)))

/-! ### What a dump collects (R531) -/

/-- What a dump keeps of a context whose core is not named: STATUS, PC, and the system, address and data registers. -/
def Ctx.brief (x : Ctx) : Ctx :=
  { run := x.run, block := x.block, pc := x.pc, a := x.a, d := x.d, func := x.func, status := x.status
    epc := x.epc, ecause := x.ecause, eaddr := x.eaddr, excbase := x.excbase, jobentry := x.jobentry
    kstack := x.kstack, velem := x.velem, lsel := x.lsel, jobSeq := x.jobSeq, cycles := x.cycles
    timeHi := x.timeHi, hbmWin := x.hbmWin }

/-- PART_HANG_INFO or a suspect names the core (R531, R536). -/
def PartState.names (x : PartState) (n : LCore) : Bool :=
  let cause := fld x.hangInfo 0 8
  ((cause == 1 || cause == 2 || cause == 3 || cause == 5 || cause == 8) && fld x.hangInfo 8 5 == BitVec.ofNat 5 n.val) ||
    x.suspects.any fun h => h.lc == n

/-- The jobs in the job entries of a partition's cores. -/
def State.heldJobs (s : State) (p : Part) : List HeldJob :=
  (coresOf p).flatMap fun n => (s.disp.jobs.get n).map fun j => ⟨n, j⟩

/-- The objects that a job names (R531): those of its gate and of its signal. -/
def HeldJob.objects (h : HeldJob) : List (BitVec 13) :=
  let d := ringDesc h.job.job.desc
  (if d.waiten then [d.waitObj] else []) ++ (if d.sigen then [d.sigObj] else [])

/-- A waiter is a context of the partition. -/
def WaitSlot.ofPart (w : WaitSlot) (p : Part) : Bool :=
  match w.who with
  | .ctx n _ => partOf n == p
  | .gate _ => false

/-- What step 2 of a recovery collects through the debug paths of a partition's tiles (R531, R532): the registers as at
declaration, the cores, their jobs with rings and objects, and the islands that did not answer. The lost writes follow in
step 3. -/
def State.collect (s : State) (p : Part) : DumpBody :=
  let x := s.part p
  let jobs := s.heldJobs p
  let rings := (jobs.map fun h => h.job.job.ring.toNat).eraseDups
  let slots := s.sync.slots.filterMap fun e => e.2.map fun w => (e.1, w)
  let objs := (jobs.flatMap HeldJob.objects ++ (slots.filter fun e => e.2.ofPart p).map fun e => e.2.obj).eraseDups
  { regs := x.atHang
    named := ((coresOf p).filter x.names).map fun n => (n, (s.core (s.tileOf n)).ctxs)
    others := ((coresOf p).filter fun n => !x.names n).map fun n => (n, (s.core (s.tileOf n)).ctxs.map Ctx.brief)
    engines := (coresOf p).map fun n =>
      let k := s.core (s.tileOf n)
      ⟨n, k.mtx.queue, k.str.queue, k.str.streams, k.dma⟩
    jobs := jobs
    rings := rings.map fun r => (r, s.ring r)
    objects := objs.map fun o => (o, Tab.get 0 s.sync.objs o.toNat, slots.filter fun e => e.2.obj == o)
    lost := []
    silent := ((coresOf p).flatMap fun n => (List.range 8).map fun k => 8 * (s.tileOf n).val + k).filter
      (Config.silentIsland s.dumpSerial ·) }

/-! ### The bytes of a region (R530, R531) -/

/-- The contents of a section; how they are laid out is not given, and free. Section 9 lists nothing: no address of a DMA
transfer names the instruction store. -/
def Dump.section (d : Dump) (k : Nat) : List Byte :=
  let b := d.body
  if k = 1 then Config.dumpSection d.serial 1 b.regs
  else if k = 2 then Config.dumpSection d.serial 2 b.named
  else if k = 3 then Config.dumpSection d.serial 3 b.others
  else if k = 4 then Config.dumpSection d.serial 4 b.engines
  else if k = 5 then Config.dumpSection d.serial 5 b.jobs
  else if k = 6 then Config.dumpSection d.serial 6 b.rings
  else if k = 7 then Config.dumpSection d.serial 7 b.objects
  else if k = 8 then Config.dumpSection d.serial 8 b.lost
  else if k = 10 then Config.dumpSection d.serial 10 b.silent
  else []

/-- The sections of a dump, with the offset of each behind the header and the section table. DESIGN CHOICE: one of each
type, in the order of the types, without gaps. -/
def Dump.sections (d : Dump) : List (Nat × Nat × List Byte) :=
  ((List.range 10).foldl (fun (l : List (Nat × Nat × List Byte) × Nat) i =>
    let bs := d.section (i + 1)
    (l.1 ++ [(i + 1, l.2, bs)], l.2 + bs.length)) ([], 64 + 16 * 10)).1

/-- The section table and the sections (R531). -/
def Dump.rest (d : Dump) : List Byte :=
  (d.sections.flatMap fun e =>
    leBytes (BitVec.ofNat 32 e.1) 4 ++ leBytes (BitVec.ofNat 32 e.2.1) 4 ++
      leBytes (BitVec.ofNat 32 e.2.2.length) 4 ++ leBytes (0 : Word) 4) ++ d.sections.flatMap fun e => e.2.2

/-- A byte of a region but for its CRC-32; those that the layout leaves out are free. -/
def Dump.plainByte (d : Dump) (off : Nat) : Byte :=
  let at_ (w : Nat) (v : BitVec w) (base : Nat) : Byte := (v >>> (8 * (off - base))).setWidth 8
  if off < 0x04 then at_ 32 0x50444B53 0
  else if off < 0x08 then at_ 32 d.info 0x04
  else if off < 0x10 then at_ 64 d.time 0x08
  else if off < 0x14 then at_ 32 d.gen 0x10
  else if off < 0x18 then at_ 32 10 0x14
  else if off < 0x38 then 0
  else if off < 0x40 then Config.dumpByte d.serial off
  else match d.rest[off - 0x40]? with
    | some b => b
    | none => Config.dumpByte d.serial off

/-- The CRC-32 of a region. DESIGN CHOICE: it covers every byte of the region but its own four. -/
def Dump.crc (d : Dump) : Word :=
  Config.crc32 (((List.range 0x80000).filter fun i => i < 0x38 || 0x3C ≤ i).map d.plainByte)

/-- A byte of a partition's crash-dump region (R530, R531). -/
def PartState.dumpByte (x : PartState) (off : Nat) : Byte :=
  match x.dump with
  | none => 0
  | some d => if 0x38 ≤ off ∧ off < 0x3C then (d.crc >>> (8 * (off - 0x38))).setWidth 8 else d.plainByte off

/-- A write that a recovering stack has lost, in the dump of that recovery (R531 section 8): the first line, the number of
lines and the source function. -/
def PartState.loseWrite (x : PartState) (r : HbmReq) : PartState :=
  { x with
    lostWrites := if x.lostWrites = 0xFFFF then x.lostWrites else x.lostWrites + 1
    dump := x.dump.map fun d =>
      if d.time != x.hangTime then d
      else { d with body := { d.body with
        lost := d.body.lost ++ [⟨64 * (r.dpa / 64), (r.dpa + r.len - 1) / 64 + 1 - r.dpa / 64, r.func⟩] } } }

end Sys2Proof.Machine
end

