-- ==== Sys2Proof/Machine/Service.lean ====
section
/-! DEFINITION. Failures and what answers them: failed islands, castling, declarations of hangs, and the
reset of a tile (R24 to R36, R321, R508, R510, R526 to R542). -/

namespace Sys2Proof.Machine

/-! ### CORE_MAP and its generation (R26, R40) -/

/-- GEN made odd before a change of CORE_MAP. -/
def State.genOdd (s : State) : State :=
  if bit s.board.gen 0 then s else s.modBoard fun b => { b with gen := b.gen + 1 }

/-- A castling is under way. -/
def State.anyCopying (s : State) : Bool := (List.finRange 2).any fun i => (s.board.spares.get i).state == .copying

/-- GEN made even after a change, once no castling is under way; MAP_CHANGE is set. DESIGN CHOICE: changes of
CORE_MAP that overlap, as two castlings or a core set OUT during one, are one update, which ends with the last
castling (R26 does not speak of them). -/
def State.genEven (s : State) : State :=
  if s.anyCopying || !bit s.board.gen 0 then s
  else (s.modBoard fun b => { b with gen := b.gen + 1 }).raise .chip 2

/-- A CORE_MAP entry changed. -/
def State.modMap (s : State) (n : LCore) (f : MapEntry → MapEntry) : State :=
  s.modBoard fun b => { b with map := b.map.set n.val (f (b.map.get n)) n.isLt }

/-- A CORE_MAP entry changed as one update (R26). -/
def State.updateMap (s : State) (n : LCore) (f : MapEntry → MapEntry) : State :=
  (s.genOdd.modMap n f).genEven

/-- A spare changed. -/
def State.modSpare (s : State) (i : Fin 2) (f : Spare → Spare) : State :=
  s.modBoard fun b => { b with spares := b.spares.set i.val (f (b.spares.get i)) i.isLt }

/-- The tile of a spare. -/
def spareTile (i : Fin 2) : Tile := ⟨32 + i.val, by omega⟩

/-- The matrix array, WM and PM islands of a tile work. -/
def State.tileMatrixOk (s : State) (t : Tile) : Bool := [2, 3, 5].all fun k => s.islandOk (8 * t.val + k)

/-- CHIP_SVC_STATE.CAUSE of the loss of a core: 0x02 where its matrix array alone is lost (R33, R37). -/
def State.lossCause (s : State) (n : LCore) : Byte :=
  if [0, 1, 4, 6, 7].all fun k => s.islandOk (8 * (s.tileOf n).val + k) then 0x02 else 0x01

/-- The islands that a core needs work (R33). -/
def State.tileCoreOk (s : State) (t : Tile) : Bool := [0, 1, 4, 6, 7].all fun k => s.islandOk (8 * t.val + k)

/-- Every island of a tile works. -/
def State.tileWhole (s : State) (t : Tile) : Bool := s.tileCoreOk t && s.tileMatrixOk t

/-! ### A tile reset or cleared (R321, R532) -/

/-- The clear of R321 over a core's scratchpads, coil buffer, tags, mailboxes and parked waits. -/
def Core.cleared (k : Core) : Core :=
  { k with
    mem := [], marks := [], tags := [], tregs := [], mbx := [], parked := [], waiters := []
    str := { k.str with coil := [], coilMarks := [] } }

/-- A context as firmware sets it up (R482, R532). -/
def firmCtx (t : Tile) (c : CtxId) : Ctx :=
  { ({} : Ctx) with
    excbase := Config.excbase t.val c.val &&& ~~~(63 : BitVec 20)
    jobentry := Config.jobentry t.val c.val &&& ~~~(63 : BitVec 20)
    kstack := Config.kstack t.val c.val }

/-- A core reset as step 4 of recovery resets it (R532, R534): contexts IDLE, queues dropped, cleared,
trackers and codebooks reset; its remap table is kept. -/
def Core.resetTile (k : Core) (t : Tile) : Core :=
  { ({} : Core) with
    ctxs := Vector.ofFn (firmCtx t)
    remap := k.remap
    rmapBusy := k.rmapBusy
    rmapResult := k.rmapResult }

/-- One accepted write of a recovering stack: performed, or lost, and which is not said; DESIGN CHOICE. -/
def State.settleWrite (s : State) (p : Part) (r : HbmReq) : State :=
  match r.data with
  | none => s
  | some bs =>
    let performed := Config.freeBool s.free && s.lineServed r.dpa
    let s := { s with free := s.free + 1 }
    if performed then s.hbmPut r.func r.dpa bs
    else s.modPart p fun x => x.loseWrite r

/-- The writes that a core has issued to other cores and to stacks reach them (R533): what they answer is
discarded. A write to a channel that is disabled waits there (R421). A stack that recovers beside the core settles what it
has accepted (R532); one that recovers alone has accepted nothing of the core's. -/
def State.landWrites (s : State) (n : LCore) : State :=
  let s := s.board.mesh.foldl (fun s r =>
    let lands : Bool := r.src == n && r.dst != n && !s.recovering (partOf r.dst) && !s.frozen (s.tileOf r.dst) &&
      (match r.body with
      | .write .. | .dmaWrite .. => true
      | _ => false)
    if lands then (s.modBoard fun b => { b with mesh := b.mesh.erase r }).perform (s.tileOf r.dst) r else s) s
  let own (r : HbmReq) : Bool := r.agent.source.1 == n
  let mine := s.hbm.queue.filter own
  let stays (r : HbmReq) : Bool := r.data.isSome && !s.recovering r.part && !s.lineServed r.dpa
  let queue := s.hbm.queue.filterMap fun r =>
    if !own r then some r else if stays r then some { r with agent := .gone n r.agent.source.2 } else none
  mine.foldl (fun s r =>
    match r.data with
    | some bs =>
      if stays r then s
      else if !s.recovering r.part then s.hbmPut r.func r.dpa bs
      else if s.recovering (partOf n) then s.settleWrite r.part r
      else s
    | none => s) { s with hbm := { s.hbm with queue := queue } }

/-- A tile reset; what its logical core had asked or waited for is lost (R388, R534). -/
def State.resetTile (s : State) (t : Tile) : State :=
  let s := match s.lcoreOf t with
    | some n => s.landWrites n
    | none => s
  let s := s.modCore t fun k => k.resetTile t
  match s.lcoreOf t with
  | none => s
  | some n =>
    let s := (List.finRange 4).foldl (fun s c => s.modSync fun b => b.forget n c) s
    let s := s.modBoard fun b => { b with
      mesh := b.mesh.filter fun r => r.src != n
      retried := b.retried.filter fun r => r.src != n
      answers := b.answers.filter fun r => r.dst != n }
    let cores := s.cores.map fun k => { k with
      parked := k.parked.filter fun r => r.src != n
      waiters := k.waiters.filter fun w => w.1 != n }
    { s with cores := cores }

/-! ### Firing, so far as failures touch it (R510) -/

/-- The partition that a firing group belongs to. -/
def FireGroup.home : FireGroup → Option Part
  | .part p => some p
  | .system => none
  | .island i =>
    if i.val < 256 then some ⟨i.val / 64 % 4, Nat.mod_lt _ (by omega)⟩
    else if 272 ≤ i.val ∧ i.val < 280 then some ⟨(i.val - 272) / 2 % 4, Nat.mod_lt _ (by omega)⟩
    else if 280 ≤ i.val ∧ i.val < 284 then some ⟨(i.val - 280) % 4, Nat.mod_lt _ (by omega)⟩
    else none

/-- The island belongs to a group (R491, R507). -/
def FireGroup.has (g : FireGroup) (i : Island) : Bool :=
  match g with
  | .island j => j == i
  | .part p => (FireGroup.island i).home == some p
  | .system => (FireGroup.island i).home == none

/-- The islands of a group. -/
def FireGroup.islands (g : FireGroup) : List Island := (List.finRange 294).filter g.has

/-- CLK_FIRING_CTRL.SCOPE (R517). -/
def FireGroup.scope : FireGroup → BitVec 3
  | .part p => BitVec.ofNat 3 p.val
  | .system => 4
  | .island _ => 5

/-- A firing moved to its next group, or ended where it has none. -/
def Firing.next (f : Firing) : Option Firing :=
  match f.rest with
  | [] => none
  | g :: gs => some { f with group := g, rest := gs, todo := g.islands, choice := none, undo := ([], []) }

/-- Islands go on, but for those that a BIST run holds, and for all of them under a thermal trip (R504, R514). -/
def State.ungate (s : State) (is : List Island) : State :=
  let b := s.clocks.bist
  if s.pins.thermtrip then s
  else is.foldl (fun s i => if b.busy && b.targets.contains i then s
    else s.modIsl i.val fun x => { x with gated := false }) s

/-- A group's partition is not recovering. -/
def State.groupFree (s : State) (g : FireGroup) : Bool :=
  match g.home with
  | some p => !s.recovering p
  | none => true

/-- What an abandoned firing has changed is as it was (R510). DESIGN CHOICE: a rail or set point that had moved already
goes back at once. -/
def State.undoFiring (s : State) (f : Firing) : State :=
  let s := f.undo.2.foldl (fun s p => s.modIsl p.1.val fun x => { x with fset := p.2 }) s
  let back (v : Vector Rail 13) (p : Fin 13 × BitVec 12) : Vector Rail 13 :=
    v.set p.1.val { v.get p.1 with set := p.2 } p.1.isLt
  s.modClk fun k => { k with
    rails := f.undo.1.foldl back (k.rails.map fun r => { r with goal := none }) }

/-- The firing of a partition abandoned: rails and set points stay as they were, and it is asked for again with the groups
that cannot be fired now (R510). -/
def State.abandonFiring (s : State) (p : Part) : State :=
  match s.clocks.firing with
  | none => s
  | some f =>
    if f.group.home != some p then s
    else
      let s := (s.ungate f.group.islands).undoFiring f
      let can (g : FireGroup) : Bool := g.home != some p && s.groupFree g
      let works (g : Firing) : Firing := { g with todo := g.todo.filter fun i => s.islandOk i.val }
      let next := { f with rest := f.rest.filter can }.next.map works
      s.modClk fun k => { k with
        firing := next
        scope := match next with
          | some g => g.group.scope
          | none => k.scope
        requests := k.requests ++ [⟨f.group :: f.rest.filter fun g => !can g, false, f.req.cause⟩] }

/-! ### Castling (R29 to R31, R540 to R542) -/

/-- The spare that castling takes: the lowest IDLE one, else the lowest TESTING one (R29). -/
def State.spareFor (s : State) : Option (Fin 2) :=
  match (List.finRange 2).find? fun i => (s.board.spares.get i).state == .idle with
  | some i => some i
  | none => (List.finRange 2).find? fun i => (s.board.spares.get i).state == .testing

/-- A BIST run that names a tile's islands is abandoned (R29, R519). -/
def State.abandonBist (s : State) (t : Tile) : State :=
  let b := s.clocks.bist
  if b.busy && b.targets.any fun i => i.val / 8 == t.val then
    let s := s.modClk fun k => { k with bist := { k.bist with busy := false, result := 2, targets := [] } }
    (s.ungate b.targets).raise .bist 1
  else s

/-- The spare that logical core `n` castles to or from. -/
def State.castlingOf (s : State) (n : LCore) : Option (Fin 2) :=
  (List.finRange 2).find? fun i =>
    (s.board.spares.get i).state == .copying && (s.board.spares.get i).lcore == n

/-- Castling begins (R540 steps 1 and 2): the spare is COPYING, GEN odd, packets to the core are held and
its contexts stop. -/
def State.beginCastling (s : State) (n : LCore) (i : Fin 2) (back : Bool) : State :=
  let s := if (s.board.spares.get i).state == .testing then
    (s.abandonBist (spareTile i)).modSpare i fun p => { p with retest := true } else s
  let s := s.genOdd
  let s := s.modSpare i fun p => { p with state := .copying, lcore := n, step := 2, back := back, fire := p.fire && back }
  let tr (k : Nat) (s : State) := s.trace 0x03 0 0 (BitVec.ofNat 64 n.val) (BitVec.ofNat 64 k)
  tr 2 (tr 1 s)

/-- A castling abandoned: the spare is IDLE again, or CASTLED where the core was on its way back;
CORE_MAP is unchanged, and the contexts go on (R31, R542). DESIGN CHOICE: the update that the castling had begun
ends here, so GEN becomes even and MAP_CHANGE is set (R26 and R40 do not say). -/
def State.abandonCastling (s : State) (i : Fin 2) : State :=
  let p := s.board.spares.get i
  if p.state != .copying then s
  else
    let n := p.lcore
    let s := s.modSpare i fun p =>
      if p.back then { p with state := .castled, step := 0, back := false }
      else { p with state := .idle, lcore := 0, step := 0, fire := false }
    s.genEven.reselect (s.tileOf n)

/-- The state that moves with a core (R322, R541): everything but what belongs to the tile itself. -/
def Core.moveTo (old new : Core) : Core :=
  { old.landLate with
    btb := []
    fetchBuf := []
    resume := Vector.replicate 4 none
    watch := new.watch
    nominees := new.nominees
    remap := new.remap
    rmapBusy := new.rmapBusy
    rmapResult := new.rmapResult
    clearing := new.clearing
    nocrAddr := new.nocrAddr
    nocrInfo := new.nocrInfo
    uncorrAddr := new.uncorrAddr }

/-- Every 64-bit word of a range marked. -/
def markRange (m : Tab Bool) (lo n : Nat) : Tab Bool :=
  (List.range (n / 8)).foldl (fun m i => Tab.set false m (lo / 8 + i) true) m

/-- The words of failed memory islands of a tile, marked (R542). -/
def State.failedMarks (s : State) (t : Tile) (m : Tab Bool) : Tab Bool :=
  let m := if s.islandOk (8 * t.val + 3) then m else markRange m 0 0x300000
  let m := if s.islandOk (8 * t.val + 4) then m else markRange m 0x400000 0x400000
  if s.islandOk (8 * t.val + 5) then m else markRange m 0x800000 0x100000

/-- The state of a castling core copied to the tile it moves to (R540 step 3). -/
def State.copyCore (s : State) (a b : Tile) : State :=
  let old := s.core a
  s.modCore b fun new => { old.moveTo new with marks := s.failedMarks a old.marks }

/-- A tile that serves no logical core any more holds no work. -/
def Core.vacated (k : Core) : Core :=
  { ({} : Core) with
    watch := k.watch, nominees := k.nominees, remap := k.remap, rmapBusy := k.rmapBusy, rmapResult := k.rmapResult
    clearing := k.clearing, nocrAddr := k.nocrAddr, nocrInfo := k.nocrInfo, uncorrAddr := k.uncorrAddr }

/-- The sub-pages that move with a core (R541). -/
def movedPages (t : Tile) : List PageClass :=
  [.core t.val, .dma t.val, .mtx t.val, .stripe t.val, .spad t.val]

/-- A page's configuration taken from another (R541). -/
def Page.configFrom (p q : Page) : Page :=
  { p with
    enable := q.enable, active := q.active, lock := q.lock, irqEnable := q.irqEnable
    staged := q.staged, live := q.live, written := q.written }

/-- The configuration of a core's sub-pages copied to the tile it moves to. -/
def State.copyPages (s : State) (a b : Tile) : State :=
  (List.zip (movedPages a) (movedPages b)).foldl (fun s c =>
    let q := s.page (pageNo c.1)
    s.modPage (pageNo c.2) fun p => p.configFrom q) s

/-- A core moved from tile `a` to tile `b` in one step (R540 step 4). -/
def State.moveCore (s : State) (n : LCore) (a b : Tile) : State :=
  let s := (s.copyCore a b).copyPages a b
  let s := if s.board.mtxSaved.contains n then
      (s.modPage (pageNo (.mtx b.val)) fun p => { p with enable := true, active := true }).modBoard fun x =>
        { x with mtxSaved := x.mtxSaved.erase n }
    else s
  s.modCore a Core.vacated

/-! ### Declaration of a hang (R526 to R532) -/

/-- The sub-pages of a tile (R43). -/
def tilePages (t : Tile) : List PageClass :=
  [.core t.val, .dma t.val, .mtx t.val, .spad t.val, .stripe t.val, .island t.val, .perf t.val]

/-- The pages of a partition, whose ERR_SUMMARY shows HANG (R15, R532). -/
def State.pagesOf (s : State) (p : Part) : List PageClass :=
  [.part p.val, .dat p.val] ++ (List.range 16).map (fun c => .memc (16 * p.val + c)) ++
    (coresOf p).flatMap fun n => tilePages (s.tileOf n)

/-- ERR_SUMMARY.HANG of some pages. -/
def State.hangPages (s : State) (l : List PageClass) (on : Bool) : State :=
  l.foldl (fun s c => s.modPage (pageNo c) fun q => { q with errSummary := setBit q.errSummary 2 on }) s

/-- ERR_SUMMARY.HANG of a partition's pages. -/
def State.setHang (s : State) (p : Part) (on : Bool) : State := s.hangPages (s.pagesOf p) on

/-- The partitions that one recovery covers (R395, R529). -/
def State.recoveryScope (s : State) (p : Part) : List Part :=
  if s.hbm.wide then List.finRange 4 else [p]

/-- The suspects that a declaration names (R536): the jobs on the non-IDLE contexts of the named core. -/
def State.suspectsOf (s : State) (cause : Byte) (lc : Option LCore) : List HeldJob :=
  match lc with
  | none => []
  | some n =>
    if cause == 1 || cause == 2 || cause == 3 || cause == 5 then
      (s.disp.jobs.get n).filterMap fun j => match j.ctx with
        | some c => if (s.ctx (s.tileOf n) c).run == .idle then none else some ⟨n, j⟩
        | none => none
    else []

/-- Remote waits parked at a partition's cores are answered as lost (R533). -/
def State.loseParked (s : State) (p : Part) : State :=
  (coresOf p).foldl (fun s n =>
    let gone := (s.core (s.tileOf n)).parked.filter fun r => partOf r.src != p
    gone.foldl (fun s r =>
      let s := s.modCore (s.tileOf n) fun k => { k with
        parked := k.parked.erase r, waiters := k.waiters.erase (r.src, r.agent) }
      match r.agent with
      | .ctx c => s.taggedAnswer (s.tileOf r.src) c .lost
      | .dma c => s.dmaWaitFail r.src c 0x48) s) s

/-- Step 1 of the recovery of one partition (R532). A castling of its that is abandoned is put off where a failure had
asked for it; one that a firing had begun for a core whose tile works is not (R31, R510). -/
def State.beginRecovery (s : State) (p : Part) (suspects : List HeldJob) : State :=
  let before := countIdx 32 (fun i => if h : i < 32 then partOf ⟨i, h⟩ == p && s.coreWorks ⟨i, h⟩ else false) +
    countIdx 16 fun c => s.channelIn p c
  let mine (i : Fin 2) : Bool :=
    (s.board.spares.get i).state == .copying && partOf (s.board.spares.get i).lcore == p
  let put (b : Bool) : List LCore := (List.finRange 2).filterMap fun i =>
    if mine i && (s.board.spares.get i).back == b then some (s.board.spares.get i).lcore else none
  let fresh := (put false).filter fun n => !s.tileWhole (s.tileOf n)
  let back := put true
  let s := (List.finRange 2).foldl (fun s i => if mine i then s.abandonCastling i else s) s
  let s := s.modPart p fun x => { x with
    run := .recovering, step := 1, bystanders := [], replayCore := none
    suspects := x.suspects ++ suspects
    castle := [], later := fresh, back := back, before := before, lostWrites := 0 }
  let s := s.modBoard fun b => { b with answers := b.answers.filter fun r => partOf r.dst != p }
  let s := (s.abandonFiring p).loseParked p
  (s.setHang p true).trace 0x05 0 0 (BitVec.ofNat 64 p.val) 1

/-- A partition is declared hung (R529, R532, R535, R544). A further declaration in a partition that
recovers adds its named core's jobs to the suspects. None is made while the device boots. -/
def State.declare (s : State) (p : Part) (cause : Byte) (lc : Option LCore) (ctx : CtxId)
    (engine : BitVec 2) : State :=
  if s.board.svc.state == .boot then s
  else
    let scope := s.recoveryScope p
    let info (q : Part) : Word :=
      if q = p then cause.setWidth 32 ||| (BitVec.ofNat 32 (match lc with
        | some n => n.val
        | none => 0) <<< 8) ||| (BitVec.ofNat 32 ctx.val <<< 13) ||| (engine.setWidth 32 <<< 15)
      else 7
    let sus := s.suspectsOf cause lc
    let s := scope.foldl (fun s q =>
      let s := s.modPart q fun x => { x with hangInfo := info q, hangTime := s.time }
      let s := if s.recovering q then s else s.modPart q fun x => { x with atHang := s.hangWords q }
      let s := (s.count (.part q.val) 0 1).raise (.part q.val) 1
      s.log { cls := 4, code := (info q).setWidth 8, page := .part q.val
              info0 := (info q).setWidth 64 }) s
    if s.recovering p then
      s.modPart p fun x => { x with
        suspects := x.suspects ++ sus.filter fun j => !x.suspects.any fun k => k.job.job.order == j.job.job.order }
    else
      (scope.foldl (fun s q => s.beginRecovery q (if q = p then sus else [])) s).evalService 0x04 false

/-! ### Cores and islands that fail (R29, R320, R513, R542) -/

/-- A core set OUT; where one of its contexts held a job, cause 0x05 is declared (R29, R542). -/
def State.setOut (s : State) (n : LCore) (cause : Byte) : State :=
  let held := (s.disp.jobs.get n).any fun j => j.ctx.isSome
  let s := (s.updateMap n fun m => { m with out := true }).evalService cause false
  let s := if held then s.declare (partOf n) 0x05 (some n) 0 0 else s
  s.returnUnstarted n

/-- A spare is held by a firing for a core whose own tile works. -/
def State.firingHolds (s : State) : Bool :=
  (List.finRange 2).any fun i =>
    let p := s.board.spares.get i
    p.fire && (p.state == .copying || p.state == .castled)

/-- Castling asked for by a failure: put off while the partition recovers (R31, R535), or while a firing holds a
spare (R510); with no spare the core is set OUT. -/
def State.castle (s : State) (n : LCore) (cause : Byte) : State :=
  if s.recovering (partOf n) then
    (s.modPart (partOf n) fun x => { x with
      later := if x.later.contains n then x.later else x.later ++ [n] }).evalService cause false
  else if (s.castlingOf n).isSome then s.evalService cause false
  else match s.spareFor with
    | some i => (s.beginCastling n i false).evalService cause false
    | none =>
      if s.firingHolds then
        (s.modPart (partOf n) fun x => { x with
          later := if x.later.contains n then x.later else x.later ++ [n] }).evalService cause false
      else s.setOut n cause

/-- The matrix array of a core lost (R223, R542): queued jobs complete 0x49, ENABLE of its page is cleared,
and MTX_OUT set; ACTIVE falls with the last job of the queue. -/
def State.loseMatrix (s : State) (n : LCore) : State :=
  let t := s.tileOf n
  let c := PageClass.mtx t.val
  let s := ((s.core t).mtx.queue.filter fun j => j.stage != .finished).foldl (fun s j => s.mtxFail t j.seq 0x49 0) s
  let s := s.modMtx t fun x => { x with kept := none }
  let s := if s.enabled c then s.modBoard fun b => { b with mtxSaved := n :: b.mtxSaved.erase n } else s
  let s := s.modPage (pageNo c) fun p => { p with enable := false }
  s.updateMap n fun m => { m with mtxOut := true }

/-- A failed island of a tile that serves a logical core (R542): the jobs that stand there, moved there by castling
among them, complete 0x49 (R239), and the core is castled, or set OUT with no spare to take it. -/
def State.failTile (s : State) (n : LCore) (k : Nat) : State :=
  let mtx := k == 2 || k == 3 || k == 5
  let cause : Byte := if mtx then 2 else 1
  let s := if mtx then s.loseMatrix n else s
  if (s.board.map.get n).out then s.evalService cause false
  else s.castle n cause

/-- Channels out of service (R393, R408, R421): CH_LOST, the deficit condition, and service. -/
def State.loseChannels (s : State) (l : List (Part × Nat)) : State :=
  let s := l.foldl (fun s c => (s.raise (.memc (16 * c.1.val + c.2)) 4).log
    { cls := 5, code := 3, page := .memc (16 * c.1.val + c.2) }) s
  s.settleDeficits.evalService 0x03 false

/-- The page that reports an island. -/
def islandPage (i : Nat) : PageClass := if i < 272 then .island (i / 8) else .clk

/-- An island marked failed: class 5, its ISL_EOL.FAILED, and PWR ISLAND_FAILED (R513, R518, R520). -/
def State.markFailed (s : State) (i : Island) : State :=
  let s := s.modBoard fun b => { b with islandsOut := i :: b.islandsOut }
  let s := (s.modIsl i.val fun x => { x with failed := true }).raise .pwr 0x10
  s.log { cls := 5, code := 1, page := islandPage i.val, island := BitVec.ofNat 9 i.val }

/-- The channels that an island serves (R16, R33). -/
def islandChannels (i : Nat) : List (Part × Nat) :=
  if 272 ≤ i ∧ i < 280 then
    (List.range 8).map fun c => (⟨(i - 272) / 2 % 4, Nat.mod_lt _ (by omega)⟩, 8 * ((i - 272) % 2) + c)
  else if 280 ≤ i ∧ i < 284 then
    (List.range 16).map fun c => (⟨(i - 280) % 4, Nat.mod_lt _ (by omega)⟩, c)
  else []

/-- An island fails (R33, R34, R320, R513, R542). DESIGN CHOICE: R37 names no cause for an unused spare that fails;
CAUSE is 0x00. -/
def State.failIsland (s : State) (i : Island) : State :=
  if !s.islandOk i.val then s
  else
    let lost := (islandChannels i.val).filter fun c => s.channelIn c.1 c.2
    let s := s.markFailed i
    if s.board.svc.state == .boot then s
    else if h : i.val < 272 then
      let t : Tile := ⟨i.val / 8, by omega⟩
      match s.lcoreOf t with
      | some n => s.failTile n (i.val % 8)
      | none =>
        let dead (j : Fin 2) : Bool := spareTile j == t && ((s.board.spares.get j).state == .idle ||
          (s.board.spares.get j).state == .testing)
        match (List.finRange 2).find? dead with
        | some j => (s.modSpare j fun p => { p with state := .failed, retest := false }).evalService 0 false
        | none => s
    else if i.val < 284 then s.loseChannels lost
    else s.evalService 0x08 false

/-- The device set FAILED by a fault that no count shows (R36, R499). -/
def State.failDevice (s : State) : State :=
  if s.board.svc.state == .failed || s.board.svc.state == .boot then s
  else
    let s := s.modBoard fun b => { b with svc := { b.svc with
      state := .failed, cause := 0x08, seq := b.svc.seq + 1 } }
    let s := (s.raise .chip 1).log { cls := 6, code := 8, page := .chip }
    s.trace 0x07 0 0 (s.board.svc.word.setWidth 64) 0

end Sys2Proof.Machine
end

