-- ==== Sys2Proof/Machine/Firing.lean ====
section
/-! DEFINITION. Frequencies, firings, the kiln log and end of life (R491, R495, R498, R507 to R513). -/

namespace Sys2Proof.Machine

/-! ### Frequencies and rails (R491, R495, R497, R498) -/

/-- Rounded down to a multiple of 25 MHz. -/
def floor25 (x : Nat) : Nat := x / 25 * 25

/-- TCAP of an island's tile, in MHz; 1,900 where no throttling applies (R502). -/
def State.tcapOf (s : State) (t : Nat) : Nat := Tab.get 1900 s.clocks.tcap t

/-- FSET scaled by the power limiter. -/
def State.fscaled (s : State) (i : Nat) : Nat := floor25 ((s.isl i).fset.toNat * s.clocks.fscale / 256)

/-- FNOW of an island (R495). -/
def State.fnow (s : State) (i : Nat) : Nat :=
  let x := s.isl i
  if adaptive i then
    max 1200 (min (min x.fset.toNat (s.fscaled i)) (min (s.tcapOf (i / 8)) x.tedcap.toNat))
  else x.fset.toNat

/-- CAP_TED of an island (R515): TEDCAP limits FNOW. -/
def State.capTed (s : State) (i : Nat) : Bool :=
  let x := s.isl i
  adaptive i && decide (x.tedcap.toNat < x.fset.toNat) && decide (x.tedcap.toNat ≤ s.fnow i)

/-- TED_CAP of the pages whose islands' CAP_TED has risen since `old` (R516, R517). -/
def State.tedEdges (s old : State) (is : List Nat) : State :=
  (is.filter fun i => s.capTed i && !old.capTed i).foldl (fun s i =>
    if i < 272 then s.raise (.island (i / 8)) 1 else s.raise .clk 2) s

/-- The rail of an island (R491). -/
def railOf (i : Island) : Fin 13 :=
  match (FireGroup.island i).home with
  | some p => ⟨p.val, by omega⟩
  | none => 4

/-- The set voltage of a rail in mV. -/
def State.railSet (s : State) (r : Fin 13) : Nat := (s.clocks.rails.get r).set.toNat

/-- A rail changed. -/
def State.modRail (s : State) (r : Fin 13) (f : Rail → Rail) : State :=
  s.modClk fun k => { k with rails := k.rails.set r.val (f (k.rails.get r)) r.isLt }

/-- VDD_SRAM for given voltages of rails 0 to 4 (R498). -/
def sramFor (v : List Nat) : Nat := max 800 (v.foldl max 0 + 25)

/-! ### The readings of an island (R505, R509) -/

/-- CPRLIM at `v` mV as a fraction: numerator and positive denominator; none with no reading. -/
def Isl.lim (x : Isl) (v : Nat) : Option (Int × Nat) :=
  let d : Int := (x.v1 : Int) - x.v0
  if d = 0 then none
  else
    let n : Int := x.lim0.toNat * d + ((x.lim1.toNat : Int) - x.lim0.toNat) * ((v : Int) - x.v0)
    some (if d < 0 then -n else n, d.natAbs)

/-- CPRLIM in MHz at `v` mV. -/
def Isl.limMHz (x : Isl) (v : Nat) : Nat :=
  match x.lim v with
  | some (n, d) => (n / d).toNat
  | none => x.lim0.toNat

/-- GUARD in force, in percent. -/
def State.guard (s : State) : Nat := (fld (s.live .clk 0x044) 8 4).toNat

/-- At `v` mV the island meets `mhz` with its guard band. -/
def Isl.meets (x : Isl) (v mhz guard : Nat) : Bool :=
  match x.lim v with
  | some (n, d) => decide ((100 * mhz * d : Int) ≤ n * (100 - guard))
  | none => true

/-- The islands on a rail that work. -/
def State.onRail (s : State) (r : Fin 13) : List Island :=
  (List.finRange 294).filter fun i => railOf i == r && s.islandOk i.val

/-- Every island on a rail meets its need at `v` mV (R509). -/
def State.railMeets (s : State) (r : Fin 13) (v : Nat) : Bool :=
  (s.onRail r).all fun i =>
    (s.isl i.val).meets v (if adaptive i.val then 1600 else (s.isl i.val).fset.toNat) s.guard

/-- The voltage chosen for a rail (R509): the lowest multiple of 5 mV that meets every need, else VMAX. -/
def State.railChoice (s : State) (r : Fin 13) : Nat :=
  (((List.range 51).map fun k => 650 + 5 * k).find? fun v => s.railMeets r v).getD 900

/-- The set point of an adaptive island at `v` mV before its limits; none with no reading. -/
def State.fsetAt (s : State) (i : Island) (v : Nat) : Option Nat :=
  match (s.isl i.val).lim v with
  | some (n, d) => some (25 * (n * (100 - s.guard : Nat) / (100 * 25 * d : Nat)).toNat)
  | none => none

/-- An island has exhausted its margin at `v` mV (R491, R509). -/
def State.exhausted (s : State) (i : Island) (v : Nat) : Bool :=
  if adaptive i.val then (match s.fsetAt i v with
    | some f => decide (f < 1200)
    | none => false)
  else decide (900 ≤ v) && !(s.isl i.val).meets v (s.isl i.val).fset.toNat s.guard

/-! ### The course of a firing (R507 to R510) -/

/-- The tile of an island. -/
def islandTile (i : Island) : Option Tile := if h : i.val < 272 then some ⟨i.val / 8, by omega⟩ else none

/-- Only the sensors of these islands are read outside boot (R508). -/
def sensorsOnly (i : Nat) : Bool := (decide (i < 272) && i % 8 == 7) || decide (284 ≤ i)

/-- The tile is throttled (R510). -/
def State.tileHot (s : State) (t : Nat) : Bool := decide (s.tcapOf t < 1900)

/-- Thermally throttled tiles of a firing are skipped (R510). DESIGN CHOICE: a sweep that has begun is completed. -/
def State.skipHot (s : State) : State :=
  match s.clocks.firing with
  | none => s
  | some f =>
    let hot (i : Island) : Bool := match islandTile i with
      | some t => s.tileHot t.val && !(s.isl (8 * t.val)).gated
      | none => false
    let tiles := (f.todo.filterMap fun i => if hot i then islandTile i else none).eraseDups
    s.modClk fun k => { k with
      firing := some { f with todo := f.todo.filter fun i => !hot i }
      skipped := k.skipped ++ (tiles.filter fun t => !k.skipped.any (·.1 == t)).map fun t => (t, s.time) }

/-- A group of a firing begins. -/
def State.enterGroup (s : State) (f : Firing) : State :=
  let f := { f with todo := f.group.islands.filter fun i => s.islandOk i.val, choice := none, undo := ([], []) }
  (s.modClk fun k => { k with firing := some f, scope := f.group.scope }).skipHot

/-- The first firing asked for whose first group may be fired begins, where none runs. -/
def State.startFiring (s : State) : State :=
  if s.clocks.firing.isSome then s
  else match s.clocks.requests.find? fun r => match r.groups with
      | g :: _ => s.groupFree g
      | [] => false with
  | none => s
  | some r =>
    match r.groups with
    | [] => s
    | g :: gs =>
      let n := s.clocks.number + 1
      let s := s.modClk fun k => { k with
        requests := k.requests.erase r
        number := n
        cause := r.cause
        began := if r.full then s.time else k.began }
      s.enterGroup ⟨r, g, gs, [], none, n, ([], [])⟩

/-- The kiln entry of an island (R511). -/
def State.kilnEntry (s : State) (i : Island) : DWord :=
  let x := s.isl i.val
  let v := s.railSet (railOf i)
  let temp : Byte := (x.temp.sshiftRight 3).setWidth 8
  BitVec.ofNat 64 i.val ||| (BitVec.ofNat 64 (x.fset.toNat / 25 % 128) <<< 9) |||
    (BitVec.ofNat 64 (x.limMHz v % 4096) <<< 16) ||| (temp.setWidth 64 <<< 28) |||
    (x.age.setWidth 64 <<< 36) ||| (BitVec.ofNat 64 (min x.flags 255) <<< 52) |||
    (b2v 64 x.isSwept <<< 60) ||| (b2v 64 x.forced <<< 61) ||| (b2v 64 x.warn <<< 62) |||
    (b2v 64 x.failed <<< 63)

/-- The island has changed enough since its last entry (R512). -/
def Isl.news (x : Isl) : Bool :=
  x.fset != x.entry.1 || decide (500 ≤ (x.age.toNat : Int) - x.entry.2.toNat) ||
    decide (500 ≤ (x.entry.2.toNat : Int) - x.age.toNat)

/-- A list cut into runs of `n`. -/
def chunks {α : Type} (n : Nat) : Nat → List α → List (List α)
  | 0, _ => []
  | k + 1, l => if l.isEmpty then [] else l.take n :: chunks n k (l.drop n)

/-- The record is not ignored: its CRC fits (R511). -/
def KilnRec.valid (r : KilnRec) : Bool := r.crcDiff == 0

/-- The firings whose records are a full snapshot: a summary with 11 island records (R512). -/
def fullFirings (l : List KilnRec) : List Word :=
  l.filterMap fun r => match r.body with
    | .summary _ _ n => if n = 11 then some r.firing else none
    | .islands _ => none

/-- The snapshots that compaction keeps of older records: the newest of every 7 days in the year before
`t0`, of every 90 days before that (R512). -/
def keepOld (t0 : Nat) (old : List KilnRec) : List KilnRec :=
  let day := 86400 * 10 ^ 9
  let full := fullFirings old
  (old.foldr (fun (r : KilnRec) (a : List KilnRec × Option (Nat × Word)) =>
    if !full.contains r.firing then a
    else
      let t := r.time.toNat
      let gap := if t0 ≤ t + 365 * day then 7 * day else 90 * day
      let kept := { r with kept := true }
      match a.2 with
      | none => (kept :: a.1, some (t, r.firing))
      | some (u, n) =>
        if n = r.firing then (kept :: a.1, a.2)
        else if t + gap ≤ u then (kept :: a.1, some (t, r.firing))
        else a) ([], none)).1

/-- The kiln log compacted once fewer than 2 of its 16 blocks of 256 records are free (R511, R512): the records that stay
are written again, into fresh blocks and with SEQs that count on, before the others are erased. DESIGN CHOICE: compaction is
one event, and a loss of power falls before it or after it, so that no two copies of a record are met. -/
def Clocks.compacted (k : Clocks) : Clocks :=
  if k.kiln.length ≤ 14 * 256 then k
  else
    let l := k.kiln.filter KilnRec.valid
    let n := l.length - 2048
    let stay := match (l.drop n).head? with
      | some r => keepOld r.time.toNat (l.take n) ++ l.drop n
      | none => l
    { k with
      kiln := stay.zipIdx.map fun x => { x.1 with seq := k.kilnSeq + 1 + BitVec.ofNat 32 x.2 }
      kilnSeq := k.kilnSeq + BitVec.ofNat 32 stay.length
      kilnStart := (k.kilnStart + k.kiln.length + 255) / 256 * 256 % 4096 }

/-- Records appended to the kiln log. -/
def State.writeKiln (s : State) (firing : Word) (bodies : List KilnBody) : State :=
  bodies.foldl (fun s b => s.modClk fun k =>
    let q := k.kilnSeq + 1
    let r : KilnRec := { kept := false, seq := q, time := s.time, firing, body := b }
    { k with kilnSeq := q, kiln := k.kiln ++ [r] }.compacted) s

/-- The summary and the island records of a firing (R511, R512). -/
def State.recordFiring (s : State) (cause : Byte) (number : Word) (snapshot : Bool) : State :=
  let l := (List.finRange 294).filter fun i => snapshot || (s.isl i.val).news
  let runs := chunks 28 11 (l.map s.kilnEntry)
  let volts := (List.range 5).map fun r => (s.clocks.rails.get ⟨r % 13, Nat.mod_lt _ (by omega)⟩).set
  let s := s.writeKiln number (.summary cause volts runs.length :: runs.map .islands)
  l.foldl (fun s i => s.modIsl i.val fun x => { x with entry := (x.fset, x.age) }) s

/-- The bytes of a kiln record, with its CRC-32 (R511). DESIGN CHOICE: the bytes to which R511 gives no field are 0, and
the number of island records is a word. -/
def KilnRec.bytes (r : KilnRec) : List Byte :=
  let type : Byte := match r.body with
    | .summary .. => 1
    | .islands _ => 2
  let head := [type, b2v 8 r.kept, 0, 0] ++ leBytes r.seq 4 ++ leBytes r.time 8 ++ leBytes r.firing 4 ++ List.replicate 8 0
  let rest := match r.body with
    | .summary cause rails n =>
      [cause, 0] ++ (rails.flatMap fun v => leBytes (v.setWidth 16) 2) ++ leBytes (BitVec.ofNat 32 n) 4 ++ List.replicate 208 0
    | .islands es => (es.flatMap fun e => leBytes e 8) ++ List.replicate (224 - 8 * es.length) 0xFF
  head ++ leBytes (Config.crc32 (head ++ rest) ^^^ r.crcDiff) 4 ++ rest

/-- The voltage that a firing chose for a rail, as its summary has it. -/
def Clocks.railAt (k : Clocks) (firing : Word) (r : Fin 13) : Option Nat :=
  k.kiln.findSome? fun x => match x.body with
    | .summary _ v _ => if x.firing = firing ∧ x.valid then (v[r.val]?).map BitVec.toNat else none
    | .islands _ => none

/-- CPRLIM at VMAX of a reading at `v` mV, along the island's slope. -/
def Isl.atMax (x : Isl) (lim v : Nat) : Nat :=
  match x.lim 900, x.lim v with
  | some (n, d), some (m, _) => ((lim : Int) + (n - m) / d).toNat
  | _, _ => lim

/-- The swept entries of an island in the last 400 days of the kiln log, by time, with CPRLIM at VMAX (R513). DEDUCED: an
entry holds CPRLIM at the voltage of its firing alone, and the island's present slope takes it to VMAX. -/
def State.sweptPoints (s : State) (i : Island) : List (Nat × Nat) :=
  s.clocks.kiln.filterMap fun r => match r.body with
    | .islands es =>
      if r.valid && decide ((s.time - r.time).toNat ≤ 400 * 86400 * 10 ^ 9) then
        (es.find? fun e => (fld e 0 9).toNat == i.val && bit e 60).map fun e =>
          (r.time.toNat, (s.isl i.val).atMax (fld e 16 12).toNat
            ((s.clocks.railAt r.firing (railOf i)).getD (s.railSet (railOf i))))
      else none
    | .summary .. => none

/-- They span 30 days. -/
def State.monthOf (s : State) (i : Island) : Bool :=
  let l := (s.sweptPoints i).map (·.1)
  let last := l.foldl max 0
  l.any fun t => decide (t + 30 * 86400 * 10 ^ 9 ≤ last)

/-- The days until a − b × t^0.25, less the guard band, falls below `mhz` (R513): `a` and `b` in units of 2^-16 MHz, with t
in days of global time; 0xFFFF where more than 65,534 remain. The fourth root stands on neither side: the curve is below
the line x / y where t exceeds its fourth power. -/
def daysLeft (a b : Int) (now mhz guard : Nat) : Nat :=
  let x : Int := a * (100 - guard : Nat) - (100 * mhz * 2 ^ 16 : Nat)
  let y : Int := b * (100 - guard : Nat)
  if 0 < y then if x ≤ 0 then 0 else min 0xFFFF ((x ^ 4 / y ^ 4).toNat - now)
  else if x < 0 ∧ y ^ 4 * now < x ^ 4 then 0
  else 0xFFFF

/-- DAYS of an island after a firing (R513): from the fit, which the spec names without its method; none with less than 30
days of entries. WARN follows at 90 days, with its report on the management network and in the log. -/
def State.fitIsland (s : State) (i : Island) : State :=
  if !s.monthOf i then s.modIsl i.val fun x => { x with days := 0xFFFF }
  else
    let f := Config.wearFit (s.sweptPoints i)
    let need := if adaptive i.val then 1200 else (s.isl i.val).fset.toNat
    let days := daysLeft f.1 f.2 (s.time.toNat / (86400 * 10 ^ 9)) need s.guard
    let s := s.modIsl i.val fun x => { x with days := BitVec.ofNat 16 days }
    if days ≤ 90 && !(s.isl i.val).warn then
      let s := (s.modIsl i.val fun x => { x with warn := true }).raise .pwr 8
      let s := { s with mgmt := { s.mgmt with eolReports := (BitVec.ofNat 9 i.val, s.time) :: s.mgmt.eolReports } }
      s.log { cls := 7, code := 0x08, page := islandPage i.val, island := BitVec.ofNat 9 i.val }
    else s

/-- A firing is complete (R507, R511 to R513, R517, R525). -/
def State.endFiring (s : State) (f : Firing) : State :=
  let s := s.modClk fun k => { k with
    firing := none
    fired := if f.req.full then s.time else k.fired
    full := if f.req.full && f.req.cause != 5 then k.full + 1 else k.full }
  let snapshot := f.req.cause == 5 || (f.req.full && s.clocks.full % 28 == 0)
  let s := s.recordFiring f.req.cause f.number snapshot
  let s := ((List.finRange 294).filter fun i => s.monthOf i || (s.isl i.val).days != 0xFFFF).foldl
    State.fitIsland s
  let s := (List.finRange 294).foldl (fun s i =>
    if s.isl i.val = { s.isl i.val with isSwept := false, forced := false, flags := 0 } then s
    else s.modIsl i.val fun x => { x with isSwept := false, forced := false, flags := 0 }) s
  ((s.count .clk 0 1).raise .clk 1).trace 0x04 0 0 (f.req.cause.setWidth 64) (f.group.scope.setWidth 64)

/-- A group is done: its islands go on, those that have exhausted their margin fail (R513), swept or by the readings they
kept (R509), and the next group begins; groups of recovering partitions are asked for again (R510). -/
def State.endGroup (s : State) (f : Firing) : State :=
  let is := f.group.islands
  let s := s.ungate is
  let read (s : State) (i : Island) : Bool := (s.isl i.val).isSwept || (sensorsOnly i.val &&
    (match islandTile i with
    | some t => !s.clocks.skipped.any (·.1 == t)
    | none => true))
  let s := is.foldl (fun s i =>
    if read s i && (s.isl i.val).tedcap != 1900 then
      s.modIsl i.val fun x => { x with tedcap := 1900 } else s) s
  let worn := is.filter fun i => s.exhausted i (s.railSet (railOf i))
  let s := worn.foldl State.failIsland s
  let put := f.rest.filter fun g => !s.groupFree g
  let s := if put.isEmpty then s else s.modClk fun k => { k with
    requests := k.requests ++ [⟨put, false, f.req.cause⟩] }
  match { f with rest := f.rest.filter s.groupFree }.next with
  | some g => s.enterGroup g
  | none => s.endFiring f

/-- Set points written (R509). -/
def State.writeFsets (s : State) (l : List (Island × BitVec 11)) : State :=
  l.foldl (fun s p => s.modIsl p.1.val fun x => { x with fset := p.2 }) s

/-- The rail and set points of a group whose islands are all read (R509): a partial firing raises its rail only
where it must. -/
def State.chooseGroup (s : State) (f : Firing) : Nat × List (Island × BitVec 11) :=
  let r : Fin 13 := match f.group with
    | .part p => ⟨p.val, by omega⟩
    | .system => 4
    | .island i => railOf i
  let best := s.railChoice r
  let v := match f.group with
    | .island _ => max best (s.railSet r)
    | _ => best
  (v, f.group.islands.filterMap fun i =>
    if !adaptive i.val || !s.islandOk i.val then none
    else match s.fsetAt i v with
      | some x => if x < 1200 then none else some (i, BitVec.ofNat 11 (min 1900 x))
      | none => none)

/-- The rail of a group. -/
def FireGroup.rail : FireGroup → Fin 13
  | .part p => ⟨p.val, by omega⟩
  | .system => 4
  | .island i => railOf i

/-- A rail slews to a voltage. -/
def State.slew (s : State) (r : Fin 13) (v : Nat) : State :=
  s.modRail r fun x => { x with goal := some (BitVec.ofNat 12 v) }

/-- A firing that waits for rails goes on in the order of R498: VDD_SRAM up, the logic rail up, the set points,
the logic rail down, VDD_SRAM down. -/
def State.goOnFiring (s : State) : State :=
  match s.clocks.firing with
  | none => s
  | some f =>
    match f.choice with
    | none => s
    | some (v, l) =>
      let r := f.group.rail
      let cur := s.railSet r
      let want := sramFor ((List.range 5).map fun q =>
        if q = r.val then v else s.railSet ⟨q % 13, Nat.mod_lt _ (by omega)⟩)
      if ((List.finRange 13).any fun q => (s.clocks.rails.get q).goal.isSome) then s
      else if cur < v then
        if s.railSet 5 < want then s.slew 5 want else s.slew r v
      else
        let s := s.writeFsets l
        if v < cur then s.slew r v
        else if want < s.railSet 5 then s.slew 5 want
        else s.endGroup f

/-- A group with nothing left to read has its rail and set points chosen. -/
def State.settleFiring (s : State) : State :=
  match s.clocks.firing with
  | none => s
  | some f =>
    if !f.todo.isEmpty || f.choice.isSome then s
    else
      let c := s.chooseGroup f
      let undo := ([f.group.rail, 5].map fun r => (r, (s.clocks.rails.get r).set),
        c.2.map fun p => (p.1, (s.isl p.1.val).fset))
      (s.modClk fun k => { k with firing := some { f with choice := some c, undo := undo } }).goOnFiring

/-- Islands 0 to 6 of a tile that a firing has still to sweep. -/
def Firing.waits (f : Firing) (t : Nat) : Bool := f.todo.any fun i => i.val / 8 == t && i.val % 8 != 7 && decide (i.val < 272)

/-- The spare whose core goes back to its own tile now: taken by a firing that has swept that tile (R508). -/
def State.spareBack (s : State) : Option (Fin 2) :=
  (List.finRange 2).find? fun i =>
    let p := s.board.spares.get i
    let t : Tile := ⟨p.lcore.val, by omega⟩
    p.fire && p.state == .castled && !s.recovering (partOf p.lcore) && s.tileWhole t &&
      (match s.clocks.firing with
      | some f => !f.waits t.val
      | none => true)

/-- The core that a firing castles next: on its own tile, in service, its partition not recovering, no castling
under way (R508). -/
def State.nextToCastle (s : State) (f : Firing) : Option LCore :=
  if s.anyCopying then none
  else (List.finRange 32).find? fun n =>
    (s.tileOf n).val == n.val && f.waits n.val && s.coreWorks n && !s.recovering (partOf n) &&
      !(s.isl (8 * n.val)).gated

/-- What a firing does with spares (R508): a core whose tile is swept goes back; the next one is castled to an
IDLE spare. DESIGN CHOICE: R37 names no cause for the count that a taken spare changes; CAUSE is 0x00. -/
def State.fireCastle (s : State) : State :=
  match s.spareBack with
  | some i => s.beginCastling (s.board.spares.get i).lcore i true
  | none =>
    match s.clocks.firing with
    | none => s
    | some f =>
      match s.nextToCastle f, (List.finRange 2).find? fun i => (s.board.spares.get i).state == .idle with
      | some n, some i =>
        if s.board.svc.state == .boot then s
        else ((s.beginCastling n i false).modSpare i fun p => { p with fire := true }).evalService 0 false
      | _, _ => s

/-- The firings asked for move on as far as nothing outside is waited for. -/
def State.pumpFiring (s : State) : State := (s.startFiring.skipHot.settleFiring).fireCastle

/-- A firing asked for (R507). -/
def State.askFiring (s : State) (r : FireReq) : State :=
  if s.clocks.requests.contains r || (match s.clocks.firing with
    | some f => f.req == r
    | none => false) then s
  else (s.modClk fun k => { k with requests := k.requests ++ [r] }).pumpFiring

/-- The groups of a full firing. -/
def fullGroups : List FireGroup := [.part 0, .part 1, .part 2, .part 3, .system]

/-- Every firing abandoned: rails and set points stay (R510). -/
def State.dropFirings (s : State) : State :=
  let s := match s.clocks.firing with
    | some f => (s.ungate f.group.islands).undoFiring f
    | none => s
  s.modClk fun k => { k with
    firing := none, requests := [], rails := k.rails.map fun r => { r with goal := none } }

/-- Castlings that failures have asked for while a firing held the spare or the partition recovered. -/
def State.castleLater (s : State) : State :=
  (List.finRange 4).foldl (fun s p =>
    if s.recovering p then s
    else
      let l := (s.part p).later
      l.foldl (fun s n => s.castle n (s.lossCause n)) (s.modPart p fun x => { x with later := [] })) s

/-- A core whose tile was gated goes on. -/
def State.goOnTile (s : State) (t : Tile) : State :=
  let s := s.reselect t
  match s.lcoreOf t with
  | some n => s.startJobs n
  | none => s

end Sys2Proof.Machine
end

