-- ==== Sys2Proof/Machine/Repair.lean ====
section
/-! DEFINITION. Scratchpad repair and clear (R315 to R322), DMA_KILL (R350), and the commits of RING_CTRL
and SYNC_COMMIT (R358 to R360, R390). -/

namespace Sys2Proof.Machine

/-- The SPAD counter of correctable errors in the memory of an address (R316, R323). -/
def corrCounter (a : Nat) : Nat :=
  match memKind a with
  | some (.am, _) => 1
  | some (.pm, _) => 2
  | _ => 0

/-- The count of a row in the watch table. -/
def watchOf (w : List WatchRow) (bank row : Nat) : Nat :=
  match w.find? fun r => r.bank.toNat == bank && r.row.toNat == row with
  | some r => r.count
  | none => 0

/-- ECC_WRITE_BACK (R316, R318): a correctable error is corrected, counted, logged and watched; the word's
value is unchanged. A row whose count reaches NOMINATE is nominated, and one whose count reaches FORCE is remapped at
once. -/
def execEccWriteBack (tile : Tile) (addr : BitVec 24) (s : State) : Host.Outcome State Fault Refusal :=
  let a := addr.toNat
  if !localOk a then .next s
  else
    let c := PageClass.spad tile.val
    let s := s.modCore tile fun k =>
      { k with watch := watchCount k.watch (BitVec.ofNat 6 (bankOf a)) (BitVec.ofNat 8 (rowOf a)) }
    let s := (s.count c (corrCounter a) 1).log (spadReport tile 1 0 a)
    let n := watchOf (s.core tile).watch (bankOf a) (rowOf a)
    .next (if (fld (s.live c 0x044) 0 8).toNat ≤ n then
      s.nominate tile (nomineeAt a (decide ((fld (s.live c 0x044) 8 8).toNat ≤ n))) else s)

/-- WATCH_HALVING (R318). -/
def execWatchHalving (tile : Tile) (s : State) : Host.Outcome State Fault Refusal :=
  .next (s.modCore tile fun k => { k with watch := k.watch.map fun r => { r with count := r.count / 2 } })

/-- A write of SPAD_RMAP_CMD (R319, R323): BANKID and ROW are written, and GO from system firmware starts
a remap. While a remap runs the write is dropped. -/
def State.writeRmap (s : State) (w : Who) (tile : Tile) (data : Word) : State :=
  let c := PageClass.spad tile.val
  if !s.mayWrite w c || (s.core tile).rmapBusy then s
  else
    let v := data &&& 0x3FFF
    let s := s.modPage (pageNo c) fun p => { p with
      staged := Tab.set 0 p.staged 0x050 v, live := Tab.set 0 p.live 0x050 v }
    if w == .firmware && bit data 16 then
      s.modCore tile fun k => { k with rmapBusy := true }
    else s

/-- SPAD_RMAP_GO (R319): a write of SPAD_RMAP_CMD with GO set. -/
def execSpadRmapGo (w : Who) (tile : Tile) (data : Word) (s : State) :
    Host.Outcome State Fault Refusal :=
  .next (if s.mayWrite w (.spad tile.val) then
    s.accept (.spad tile.val) ⟨w, 0x050, .b4, (data ||| 0x10000).setWidth 64⟩ fun s => s.writeRmap w tile (data ||| 0x10000)
  else s)

/-- REMAP_DONE (R319, R320, R323): the row is mapped to a free spare row, its data and marks unchanged;
with none free, firmware fails the memory's island. -/
def execRemapDone (tile : Tile) (s : State) : Host.Outcome State Fault Refusal :=
  let k := s.core tile
  let c := PageClass.spad tile.val
  let cmd := s.staged c 0x050
  let bank := (fld cmd 0 6).toNat
  let row := (fld cmd 6 8).toNat
  if !k.rmapBusy then .next s
  else
    let fin (r : BitVec 2) (s : State) : State :=
      ((s.modCore tile fun k => { k with
        rmapBusy := false, rmapResult := r
        nominees := k.nominees.filter fun x => !(x.bank.toNat == bank && x.row.toNat == row) }).bankResumed tile).raise c 8
    if bankRows bank ≤ row then .next ((fin 3 s).remapDue tile false)
    else if k.rowMapped bank row then .next ((fin 2 s).remapDue tile false)
    else match k.spareRow bank with
      | none => .next (((fin 1 s).failIsland (bankIsland tile bank)).remapDue tile false)
      | some e =>
        let s := s.modCore tile fun k => { k with
          remap := Tab.set none k.remap (8 * bank + e) (some ⟨BitVec.ofNat 8 row, false⟩)
          watch := k.watch.filter fun r => !(r.bank.toNat == bank && r.row.toNat == row) }
        let s := (fin 0 s).count c 9 1
        .next ((s.log (remapReport tile bank row)).remapDue tile false)

/-- A clear of a tile begins (R321): what it holds is gone, and every access waits for its end. The tile's own contexts
and channels go on waiting, for a slot that is raw from then on. -/
def State.beginClear (s : State) (t : Tile) : State :=
  s.modCore t fun k => { k.cleared with
    clearing := true, waiters := k.waiters.filter fun w => s.lcoreOf t == some w.1 }

/-- SPAD_CLEAR (R321, R323): system firmware alone. -/
def execSpadClear (w : Who) (tile : Tile) (s : State) : Host.Outcome State Fault Refusal :=
  match w with
  | .firmware => .next (s.beginClear tile)
  | .func _ => .next s

/-- CLEAR_DONE (R321): the accesses that waited go on. -/
def execClearDone (tile : Tile) (s : State) : Host.Outcome State Fault Refusal :=
  .next ((s.modCore tile fun k => { k with clearing := false }).bankResumed tile)

/-- DISABLE on the channels of a mask (R350). -/
def State.dmaKill (s : State) (t : Tile) (kill : Byte) : State :=
  (List.finRange 8).foldl (fun s c =>
    if bit kill c.val then s.dmaDisable t ((s.lcoreOf t).getD 0) c else s) s

/-- DMA_KILL (R350). -/
def execDmaKill (w : Who) (tile : Tile) (kill : Byte) (s : State) : Host.Outcome State Fault Refusal :=
  .next (if s.mayWrite w (.dma tile.val) then
    s.accept (.dma tile.val) ⟨w, 0x080, .b4, kill.setWidth 64⟩ fun s => s.dmaKill tile kill
  else s)

/-! ### RING_CTRL (R357 to R360) -/

/-- The ring page and record of a ring (R356). -/
def ringPage (r : Nat) : PageClass := .ring (r / 16)

/-- A write of RING_CTRL that sets one of its bits and leaves RUN and IRQEN: held while the ring's check
runs (R57). -/
def State.ringWrite (s : State) (w : Who) (r : Nat) (data : Word) (go : State → State) : State :=
  s.commitWrite w (ringPage r) (.ring ⟨r % 16, Nat.mod_lt _ (by omega)⟩) (0x100 * (r % 16) + 0x78) data go

/-- RUN and IRQEN of a ring as RING_CTRL reads. -/
def Ring.ctrl (x : Ring) : Word := b2v 32 x.run ||| (x.irqen.setWidth 32 <<< 4)

/-- RING_COMMIT (R358). -/
def execRingCommit (w : Who) (ring : BitVec 14) (s : State) : Host.Outcome State Fault Refusal :=
  let r := ring.toNat
  .next (s.ringWrite w r ((s.ring r).ctrl ||| 2) fun s =>
    s.startCheck (ringPage r) (.ring ⟨r % 16, Nat.mod_lt _ (by omega)⟩))

/-- RING_RUN (R359). -/
def execRingRun (w : Who) (ring : BitVec 14) (run : Bool) (s : State) :
    Host.Outcome State Fault Refusal :=
  let r := ring.toNat
  .next (s.ringWrite w r (b2v 32 run ||| ((s.ring r).irqen.setWidth 32 <<< 4)) fun s => s.ringRun r run)

/-- RING_CANCEL (R360). -/
def execRingCancel (w : Who) (ring : BitVec 14) (s : State) : Host.Outcome State Fault Refusal :=
  let r := ring.toNat
  .next (s.ringWrite w r ((s.ring r).ctrl ||| 4) fun s => s.ringCancel r)

/-- RING_RESTART (R359). -/
def execRingRestart (w : Who) (ring : BitVec 14) (s : State) : Host.Outcome State Fault Refusal :=
  let r := ring.toNat
  .next (s.ringWrite w r ((s.ring r).ctrl ||| 8) fun s => s.ringRestart r)

/-- SYNC_COMMIT (R390). -/
def execSyncCommit (w : Who) (s : State) : Host.Outcome State Fault Refusal :=
  .next (s.commitWrite w .sync .sync 0x080 1 fun s => s.startCheck .sync .sync)

end Sys2Proof.Machine
end

