-- ==== Sys2Proof/Machine/Peer.lean ====
section
/-! DEFINITION. The Vabor ports, peer transfers and time alignment (R438 to R454, R471, R472). -/

namespace Sys2Proof.Machine

/-! ### Ports and routes (R440 to R444) -/

/-- The peer side changed. -/
def State.modPeer (s : State) (f : Peer → Peer) : State := { s with peer := f s.peer }

/-- A port. -/
def State.port (s : State) (q : Fin 4) : Port := s.peer.ports.get q

/-- A port changed. -/
def State.modPort (s : State) (q : Fin 4) (f : Port → Port) : State :=
  s.modPeer fun p => { p with ports := p.ports.set q.val (f (p.ports.get q)) q.isLt }

/-- The neighbour on each ACTIVE port. -/
def State.neighbours (s : State) : List (Option (BitVec 3)) :=
  (List.finRange 4).map fun q => if (s.port q).run == .active then some (s.port q).nbrId else none

/-- The devices at the ACTIVE ports of a device: this one's are known, the others' as firmware has them. -/
def State.linksOf (s : State) (x : BitVec 3) : List (BitVec 3) :=
  if x = s.pins.peerId then s.neighbours.filterMap id
  else (List.range 4).filterMap (Config.farLink s.free x)

/-- A device is reached from another over at most `n` links. -/
def State.reaches (s : State) (d : BitVec 3) : Nat → BitVec 3 → Bool
  | 0, x => x == d
  | n + 1, x => x == d || (s.linksOf x).any (s.reaches d n)

/-- A port lies on a path of `n` links and one to a device. -/
def State.leadsTo (s : State) (d : BitVec 3) (n : Nat) (q : Fin 4) : Bool :=
  match listAt none s.neighbours q.val with
  | some x => s.reaches d n x
  | none => false

/-- The ports in the order in which a route takes them (R443, R444): the row hops, 1 and 3, and then the others, the
lower number first. -/
def routeOrder : List (Fin 4) := [1, 3, 0, 2]

/-- PEER_ROUTE[d] (R444, R453): PORT on a shortest path over ACTIVE ports, ALT beside it, VALID and HOPS. -/
def State.routeTo (s : State) (d : BitVec 3) : Byte :=
  if d = s.pins.peerId then 0
  else match firstIdx 7 fun n => (List.finRange 4).any (s.leadsTo d n) with
    | none => 0
    | some n =>
      let q := (routeOrder.find? (s.leadsTo d n)).getD 0
      let alt := if q = 1 && s.leadsTo d n 3 then 3 else q.val
      BitVec.ofNat 8 (q.val + 4 * alt + 16 + 32 * (n + 1))

/-- A device is reachable (R442). -/
def State.reachable (s : State) (d : BitVec 3) : Bool := bit (s.peer.routes.get d.toFin) 4

/-- Routes and the master written anew: whether a path to the master is gained, whether a device is reached that was not
before, and since when there is no path to another master (R444, R450 to R452). LOCKED does not hold of a new master. -/
def State.settleRoutes (s : State) : State :=
  let old := s.peer
  let routes : Vector Byte 8 := Vector.ofFn fun d => s.routeTo (BitVec.ofNat 3 d.val)
  let s := { s with free := s.free + 1 }
  let s := s.modPeer fun p => { p with routes := routes }
  let low := (List.range 8).find? fun d =>
    BitVec.ofNat 3 d == s.pins.peerId || s.reachable (BitVec.ofNat 3 d)
  let m := BitVec.ofNat 3 (low.getD s.pins.peerId.toNat)
  let had := m == old.master && bit (old.routes.get m.toFin) 4
  let path := bit (routes.get m.toFin) 4
  let gained := (List.finRange 8).any fun d => bit (routes.get d) 4 && !bit (old.routes.get d) 4
  s.modPeer fun p => { p with
    master := m
    steady := if m = p.master then p.steady else none
    locked := p.locked && (m == p.master || !path)
    alone := if path then none else p.alone.or (some s.time)
    joined := (p.joined || gained) && (List.finRange 8).any fun d => bit (routes.get d) 4
    fresh := path && (p.fresh || !had) }

/-- A port enters a state (R441, R453): STATE_CHANGE, with DOWN and ISOLATED, and routes where it enters or
leaves ACTIVE. -/
def State.setPort (s : State) (q : Fin 4) (r : PortRun) (f : Port → Port) : State :=
  let was := (s.port q).run
  let s := s.modPort q fun p => { f p with run := r }
  let bits : Word := match r with
    | .down => 3
    | .isolated => 5
    | _ => 1
  let s := s.raise (.peer q.val) bits
  let s := if r == .retrain then s.count (.peer 0) 4 1 else s
  if (was == .active) != (r == .active) then s.settleRoutes else s

/-- A port without link or session; its flits are numbered anew. -/
def Port.quiet (p : Port) : Port :=
  { p with width := 0, session := none, failed := false, buffer := [], waiting := [], nak := false
           encrypted := false, cause := 0, txSeq := 0, rxGood := 0xFFF, ack := 0xFFF, reqCredit := 0
           respCredit := 0, owedReq := 0, owedResp := 0 }

/-- PEER_DETECTED (R441). -/
def execPeerDetected (port : Fin 4) (lanes : BitVec 4) (s : State) : Host.Outcome State Fault Refusal :=
  .next (if (s.port port).run == .detect && decide (4 ≤ lanes.toNat) then s.setPort port .train id else s)

/-- PEER_TRAINED (R438, R441): from TRAIN to IDENT with its width, from RETRAIN back to ACTIVE. -/
def execPeerTrained (port : Fin 4) (x8 : Bool) (s : State) : Host.Outcome State Fault Refusal :=
  let wide (p : Port) : Port := { p with width := if x8 then 8 else 4 }
  .next (match (s.port port).run with
    | .train => s.setPort port .ident wide
    | .retrain => s.setPort port .active wide
    | _ => s)

/-! ### Flits (R439, R440) -/

/-- The first 280 bytes of a flit (R439). -/
def flitBytes (f : Flit) : List Byte :=
  let w0 : Word := f.seq.setWidth 32 ||| (f.ack.setWidth 32 <<< 12) ||| (b2v 32 f.nak <<< 24) |||
    (f.type.setWidth 32 <<< 25)
  let w1 : Word := f.creditReq.setWidth 32 ||| (f.creditResp.setWidth 32 <<< 16)
  leBytes w0 4 ++ leBytes w1 4 ++ leBytes f.tag 16 ++ leBytes f.payload 256

/-- The GCM nonce of a flit (R471): a 32-bit zero, then the count of new flits. -/
def flitIv (count : DWord) : BitVec 96 := count.setWidth 96 <<< 32

/-- A payload encrypted, or decrypted, under a key and IV: GCM's counter mode (R471). -/
def flitCipher (key : BitVec 256) (iv : BitVec 96) (x : VReg) : VReg :=
  x ^^^ tabulate 2048 16 fun i => Config.keyStream key iv (i + 2)

/-- The GCM tag of a flit is good: it is checked where the port is encrypted (R439, R471). -/
def Port.tagOk (p : Port) (f : Flit) : Bool :=
  match p.encrypted, p.session with
  | true, some k =>
    f.tag == Config.gcmTag k.2 (flitIv p.got) ((flitBytes f).take 8) (leBytes f.payload 256)
  | _, _ => true

/-- What a flit's payload says (R471). -/
def Port.plain (p : Port) (f : Flit) : VReg :=
  match p.encrypted, p.session with
  | true, some k => flitCipher k.2 (flitIv p.got) f.payload
  | _, _ => f.payload

/-- TYPE of a flit by what it carries (R439). -/
def Cargo.type (c : Cargo) : BitVec 3 :=
  match c with
  | .idle => 0
  | .request _ | .response _ | .forward _ _ _ => 1
  | .time => 2
  | .keys _ => 3

/-- The 64-byte units of so many bytes of data, at least one. -/
def creditUnits (n : Nat) : Nat := max 1 ((n + 63) / 64)

/-- The credit that a flit takes, on the request and on the response channel (R439). DESIGN CHOICE: a unit for each 64
bytes of data, and at least one; the size of a packet's header is not given, and a forwarded payload's channel is not
either. -/
def Cargo.credit (c : Cargo) : Nat × Nat :=
  match c with
  | .request p => (match p.op with
    | .write _ data => (creditUnits data.length, 0)
    | _ => (1, 0))
  | .response (.data bytes _) => (0, creditUnits bytes.length)
  | .response _ => (0, 1)
  | _ => (0, 0)

/-- A flit with this cargo may leave now: the port sends, fewer than 128 flits are unacknowledged, and there is credit
(R439, R440). -/
def Port.maySend (p : Port) (c : Cargo) : Bool :=
  (p.run == .active || (p.run == .key && c.type == 3)) && decide (p.buffer.length < 128) &&
    decide (c.credit.1 ≤ p.reqCredit) && decide (c.credit.2 ≤ p.respCredit)

/-- The next flit of a port with its cargo (R439, R471): an idle one is not numbered. The layout of a payload is not
given, so its bits are open but for a forwarded one's. -/
def Port.nextFlit (p : Port) (c : Cargo) (n : Nat) : Flit :=
  let plain : VReg := match c with
    | .forward x _ _ => x
    | _ => Config.freeBits 2048 n
  let base : Flit := {
    seq := if c.type = 0 then p.txSeq - 1 else p.txSeq
    ack := p.rxGood, nak := p.nak, type := c.type
    creditReq := BitVec.ofNat 16 (min p.owedReq 65535), creditResp := BitVec.ofNat 16 (min p.owedResp 65535)
    tag := 0, payload := plain, crc := 0 }
  let f := match p.encrypted, p.session with
    | true, some k =>
      let x := flitCipher k.1 (flitIv p.sent) plain
      { base with
        payload := x, tag := Config.gcmTag k.1 (flitIv p.sent) ((flitBytes base).take 8) (leBytes x 256) }
    | _, _ => base
  { f with crc := crc64 (flitBytes f) }

/-- A port that has sent a flit: a new one of types 1 to 3 is numbered, counted and kept for replay (R440, R471). -/
def Port.emitted (p : Port) (x : TxFlit) : Port :=
  let new : Bool := x.cargo.type != 0
  { p with
    txSeq := if new then p.txSeq + 1 else p.txSeq
    sent := if new then p.sent + 1 else p.sent
    buffer := if new then p.buffer ++ [x] else p.buffer
    nak := false
    owedReq := p.owedReq - 65535, owedResp := p.owedResp - 65535
    reqCredit := p.reqCredit - x.cargo.credit.1, respCredit := p.respCredit - x.cargo.credit.2
    out := x :: p.out }

/-- A flit leaves a port (R439). -/
def State.emit (s : State) (q : Fin 4) (c : Cargo) : State :=
  let x : TxFlit := ⟨(s.port q).nextFlit c s.free, c, 0⟩
  { (s.modPort q (·.emitted x)).count (.peer 0) 0 1 with free := s.free + 1 }

/-- A flit to send: it leaves, or waits behind what waits already, which is counted (R413, R440, R453). -/
def State.send (s : State) (q : Fin 4) (c : Cargo) : State :=
  if (s.port q).waiting.isEmpty && (s.port q).maySend c then s.emit q c
  else (s.modPort q fun p => { p with waiting := p.waiting ++ [c] }).count (.peer 0) 5 1

/-- What waits and may leave leaves, in order. -/
def State.drain (s : State) (q : Fin 4) : Nat → State
  | 0 => s
  | n + 1 =>
    match (s.port q).waiting with
    | [] => s
    | c :: rest =>
      if (s.port q).maySend c then ((s.modPort q fun p => { p with waiting := rest }).emit q c).drain q n else s

/-- A flit that has come is answered: what waits, or an idle flit, with ACK, NAK and credits (R439, R440). -/
def State.answerFlit (s : State) (q : Fin 4) : State :=
  let t := s.drain q (s.port q).waiting.length
  if (t.port q).out.length == (s.port q).out.length then t.emit q .idle else t

/-! ### Identification and keys (R442, R471, R472) -/

/-- DOMAIN in force. -/
def State.domain (s : State) : BitVec 16 := fld (s.live (.peer 0) 0x060) 4 16

/-- The serial of the device that a reachable PEERID belongs to. -/
def State.serialOf (s : State) (d : BitVec 3) : DWord :=
  match (List.finRange 4).find? fun q => (s.port q).run == .active && (s.port q).nbrId == d with
  | some q => (s.port q).serial
  | none => Config.farSerial d

/-- ISOLATE_CAUSE of an identification; 0 where it passes (R442). -/
def State.isolateCause (s : State) (p : PeerIdent) : BitVec 2 :=
  if p.peerId = s.pins.peerId || (s.reachable p.peerId && s.serialOf p.peerId != p.serial) then 1
  else if p.domain != s.domain || p.domain == 0 then 2
  else if p.saggar != s.saggar then 3
  else 0

/-- The hash of the owner's or the tenant's key; 0 with none (R456, R476). -/
def keyHash (k : Option (BitVec 776)) : BitVec 384 :=
  match k with
  | some k => Config.sha384 (beBytes k)
  | none => 0

/-- What this device sends in a key exchange with an ephemeral private key (R465, R471). -/
def State.exchange (s : State) (eph : BitVec 384) : KeyExchange :=
  let link := Config.publicKey Config.linkKey
  let pub := Config.publicKey eph
  { identityKey := Config.publicKey Config.identityKey, serial := Config.serial, endorsement := Config.endorsement
    linkKey := link, linkSig := Config.ecdsaSign Config.identityKey (beBytes link)
    ownerHash := keyHash s.sec.owner, tenantHash := if s.saggar then keyHash s.sec.tenant else 0
    ephemeralKey := pub, ephemeralSig := Config.ecdsaSign Config.linkKey (beBytes pub) }

/-- A fresh ephemeral key, and the flits of TYPE 3 that carry the exchange (R471): three, which hold its 683 bytes
(DEDUCED). -/
def State.offerKeys (s : State) (q : Fin 4) : State :=
  let eph : BitVec 384 := Config.freeBits 384 s.free
  let c := Cargo.keys (s.exchange eph)
  let s := { s.modPort q fun p => { p with eph := eph } with free := s.free + 1 }
  ((s.send q c).send q c).send q c

/-- PEER_IDENT (R442). -/
def execPeerIdent (port : Fin 4) (peer : PeerIdent) (s : State) : Host.Outcome State Fault Refusal :=
  if (s.port port).run != .ident then .next s
  else
    let c := s.isolateCause peer
    let keep (p : Port) : Port := { p with
      nbrId := peer.peerId, nbrPort := peer.port, serial := peer.serial, cause := c
      encrypted := c == 0 && s.saggar }
    let s := s.setPort port (if c = 0 then .key else .isolated) keep
    .next (if c = 0 then s.offerKeys port else s)

/-- The check of R471 that a key exchange fails first, in the order that the rule gives them: 1 the endorsement, 2 the
link key's signature, 3 the ephemeral key's, 4 the owner hash, 5 the tenant hash; 0 where it is accepted. DESIGN CHOICE:
the numbers, by which a failure is logged. -/
def State.kxCause (s : State) (k : KeyExchange) : Byte :=
  if !Config.ecdsaOk Config.caKey (beBytes k.identityKey ++ beBytes k.serial) k.endorsement then 1
  else if !Config.ecdsaOk k.identityKey (beBytes k.linkKey) k.linkSig then 2
  else if !Config.ecdsaOk k.linkKey (beBytes k.ephemeralKey) k.ephemeralSig then 3
  else if k.ownerHash != keyHash s.sec.owner then 4
  else if s.saggar && k.tenantHash != keyHash s.sec.tenant then 5
  else 0

/-- A key exchange is accepted (R471). -/
def State.kxOk (s : State) (k : KeyExchange) : Bool := s.kxCause k == 0

/-- The session that an accepted exchange agrees (R471): the key to send with, and the key to receive with. -/
def State.sessionOf (s : State) (q : Fin 4) (k : KeyExchange) : BitVec 256 × BitVec 256 :=
  let lower := decide (s.pins.peerId.toNat < (s.port q).nbrId.toNat)
  let z := vaborKeys (s.port q).eph k.ephemeralKey lower
  if lower then z else (z.2, z.1)

/-- A failed exchange: the port discards what comes, and the failure is logged with its cause (R472). -/
def State.kxFail (s : State) (q : Fin 4) (k : KeyExchange) : State :=
  (s.modPort q fun p => { p with failed := true }).log { cls := 3, code := s.kxCause k, page := .peer q.val }

/-- PEER_KEY_EXCHANGE (R471, R472). The port has room for packets to grant credit for, whose size is not given. -/
def execPeerKeyExchange (port : Fin 4) (kx : KeyExchange) (s : State) :
    Host.Outcome State Fault Refusal :=
  if (s.port port).run != .key || (s.port port).failed then .next s
  else if s.kxOk kx then
    let k := s.sessionOf port kx
    let n := s.free
    let s := { s with free := n + 2 }
    .next (s.setPort port .active fun p => { p with
      session := some k, sent := 0, got := 0
      owedReq := (Config.freeBits 16 n).toNat, owedResp := (Config.freeBits 16 (n + 1)).toNat })
  else .next (s.kxFail port kx)

/-- KEY_ROLLOVER (R471): after 2^32 new flits in a direction, fresh keys while the port stays ACTIVE. -/
def execKeyRollover (port : Fin 4) (kx : KeyExchange) (s : State) : Host.Outcome State Fault Refusal :=
  let p := s.port port
  if p.run != .active || p.failed || (decide (p.sent.toNat < 2 ^ 32) && decide (p.got.toNat < 2 ^ 32)) then .next s
  else if s.kxOk kx then
    let s := s.offerKeys port
    let k := s.sessionOf port kx
    .next (s.modPort port fun p => { p with session := some k, sent := 0, got := 0 })
  else .next (s.kxFail port kx)

/-- An ACTIVE port retrains, with its buffer, whose replays count anew (R440, R441). -/
def State.retrain (s : State) (q : Fin 4) : State :=
  if (s.port q).run == .active then
    s.setPort q .retrain fun p => { p with buffer := p.buffer.map fun x => { x with replays := 0 } }
  else s

/-- PEER_RETRAIN (R441, R453). -/
def execPeerRetrain (w : Who) (port : Fin 4) (s : State) : Host.Outcome State Fault Refusal :=
  .next (if s.mayWrite w (.peer port.val) then s.retrain port else s)

/-- PEER_LANE_LOSS (R441). -/
def execPeerLaneLoss (port : Fin 4) (s : State) : Host.Outcome State Fault Refusal :=
  .next (s.retrain port)

/-- A port goes DOWN (R441). -/
def State.portDown (s : State) (q : Fin 4) : State :=
  match (s.port q).run with
  | .disabled | .down => s
  | _ => s.setPort q .down Port.quiet

/-- PEER_REDETECT (R441). -/
def execPeerRedetect (port : Fin 4) (s : State) : Host.Outcome State Fault Refusal :=
  .next (match (s.port port).run with
    | .down | .isolated => s.setPort port .detect Port.quiet
    | _ => s)

/-! ### What comes and goes (R439, R440) -/

/-- The buffer replayed: eight replays of one flit retrain the port (R440). -/
def State.replay (s : State) (q : Fin 4) : State :=
  let p := s.port q
  if p.buffer.isEmpty then s
  else
    let s := (s.count (.peer 0) 3 1).count (.peer 0) 0 p.buffer.length
    let again := p.buffer.map fun x => { x with replays := x.replays + 1 }
    let s := (s.modPort q fun p => { p with buffer := again, out := p.buffer.reverse ++ p.out }).log
      { cls := 1, code := 0, page := .peer q.val }
    if again.any fun x => decide (8 ≤ x.replays) then s.retrain q else s

/-- FLIT_REPLAY_TIMEOUT (R440): flits of a key exchange are sent in KEY, and replayed there. -/
def execFlitReplayTimeout (port : Fin 4) (s : State) : Host.Outcome State Fault Refusal :=
  let r := (s.port port).run
  .next (if r == .active || r == .key then s.replay port else s)

/-- What a good flit carries back: acknowledgements, credits and NAK. -/
def State.flitBack (s : State) (q : Fin 4) (f : Flit) : State :=
  let p := s.port q
  let n := (f.ack - p.ack).toNat
  let known := decide (n ≤ p.buffer.length)
  let s := s.modPort q fun p => { p with
    ack := if known then f.ack else p.ack
    buffer := if known then p.buffer.drop n else p.buffer
    reqCredit := p.reqCredit + f.creditReq.toNat
    respCredit := p.respCredit + f.creditResp.toNat }
  if f.nak then s.replay q else s

/-- The packets of a payload that are for other devices cross to the port that the route gives, or to ALT where
marked odd (R444). DESIGN CHOICE: one for a device that cannot be reached goes nowhere. -/
def State.forward (s : State) (payload : VReg) : State :=
  (Config.packetsFor payload).foldl (fun s x =>
    let r := s.peer.routes.get x.1.toFin
    if x.1 = s.pins.peerId || !bit r 4 then s
    else (s.count (.peer 0) 6 1).send (if x.2 then fld r 2 2 else fld r 0 2 : BitVec 2).toFin
      (.forward payload x.1 x.2)) s

/-- FLIT_RECEIVE (R439, R440, R444, R472). A bad flit, or one out of sequence, is discarded and NAK is returned; idle
flits are not numbered. Every flit is answered by one at least. -/
def execFlitReceive (port : Fin 4) (flit : Flit) (s : State) : Host.Outcome State Fault Refusal :=
  let p := s.port port
  let live : Bool := (p.run == .active || p.run == .key || p.run == .ident) && !p.failed
  if !live then .next s
  else if flit.crc != crc64 (flitBytes flit) || !p.tagOk flit then
    .next (((s.count (.peer 0) 2 1).modPort port fun p => { p with nak := true }).answerFlit port)
  else if flit.type == 0 then .next (((s.count (.peer 0) 1 1).flitBack port flit).answerFlit port)
  else if flit.seq != p.rxGood + 1 then .next ((s.modPort port fun p => { p with nak := true }).answerFlit port)
  else
    let s := s.modPort port fun p => { p with rxGood := flit.seq, nak := false, got := p.got + 1 }
    let s := (s.count (.peer 0) 1 1).flitBack port flit
    let s := if flit.type = 1 then s.forward (p.plain flit) else s
    .next (s.answerFlit port)

/-! ### Time (R450 to R452) -/

/-- The port a device follows for time: its PEER_ROUTE to the master. -/
def State.timePort (s : State) : Option (Fin 4) :=
  let r := s.peer.routes.get s.peer.master.toFin
  if bit r 4 then some (fld r 0 2).toFin else none

/-- TIME_EXCHANGE (R450 to R452): offset and delay of the port. A device whose part of the domain is behind steps forward
once: one that newly follows a master whose time is ahead of its own, and any other to which devices have been joined,
where a neighbour's time is ahead; whether it is the device's part that is behind nothing that it knows says, so this is a
free value (DESIGN CHOICE). The port that leads to the master steers CHIP_TIME by its rate, whose correction within
±500 ppm is the firmware's, and sets LOCKED, which an offset beyond 50 ns ends (DEDUCED). -/
def execTimeExchange (port : Fin 4) (t1 t2 t3 t4 : DWord) (s : State) :
    Host.Outcome State Fault Refusal :=
  if (s.port port).run != .active || (s.port port).failed then .next s
  else
    let ofs : DWord := ((t2 - t1) - (t4 - t3)).sshiftRight 1
    let delay : DWord := ((t4 - t1) - (t3 - t2)).sshiftRight 1
    let s := (s.send port .time).modPort port fun p => { p with offset := ofs, delay := delay }
    let leads := s.timePort == some port
    let n := s.free
    let behind := (leads && s.peer.fresh) || (s.peer.joined && Config.freeBool n)
    let s := if behind && decide (0 < ofs.toInt) then
        (({ s with time := s.time + ofs }.modPeer fun p => { p with joined := false }).log
          { cls := 7, code := 3, page := .peer 0, info0 := ofs })
      else s
    let s := { s with free := n + 1 }
    if !leads then .next s
    else
      let far := ofs.toInt.natAbs
      let since : Option DWord := if 40 < far then none else s.peer.steady.or (some s.time)
      let locked := (s.peer.locked && decide (far ≤ 50)) || (match since with
        | some t => decide (10000000 ≤ (s.time - t).toNat)
        | none => false)
      let size : Int := (Config.freeBits 9 n).toNat % 501
      let rate : Int := if ofs.toInt < 0 then -size else size
      .next (s.modPeer fun p => { p with
        ofs := ofs.setWidth 32, steady := since, locked := locked, rate := rate, fresh := false })

/-- TIME_LOCK_LOST (R452): 10 ms without a path to the master. -/
def execTimeLockLost (s : State) : Host.Outcome State Fault Refusal :=
  .next (match s.peer.alone with
    | some t => if s.passed t 10000 then s.modPeer fun p => { p with locked := false, steady := none } else s
    | none => s)

/-! ### Peer queues (R445 to R448, R453) -/

/-- PEER_COMMIT (R453). -/
def execPeerCommit (w : Who) (s : State) : Host.Outcome State Fault Refusal :=
  .next (s.commitWrite w (.peer 0) .peer 0x070 1 fun s => s.startCheck (.peer 0) .peer)

/-- A peer queue. -/
def State.pq (s : State) (f : Func) : PeerQueue := Tab.get {} s.peer.queues f.val

/-- A peer queue changed. -/
def State.modPq (s : State) (f : Func) (g : PeerQueue → PeerQueue) : State :=
  s.modPeer fun p => { p with queues := Tab.mod {} p.queues f.val g }

/-- A write of PQ_CTRL: it holds the queue's commit register (R57). -/
def State.pqWrite (s : State) (w : Who) (f : Func) (data : Word) (go : State → State) : State :=
  s.commitWrite w (.peer 0) (.pq f) (0x210 + 32 * f.val) data go

/-- PQ_COMMIT (R453). -/
def execPqCommit (w : Who) (queue : Func) (s : State) : Host.Outcome State Fault Refusal :=
  .next (s.pqWrite w queue (b2v 32 (s.pq queue).run ||| 2) fun s => s.startCheck (.peer 0) (.pq queue))

/-- A queue that is stopped becomes IDLE once nothing is in flight. -/
def State.settlePqIdle (s : State) (f : Func) : State :=
  let q := s.pq f
  if q.state == .active && !q.run && q.flight.isEmpty then s.modPq f fun q => { q with state := .idle } else s

/-- RUN of a queue written (R445). -/
def State.pqRun (s : State) (f : Func) (run : Bool) : State :=
  (s.modPq f fun q => { q with
    run := run
    state := if run && q.committed && q.state == .idle then .active else q.state }).settlePqIdle f

/-- PQ_RUN (R445). -/
def execPqRun (w : Who) (queue : Func) (run : Bool) (s : State) : Host.Outcome State Fault Refusal :=
  .next (s.pqWrite w queue (b2v 32 run) fun s => s.pqRun queue run)

/-- RESTART of a queue (R447). -/
def State.pqRestart (s : State) (f : Func) : State :=
  (s.modPq f fun q => { q with state := if q.state == .error then .active else q.state }).settlePqIdle f

/-- PQ_RESTART (R447). -/
def execPqRestart (w : Who) (queue : Func) (s : State) : Host.Outcome State Fault Refusal :=
  .next (s.pqWrite w queue (b2v 32 (s.pq queue).run ||| 4) fun s => s.pqRestart queue)

/-- The fields of a peer descriptor (R446). -/
structure PeerDesc where
  op : Nat
  dev : BitVec 3
  tfunc : BitVec 4
  rsig : Bool
  rset : Bool
  lsig : Bool
  fence : Bool
  len : Nat
  laddr : DWord
  raddr : DWord
  robj : BitVec 13
  rval : DWord
  lobj : BitVec 13
  lval : DWord
  deriving DecidableEq, Repr

/-- A peer descriptor read from its bits (R446). -/
def peerDesc (d : BitVec 512) : PeerDesc where
  op := (fld d 0 2).toNat
  dev := fld d 2 3
  tfunc := fld d 5 4
  rsig := bit d 9
  rset := bit d 10
  lsig := bit d 11
  fence := bit d 12
  len := (fld d 0x20 32).toNat
  laddr := fld d 0x40 64
  raddr := fld d 0x80 64
  robj := fld d 0xC0 13
  rval := fld d 0x100 64
  lobj := fld d 0xE0 13
  lval := fld d 0x140 64

/-- Status 0x40 (R446, R448): RSV bits, OP 3, or alignment. -/
def badPeer (d : BitVec 512) : Bool :=
  let p := peerDesc d
  fld d 13 19 != 0 || fld d 0xCD 19 != 0 || fld d 0xED 19 != 0 || fld d 0x1A0 32 != 0 ||
    fld d 0x1E0 32 != 0 || p.op == 3 || p.len % 64 != 0 || p.laddr.toNat % 64 != 0 || p.raddr.toNat % 64 != 0

/-- A translated range: its pieces, refused, or held. -/
inductive Ranged where
  | ok (pieces : List (Nat × Nat))
  | refused
  | held
  deriving DecidableEq, Repr

/-- A range of a function's space translated, 64 KiB page by 64 KiB page. -/
def State.xlateRange (s : State) (f : Func) (dva : DWord) (len : Nat) (src : XlateSrc) (write : Bool) :
    Ranged × State :=
  let a := dva.toNat
  let pages := if len = 0 then [] else
    (List.range ((a + len - 1) / 65536 - a / 65536 + 1)).map fun i =>
      let lo := max a ((a / 65536 + i) * 65536)
      (lo, min (a + len) ((a / 65536 + i + 1) * 65536) - lo)
  pages.foldl (fun r p =>
    match r.1 with
    | .ok l =>
      match r.2.xlateShared f (BitVec.ofNat 64 p.1) src write 0 with
      | (.ok dpa, s) => (.ok (l ++ [(dpa, p.2)]), s)
      | (.refused _, s) => (.refused, s)
      | (.held _, s) => (.held, s)
    | _ => r) (Ranged.ok [], s)

/-- Some piece of a function's range waits (R409, R421, R533). -/
def State.anyHeld (s : State) (f : Func) (l : List (Nat × Nat)) : Bool := l.any fun p => s.hbmHeld f p.1 p.2

/-- Some line of the pieces lies in a recovering stack (R533). -/
def State.anyInRecovery (s : State) (l : List (Nat × Nat)) : Bool :=
  l.any fun p => (linePieces p.1 p.2).any fun q => s.recovering (s.stackOf q.1).1

/-- The bytes of the pieces, and whether one carries a mark; read at their channels. -/
def State.readPieces (s : State) (f : Func) (l : List (Nat × Nat)) : List Byte × Bool × State :=
  l.foldl (fun (r : List Byte × Bool × State) p =>
    let s := r.2.2
    (r.1 ++ s.hbmBytes p.1 p.2, r.2.1 || s.hbmAnyMark p.1 p.2,
      s.hbmRead f p.1 p.2)) ([], false, s)

/-- Bytes written to the pieces. -/
def State.writePieces (s : State) (f : Func) (l : List (Nat × Nat)) (bytes : List Byte) : State :=
  (l.foldl (fun (r : State × List Byte) p =>
    (r.1.hbmStore f p.1 (r.2.take p.2), r.2.drop p.2)) (s, bytes)).1

/-- The device virtual address of a queue's descriptor (R445). -/
def State.pqSlot (s : State) (f : Func) (i : Word) : DWord :=
  let base : DWord := ((s.live (.peer 0) (0x204 + 32 * f.val)).setWidth 64 <<< 32) |||
    (s.live (.peer 0) (0x200 + 32 * f.val)).setWidth 64
  let log2 := (fld (s.live (.peer 0) (0x208 + 32 * f.val)) 0 5).toNat
  base + BitVec.ofNat 64 (64 * (i.toNat % 2 ^ log2))

/-- KICK[31:0] of a queue: its producer object (R445). -/
def State.kick (s : State) (f : Func) : Word :=
  (s.obj (fld (s.live (.peer 0) (0x208 + 32 * f.val)) 5 13)).setWidth 32

/-- STATUS and DONE written in place (R446, R447). -/
def State.peerStatus (s : State) (f : Func) (i : Word) (status : Byte) : State :=
  s.dispWrite f (s.pqSlot f i + 0x38) (leBytes ((0x100 : Word) ||| status.setWidth 32) 4)

/-- The oldest descriptor in flight fails: its status is written and the queue enters ERROR (R447). -/
def State.pqFail (s : State) (f : Func) (status : Byte) : State :=
  match (s.pq f).flight with
  | [] => s
  | x :: rest =>
    let s := s.peerStatus f x.index status
    (s.modPq f fun q => { q with flight := rest, state := .error, errStat := status }).raise (.peer 0) 8

/-- Descriptors that are known to fail fail as they become the oldest. -/
def State.settlePq (s : State) (f : Func) : Nat → State
  | 0 => s.settlePqIdle f
  | n + 1 =>
    match (s.pq f).flight.head? with
    | some x => (match x.failed with
      | some b => (s.pqFail f b).settlePq f n
      | none => s.settlePqIdle f)
    | none => s.settlePqIdle f

/-- The port that a transfer of a queue leaves by (R444): PORT, or ALT for odd queues. -/
def State.pqPort (s : State) (f : Func) (d : BitVec 3) : Fin 4 :=
  let r := s.peer.routes.get d.toFin
  (if f.val % 2 = 0 then fld r 0 2 else fld r 2 2).toFin

/-- A request of a queue's descriptor, as it leaves (R444, R446). -/
def PeerDesc.packet (p : PeerDesc) (f : Func) (op : PacketOp) : Packet :=
  ⟨p.dev, bit (BitVec.ofNat 4 f.val) 0, p.tfunc.toFin, op⟩

/-- The signal of ROBJ (R446, R447). -/
def PeerDesc.signal (p : PeerDesc) : PacketOp := .signal p.robj p.rset p.rval

/-- The requests that a descriptor's start sends (R446, R447): its writes, whose bytes are split over packets, its read,
or with nothing before it its signal. DESIGN CHOICE: a packet carries up to 256 bytes, as its layout is not given. -/
def PeerDesc.requests (p : PeerDesc) (bytes : List Byte) : List PacketOp :=
  match p.op with
  | 0 => (List.range (max 1 ((bytes.length + 255) / 256))).map fun i =>
      .write (p.raddr + BitVec.ofNat 64 (256 * i)) ((bytes.drop (256 * i)).take 256)
  | 1 => [.read p.raddr p.len]
  | _ => if p.rsig then [p.signal] else []

/-- What a descriptor's start comes to: it is held with its local data, fails with a status, or goes (R448). -/
inductive PqStart where
  | held
  | fails (status : Byte) (s : State)
  | goes (sends : List PacketOp) (s : State)

/-- A descriptor's start (R446 to R448). -/
def State.pqStart (s : State) (f : Func) (d : BitVec 512) : PqStart :=
  let p := peerDesc d
  if badPeer d then .fails 0x40 s
  else
    let n := if p.op = 2 then 0 else p.len
    match s.xlateRange f p.laddr n .peer (p.op == 1) with
    | (.held, _) => .held
    | (.refused, s) => .fails 0x41 s
    | (.ok l, s) =>
      if s.anyHeld f l then .held
      else if !s.reachable p.dev then .fails 0x42 s
      else if p.op = 0 then
        let r := s.readPieces f l
        if r.2.1 then .fails 0x45 r.2.2 else .goes (p.requests r.1) r.2.2
      else .goes (p.requests []) s

/-- Requests of a queue's descriptor leave by a port (R444). -/
def State.sendRequests (s : State) (q : Fin 4) (f : Func) (p : PeerDesc) (ops : List PacketOp) : State :=
  ops.foldl (fun s op => s.send q (.request (p.packet f op))) s

/-- A fetch slot taken by a peer queue (R371, R372, R445). DESIGN CHOICE: which of a function's rings and its queue a
slot serves is the command's. -/
def State.pqSlotTaken (s : State) (f : Func) : State := (s.countRateWait none).takeSlot f

/-- PEER_DESC_FETCH (R371, R372, R445, R448): in a fetch slot, which takes the function's turn and for which eligible
rings wait, the dispatcher reads the descriptor at HEAD and starts its transfer. -/
def execPeerDescFetch (queue : Func) (s : State) : Host.Outcome State Fault Refusal :=
  let q := s.pq queue
  if !s.enabled .disp || s.board.svc.state == .failed || q.state != .active || !q.run || s.kick queue == q.head || 16 ≤ q.flight.length then .next s
  else
    match s.xlateRange queue (s.pqSlot queue q.head) 64 .dispatcher false with
    | (.held, _) => .next s
    | (.refused, t) =>
      let t := t.pqSlotTaken queue
      let t := t.modPq queue fun q => { q with head := q.head + 1, state := .error, errStat := 0x41 }
      .next (t.raise (.peer 0) 8)
    | (.ok l, t) =>
      if t.anyHeld queue l then .next s
      else
        let r := t.readPieces queue l
        let d : BitVec 512 := leVal 512 r.1
        if (peerDesc d).fence && !q.flight.isEmpty then .next s
        else
          let out := s.pqPort queue (peerDesc d).dev
          let takes (t : State) (failed : Option Byte) (sends : List PacketOp) : State :=
            (t.pqSlotTaken queue).modPq queue fun q => { q with
              head := q.head + 1, flight := q.flight ++ [⟨q.head, d, failed, s.time, sends, out, []⟩] }
          match (if r.2.1 then .fails 0x45 r.2.2 else r.2.2.pqStart queue d) with
          | .held => .next s
          | .fails b t => .next ((takes t (some b) []).settlePq queue 16)
          | .goes ops t => .next (((takes t none ops).sendRequests out queue (peerDesc d) ops).settlePq queue 16)

/-- Step 2 (R447): the signal of ROBJ follows a descriptor's writes, or the bytes of its read, on their path. -/
def State.pqSignal (s : State) (f : Func) (x : PeerXfer) : State :=
  let p := peerDesc x.desc
  if p.rsig && p.op != 2 then s.sendRequests x.port f p [p.signal] else s

/-- A descriptor completes: the signal at the target, status, then the local signal (R447). -/
def State.pqDone (s : State) (f : Func) (x : PeerXfer) : State :=
  let p := peerDesc x.desc
  let s := s.pqSignal f x
  let s := (s.peerStatus f x.index 0).modPq f fun q => { q with flight := q.flight.drop 1 }
  if p.lsig then s.sendSync ⟨.peer, f, p.lobj, .add p.lval⟩ else s

/-- The room that an answer took is granted to the neighbour again (R439). -/
def State.grantResponse (s : State) (q : Fin 4) (a : PeerAnswer) : State :=
  let n := match a with
    | .done data _ => creditUnits data.length
    | _ => 1
  s.modPort q fun p => { p with owedResp := p.owedResp + n }

/-- The requests of a descriptor that have been answered RETRY: which of them the answer does not say, so it is free;
at least one is. DESIGN CHOICE. -/
def State.retriedOf (s : State) (x : PeerXfer) : List PacketOp :=
  let l := (x.sends.zipIdx.filter fun e => Config.freeBool (s.free + e.2)).map (·.1)
  if l.isEmpty then x.sends else l

/-- PEER_DESC_COMPLETE (R447 to R449, R472): the answer for the queue's oldest descriptor in flight, which a port whose
exchange has failed discards. A RETRY counts for the time-out, and what it answers waits to be sent again; an object
that the target refuses has been signalled (R386, R448). -/
def execPeerDescComplete (queue : Func) (answer : PeerAnswer) (s : State) :
    Host.Outcome State Fault Refusal :=
  match (s.pq queue).flight with
  | [] => .next s
  | x :: _ =>
    let p := peerDesc x.desc
    if (s.port x.port).failed then .next s else
    let s := s.grantResponse x.port answer
    match answer with
    | .retry =>
      let again (y : PeerXfer) : PeerXfer := { y with since := s.time, again := s.retriedOf x }
      .next { s.modPq queue fun q => { q with flight := (q.flight.take 1).map again ++ q.flight.drop 1 } with
        free := s.free + x.sends.length }
    | .refused b =>
      let s := if b = 0x47 then s.pqSignal queue x else s
      .next ((s.pqFail queue b).settlePq queue 16)
    | .done data marked =>
      if p.op != 1 then .next ((s.pqDone queue x).settlePq queue 16)
      else if marked then .next ((s.pqFail queue 0x45).settlePq queue 16)
      else
        match s.xlateRange queue p.laddr p.len .peer true with
        | (.held, _) => .next s
        | (.refused, t) => .next ((t.pqFail queue 0x41).settlePq queue 16)
        | (.ok l, t) =>
          if t.anyHeld queue l then .next s
          else .next (((t.writePieces queue l (data.take p.len)).pqDone queue x).settlePq queue 16)

/-- The transfers in flight that `p` picks fail 0x46 as they become their queue's oldest (R448). -/
def State.failXfers (s : State) (f : Func) (p : PeerXfer → Bool) : State :=
  let late (x : PeerXfer) : PeerXfer := if x.failed.isNone && p x then { x with failed := some 0x46 } else x
  (s.modPq f fun q => { q with flight := q.flight.map late }).settlePq f 16

/-- The bound on a transfer's answer has passed (R448, R453). -/
def State.xferLate (s : State) (x : PeerXfer) : Bool :=
  s.passed x.since (fld (s.live (.peer 0) 0x06C) 0 24).toNat

/-- PEER_XFER_TIMEOUT (R448): transfers without an answer for so long fail. -/
def execPeerXferTimeout (queue : Func) (s : State) : Host.Outcome State Fault Refusal :=
  .next (if (s.pq queue).flight.any s.xferLate then s.failXfers queue s.xferLate else s)

/-- What was answered RETRY at least 100 µs ago is sent again, by the port that its route gives now (R444, R449). -/
def State.resendPeers (s : State) (f : Func) : State :=
  let due (x : PeerXfer) : Bool := !x.again.isEmpty && s.passed x.since 100
  let out (x : PeerXfer) : Fin 4 := s.pqPort f (peerDesc x.desc).dev
  let l := (s.pq f).flight
  if !l.any due then s
  else
    (l.filter due).foldl (fun s x => s.sendRequests (out x) f (peerDesc x.desc) x.again)
      (s.modPq f fun q => { q with flight := l.map fun x => if due x then { x with again := [], port := out x } else x })

/-- RETRY_RESEND (R449, R533): a request of a core that was answered RETRY goes again, and those of the peer queues whose
time has come. -/
def execRetryResend (core : LCore) (s : State) : Host.Outcome State Fault Refusal :=
  .next ((List.finRange 16).foldl State.resendPeers (s.resend core))

/-- The transfers that have left by a port fail (R448). -/
def State.failPort (s : State) (port : Fin 4) : State :=
  (List.finRange 16).foldl (fun s f =>
    let leaves (x : PeerXfer) : Bool := x.port == port
    if (s.pq f).flight.any fun x => x.failed.isNone && leaves x then s.failXfers f leaves else s) s

/-- PEER_LINK_SILENCE (R441, R448). -/
def execPeerLinkSilence (port : Fin 4) (s : State) : Host.Outcome State Fault Refusal :=
  .next (match (s.port port).run with
    | .disabled | .down => s
    | _ => (s.failPort port).portDown port)

/-- A function's queue under its reset (R454): what is in flight completes 0x46, and the queue is IDLE. -/
def State.pqReset (s : State) (f : Func) : State :=
  let s := (s.pq f).flight.foldl (fun s x => s.peerStatus f x.index 0x46) s
  s.modPq f fun _ => {}

/-! ### Requests of peers (R401, R447 to R449) -/

/-- An answer as it travels: data in packets of up to 256 bytes each (R439). DESIGN CHOICE, as for a request's. -/
def PeerReply.packets (r : PeerReply) : List PeerReply :=
  match r with
  | .data bytes marked => (List.range (max 1 ((bytes.length + 255) / 256))).map fun i =>
      .data ((bytes.drop (256 * i)).take 256) marked
  | _ => [r]

/-- The answer that a request of a peer receives: it leaves by the port that the request came by. -/
def State.peerAnswer (s : State) (q : Fin 4) (r : PeerReply) : State :=
  r.packets.foldl (fun s x => s.send q (.response x)) (s.modPeer fun p => { p with reply := r })

/-- The units of credit that a request took. -/
def peerUnits (op : PeerOp) : Nat :=
  match op with
  | .write _ data => creditUnits data.length
  | _ => 1

/-- The room that a request took is granted to the neighbour again (R439). -/
def State.grantRequest (s : State) (q : Fin 4) (op : PeerOp) : State :=
  s.modPort q fun p => { p with owedReq := p.owedReq + peerUnits op }

/-- PEER_REQUEST (R401, R447, R449, R453): checked against PEER_ACCEPT and translation, then performed. One whose data
lies in a recovering stack is answered RETRY; one whose walk is held, or whose turn at its channel has not come, waits
(R400, R409, R421, R533). -/
def execPeerRequest (port : Fin 4) (tfunc : Func) (op : PeerOp) (s : State) :
    Host.Outcome State Fault Refusal :=
  if (s.port port).run != .active || (s.port port).failed then .next s
  else if s.board.svc.state == .failed || !bit (s.live (.peer 0) 0x064) tfunc.val then
    .next ((s.grantRequest port op).peerAnswer port (.refused 0x43))
  else
    match op with
    | .write dva data =>
      (match s.xlateRange tfunc dva data.length .peer true with
      | (.held, _) => .next s
      | (.refused, t) => .next ((t.grantRequest port op).peerAnswer port (.refused 0x44))
      | (.ok l, t) =>
        if t.anyInRecovery l then .next ((t.grantRequest port op).peerAnswer port .retry)
        else if t.anyHeld tfunc l then .next s
        else .next (((t.grantRequest port op).writePieces tfunc l data).peerAnswer port .written))
    | .read dva len =>
      (match s.xlateRange tfunc dva len.toNat .peer false with
      | (.held, _) => .next s
      | (.refused, t) => .next ((t.grantRequest port op).peerAnswer port (.refused 0x44))
      | (.ok l, t) =>
        if t.anyInRecovery l then .next ((t.grantRequest port op).peerAnswer port .retry)
        else if t.anyHeld tfunc l then .next s
        else
          let r := (t.grantRequest port op).readPieces tfunc l
          .next (r.2.2.peerAnswer port (.data r.1 r.2.1)))
    | .signal obj set value =>
      let s := (s.grantRequest port op).sendSync ⟨.peer, tfunc, obj, if set then .set value else .add value⟩
      .next (s.peerAnswer port (if s.syncOwner obj = some tfunc then .written else .refused 0x47))

end Sys2Proof.Machine
end

