-- ==== Sys2Proof/Machine/HostLink.lean ====
section
/-! DEFINITION. Configuration requests, MSI-X, function-level resets, and the loss and return of the host
(R422, R428 to R437). -/

namespace Sys2Proof.Machine

/-- The endpoint changed. -/
def State.modHost (s : State) (f : Endpoint → Endpoint) : State := { s with host := f s.host }

/-- A bit per function, set to `b`. -/
def setFn (x : BitVec 16) (f : Func) (b : Bool) : BitVec 16 := setBit x f.val b

/-! ### MSI-X and configuration (R422, R429, R430) -/

/-- The pending vectors of a function that are not masked are sent (R429). -/
def State.sendPending (s : State) (f : Func) : State :=
  (List.range 64).foldl (fun s v =>
    if Tab.get false s.host.pba (vecKey f v) && Tab.get false s.host.unmask (vecKey f v) &&
        fnBit s.host.msixEn f && !fnBit s.host.maskAll f && !s.host.lost then s.sendVec f v
    else s) s

/-- MSIX_UNMASK (R429): the vector's mask is cleared, and a pending message is sent. -/
def execMsixUnmask (fn : Func) (vec : BitVec 6) (s : State) : Host.Outcome State Fault Refusal :=
  .next (if s.bar4Open fn then
    (s.modHost fun h => { h with unmask := Tab.set false h.unmask (vecKey fn vec.toNat) true }).sendPending fn
  else s)

/-- log2 of the size of a BAR (R403, R424). -/
def Endpoint.barLog (h : Endpoint) (f : Func) (vf : Bool) (bar : Fin 3) : Nat :=
  match bar with
  | 0 => if vf then 20 else 25
  | 1 => 30 + (h.bar2Log.get (if vf then 1 else f)).toNat
  | 2 => if vf then 14 else 17

/-- The answer to DOE Discovery (R422): the vendor, the protocol at the index, and the next index. The codes are PCI
Express's (PRESUMED): discovery 0, CMA/SPDM 1, Secured CMA/SPDM 2. -/
def doeEntry (index : Byte) : Word :=
  let next := if index.toNat = 2 then 0 else index.toNat + 1
  if index.toNat ≤ 2 then BitVec.ofNat 32 (1 + 2 ^ 16 * index.toNat + 2 ^ 24 * next) else 0xFFFF

/-- A configuration request carried out (R422, R427, R429, R432). NumVFs is written while VF Enable is 0, up
to TotalVFs; both belong to PF0, as do the base addresses of the VFs, Max Payload Size and the DOE mailbox. The low
bits of a base address, below the BAR's size, read 0. -/
def State.config (s : State) (f : Func) (r : CfgReq) : State :=
  match r with
  | .numVfs n =>
    if f = 0 ∧ !s.host.vfEnable ∧ n.toNat ≤ 15 then s.modHost fun h => { h with numVfs := n } else s
  | .vfEnable on => if f = 0 then s.modHost fun h => { h with vfEnable := on } else s
  | .msixControl en mask =>
    (s.modHost fun h => { h with msixEn := setFn h.msixEn f en, maskAll := setFn h.maskAll f mask }).sendPending f
  | .bar2Size k =>
    if k.toNat ≤ 7 then
      s.modHost fun h => { h with bar2Log := h.bar2Log.set f.val (k.setWidth 3) f.isLt }
    else s
  | .power d3 => s.modHost fun h => { h with d3hot := setFn h.d3hot f d3 }
  | .bar k vf base =>
    if f = 0 then
      s.modHost fun h => { h with bars := Tab.set 0 h.bars (barKey vf k) ((base >>> h.barLog f vf k) <<< h.barLog f vf k) }
    else s
  | .maxPayload k => if f = 0 ∧ k.toNat ≤ 2 then s.modHost fun h => { h with mps := k } else s
  | .errorReporting c n x => s.modHost fun h => { h with
      aer := Tab.mod {} h.aer f.val fun a => { a with report := #v[c, n, x] } }
  | .aerClear u c => s.modHost fun h => { h with
      aer := Tab.mod {} h.aer f.val fun a => { a with uncorr := a.uncorr &&& ~~~u, corr := a.corr &&& ~~~c } }
  | .aerMask u v c => s.modHost fun h => { h with
      aer := Tab.mod {} h.aer f.val fun a => { a with uncorrMask := u, severity := v, corrMask := c } }
  | .doeDiscovery i => if f = 0 then s.modHost fun h => { h with rdata := (doeEntry i).setWidth 64 } else s
  | .other => s

/-- A link that has trained: its speed and width are what the two sides reach (R422). -/
def State.linkUp (s : State) : State :=
  let x := (Config.freeWord s.free).toNat
  { s.modHost fun h => { h with
      dlUp := true, speed := BitVec.ofNat 3 (1 + x % 5), width := BitVec.ofNat 5 (2 ^ (x / 5 % 5)) } with
    free := s.free + 1 }

/-- The link is up, having trained since the reset (R430). DESIGN CHOICE: the table has no row for DL_Up, so the link
shows it from the first command that needs it. -/
def State.trained (s : State) : State := if s.host.dlUp then s else s.linkUp

/-- CONFIG_REQUEST (R430): before configuration-ready it is answered with retry status over the link that has
trained; a request to a function that is not enabled has no effect. -/
def execConfigRequest (fn : Func) (req : CfgReq) (s : State) : Host.Outcome State Fault Refusal :=
  if s.host.lost || !s.pins.perstN || !s.awake then .next s
  else if !s.host.cfgReady then
    .next ((s.trained.modHost fun h => { h with sent := .crs :: h.sent }).count .pcie 4 1)
  else .next (if s.fnEnabled fn then s.config fn req else s)

/-- CONFIG_READY (R430): with the link up, the Device Readiness Status message is sent. -/
def execConfigReady (s : State) : Host.Outcome State Fault Refusal :=
  if s.host.cfgReady || !s.pins.perstN || !s.awake then .next s
  else .next (s.trained.modHost fun h => { h with cfgReady := true, sent := .drs :: h.sent })

/-! ### Function-level reset (R432, R433) -/

/-- The rings of a function that hold anything. -/
def State.ringsOf (s : State) (f : Func) : List Nat :=
  s.rings.filterMap fun e => if ringFn e.1 == f then some e.1 else none

/-- The read of a descriptor that a function-level reset retires does not wait at its channel (R432). -/
def State.readDescNow (s : State) (r : Nat) (i : Word) : DescRead :=
  match { s with hbm := { s.hbm with queue := [] } }.readDesc r i with
  | .ok d t => .ok d { t with hbm := { t.hbm with queue := s.hbm.queue } }
  | .bad t => .bad { t with hbm := { t.hbm with queue := s.hbm.queue } }
  | .held => .held

/-- The descriptors between HEAD and TAIL of a ring retired CANCELLED, with a record where the completion
ring has room and the descriptor can be read (R432 step 2). -/
def State.cancelRing (s : State) (r : Nat) : Nat → State
  | 0 => s
  | n + 1 =>
    let x := s.ring r
    if x.occupancy = 0 then s
    else
      let s := match s.readDescNow r x.head with
        | .ok d s =>
          if x.room then
            (s.modRing r fun y => { y with reserved := y.reserved + 1 }).retireJob r d 0x02 none 0 0 true
          else s
        | .bad s => s
        | .held => s
      State.cancelRing (s.takeHead r) r n

/-- A job held for a recovery's end retires CANCELLED; a replay counts it as unresolved. -/
def State.cancelHeld (s : State) (p : Part) (h : HeldJob) (suspect : Bool) : State :=
  let j := { h.job with cancel := true }
  let s := s.abortHeld p { h with job := j }
  if suspect && (s.part p).replayCore.isSome then s.verdict p j .unresolved else s

/-- Every job of the function not on a core retires CANCELLED (R432 step 2). -/
def State.cancelJobs (s : State) (f : Func) : State :=
  let mine (j : Job) : Bool := ringFn j.ring.toNat == f
  let s := (s.dropReads fun x => ringFn x.ring.toNat == f).retireReturned mine true
  let held := s.disp.track.filterMap fun e => match e.2 with
    | some j => if mine j then some e.1 else none
    | none => none
  let s := held.foldl (fun s e => s.retireTracked e 0x02 true) s
  let s := (List.finRange 32).foldl (fun s n =>
    (s.disp.jobs.get n).foldl (fun s j =>
      if mine j.job && j.ctx.isNone then s.retireCore n { j with cancel := true } 0x02 0 else s)
      (s.modJobs n fun l => l.map fun j => if mine j.job then { j with cancel := true } else j)) s
  let s := (List.finRange 4).foldl (fun s p =>
    let x := s.part p
    let s := s.modPart p fun y => { y with
      suspects := y.suspects.filter fun h => !mine h.job.job
      bystanders := y.bystanders.filter fun h => !mine h.job.job }
    let s := (x.suspects.filter fun h => mine h.job.job).foldl (fun s h => s.cancelHeld p h true) s
    (x.bystanders.filter fun h => mine h.job.job).foldl (fun s h => s.cancelHeld p h false) s) s
  (s.ringsOf f).foldl (fun s r =>
    let n := s.ring r
    (s.modRing r fun y => { y with cancelTo := none }).cancelRing r n.occupancy) s

/-- STOP for every context that runs a job of the function; its DMA channels are disabled, and its matrix
jobs and stripes that have not begun are cancelled (R432 step 3). -/
def State.stopFn (s : State) (f : Func) : State :=
  (List.finRange 32).foldl (fun s n =>
    let t := s.tileOf n
    let s := (s.disp.jobs.get n).foldl (fun s j =>
      match j.ctx with
      | some c => if ringFn j.job.ring.toNat == f then s.requestStop t c else s
      | none => s) s
    let s := (List.finRange 8).foldl (fun s c =>
      if ((s.core t).ch c).run != .idle && ((s.core t).ch c).func == f then s.dmaDisable t n c else s) s
    let s := s.modMtx t fun x => { x with queue := x.queue.map fun j =>
      if j.func = f ∧ j.stage = .queued then { j with stage := .finished, status := 1 } else j }
    s.modStr t fun k => { k with queue := k.queue.map fun q =>
      if q.func = f ∧ q.stage = .waiting then { q with stage := .cancelled, status := 1 } else q }) s

/-- A function-level reset begins (R432, R454). -/
def State.flrStart (s : State) (f : Func) : State :=
  if fnBit s.host.flr f then s
  else
    let s := s.modHost fun h => { h with flr := setFn h.flr f true }
    ((s.cancelJobs f).stopFn f).pqReset f

/-- A reset of PF0 begins: VF Enable is cleared, and all 16 functions are reset at once (R433). -/
def State.pf0Flr (s : State) : State :=
  (List.finRange 16).foldl State.flrStart (s.modHost fun h => { h with vfEnable := false })

/-- FLR (R432). -/
def execFlr (fn : Func) (s : State) : Host.Outcome State Fault Refusal :=
  .next (if !s.fnEnabled fn || s.host.lost then s
    else if fn = 0 then s.pf0Flr
    else s.flrStart fn)

/-- PF0_FLR (R433). -/
def execPf0Flr (s : State) : Host.Outcome State Fault Refusal :=
  .next (if !s.fnEnabled 0 || s.host.lost then s else s.pf0Flr)

/-- A job of the function is outstanding on a core. -/
def State.jobsOf (s : State) (f : Func) : Bool :=
  (List.finRange 32).any fun n => (s.disp.jobs.get n).any fun j => ringFn j.job.ring.toNat == f

/-- The synchronisation block forgets a function: its objects are 0, and its waits, gates and operations on
their way are dropped (R388). -/
def State.syncReset (s : State) (f : Func) : State :=
  let mine (o : BitVec 13) : Bool := s.syncOwner o == some f
  s.modSync fun b => { b with
    objs := b.objs.filter fun e => !mine (BitVec.ofNat 13 e.1)
    slots := b.slots.filter fun e => match e.2 with
      | some w => !mine w.obj
      | none => true
    queue := b.queue.filter fun r => !mine r.obj }

/-- The pages that a function owns (R66, R432): its ring pages, and for PF0 every page that it sets up, DAT's with them.
DESIGN CHOICE: those are the pages of the map but for the rings, the objects, and those whose BLK_CTRL is read-only or
system firmware's. -/
def ownsPage (f : Func) (c : PageClass) : Bool :=
  match c with
  | .ring k => decide (k / 64 = f.val)
  | .syncObj _ => false
  | c => f == 0 && !roCtrl c && !fwOnlyCtrl c

/-- The lock and write-once state of a function's pages falls (R66). -/
def State.unlock (s : State) (f : Func) : State :=
  { s with pages := Tab.mapVals {} (fun P p => match pageClass P with
      | some c => if ownsPage f c then { p with lock := false, written := [] } else p
      | none => p) s.pages }

/-- The configuration of a function at its reset values (R432 step 6, R436). -/
def Endpoint.resetFn (h : Endpoint) (f : Func) : Endpoint :=
  { h with
    numVfs := if f = 0 then 0 else h.numVfs
    vfEnable := if f = 0 then false else h.vfEnable
    d3hot := setFn h.d3hot f false
    bars := if f = 0 then [] else h.bars
    mps := if f = 0 then 0 else h.mps
    aer := Tab.set {} h.aer f.val {}
    msixEn := setFn h.msixEn f false
    maskAll := setFn h.maskAll f false
    bar2Log := h.bar2Log.set f.val 4 f.isLt
    unmask := Tab.clearRange h.unmask (64 * f.val) 64
    msixTable := Tab.clearRange h.msixTable (256 * f.val) 256
    pba := Tab.clearRange h.pba (64 * f.val) 64 }

/-- The conditions of a function's vectors evaluated again. -/
def State.evalFn (s : State) (f : Func) : State :=
  (List.range 64).foldl (fun s v => s.evalVec f v false) s

/-- FLR_DONE (R432 steps 4 to 6, R436, R437): the reset ends once no job of the function runs. -/
def execFlrDone (fn : Func) (s : State) : Host.Outcome State Fault Refusal :=
  if !fnBit s.host.flr fn || s.jobsOf fn then .next s
  else
    let s := s.syncReset fn
    let s := { s with rings := Tab.clearRange s.rings (1024 * fn.val) 1024 }
    let s := s.modDisp (·.dropLate fun r => ringFn r == fn)
    let s := (s.unlock fn).modHost fun h => { h.resetFn fn with
      flr := setFn h.flr fn false, needFlr := setFn h.needFlr fn false }
    .next ((s.evalFn fn).raise .pcie 4)

/-! ### The host lost and returned (R434 to R436) -/

/-- HOST_LOST (R434, R435): system firmware reports the loss on the management network. -/
def execHostLost (s : State) : Host.Outcome State Fault Refusal :=
  if s.host.lost || !s.host.dlUp then .next s
  else
    let s := s.modHost fun h => { h with lost := true, dlUp := false, speed := 0, width := 0 }
    let s := { s with mgmt := { s.mgmt with lossReports := s.time :: s.mgmt.lossReports } }
    .next ((s.count .pcie 2 1).trace 0x08 0 0 1 0)

/-- HOST_RETURN (R436). -/
def execHostReturn (s : State) : Host.Outcome State Fault Refusal :=
  if !s.host.lost then .next s
  else
    let s := s.linkUp.modHost fun h =>
      let h := (List.finRange 16).foldl Endpoint.resetFn h
      { h with lost := false, returned := true, needFlr := BitVec.allOnes 16 }
    .next (s.trace 0x08 0 0 0 0)

end Sys2Proof.Machine
end

