-- ==== Sys2Proof/Machine/Recover.lean ====
section
/-! DEFINITION. Castling, check timers and engine watches, declarations, partition recovery, and the log's
flush and acknowledgement (R28 to R31, R523, R524, R526 to R545). -/

namespace Sys2Proof.Machine

/-! ### Castling (R29, R30, R540 to R542) -/

/-- Every entry of a core's store buffer drained. -/
def Core.drainAll (k : Core) : Nat → Core
  | 0 => k
  | n + 1 => if k.sb.isEmpty then k else k.drain.drainAll n

/-- The engines of a core stand at a boundary: no matrix feed is under way, and no DMA request waits for its
acknowledgement (R352, R540 step 2). -/
def Core.engineBoundary (k : Core) : Bool :=
  (k.mtx.queue.all fun j => j.stage != .feeding) && (List.finRange 8).all fun c => (k.ch c).outs.isEmpty

/-- Where the core of a spare moves to. -/
def State.castleTo (s : State) (i : Fin 2) : Tile :=
  let p := s.board.spares.get i
  if p.back then ⟨p.lcore.val, by omega⟩ else spareTile i

/-- A castling step reached (R525). -/
def State.traceCastle (s : State) (n : LCore) (k : Nat) : State :=
  s.trace 0x03 0 0 (BitVec.ofNat 64 n.val) (BitVec.ofNat 64 k)

/-- CASTLING_COPY (R540 step 3): once the engines stand at a boundary, the store buffer is drained and the
state copied. -/
def execCastlingCopy (spare : Fin 2) (s : State) : Host.Outcome State Fault Refusal :=
  let p := s.board.spares.get spare
  let t := s.tileOf p.lcore
  if p.state != .copying || p.step != 2 || !(s.core t).engineBoundary then .next s
  else
    let s := s.modCore t fun k => k.drainAll k.sb.length
    let s := (s.copyCore t (s.castleTo spare)).modSpare spare fun q => { q with step := 3 }
    .next (s.traceCastle p.lcore 3)

/-- A spare that serves no core any more (R28, R29): FAILED where an island of its tile is out, TESTING while it owes a
BIST run, else IDLE. -/
def State.freeSpare (s : State) (i : Fin 2) : State :=
  let free := s.tileWhole (spareTile i)
  s.modSpare i fun q =>
    { state := if !free then .failed else if q.retest then .testing else .idle, retest := free && q.retest }

/-- CORE_MAP and the castle table show core `n` on its new tile, and the spare its new state; a spare that another
replaces serves it no more (R28, R29, R541). -/
def State.mapCastling (s : State) (n : LCore) (i : Fin 2) (back : Bool) : State :=
  let s := (List.finRange 2).foldl (fun s j =>
    let q := s.board.spares.get j
    if j != i && q.state == .castled && q.lcore == n then
      (s.freeSpare j).modBoard fun x => { x with castle := x.castle.set j.val none j.isLt }
    else s) s
  let b : Tile := if back then ⟨n.val, by omega⟩ else spareTile i
  let m := !s.tileMatrixOk b
  let s := s.updateMap n fun e => { e with tile := b, castled := !back, mtxOut := m }
  let s := s.modBoard fun x => { x with castle := x.castle.set i.val (if back then none else some n) i.isLt }
  if back then s.freeSpare i
  else s.modSpare i fun q => { q with state := .castled, lcore := n, step := 0, back := false }

/-- A core whose tile has failed islands is seen to again once it has moved. -/
def State.recheckCore (s : State) (n : LCore) : State :=
  let t := s.tileOf n
  match (List.range 8).find? fun k => !s.islandOk (8 * t.val + k) with
  | some k => if (s.board.map.get n).out then s else s.failTile n k
  | none => s

/-- A castling completed (R540 step 4). -/
def State.finishCastling (s : State) (i : Fin 2) : State :=
  let p := s.board.spares.get i
  let n := p.lcore
  let a := s.tileOf n
  let b := s.castleTo i
  let s := s.moveCore n a b
  let s := ((s.modSpare i fun q => { q with step := 0, state := .castled }).mapCastling n i p.back).traceCastle n 4
  let cause : Byte := if p.back then 0x07 else 0x06
  let s := (s.log { cls := 7, code := cause, page := .chip, info0 := BitVec.ofNat 64 n.val }).evalService
    cause false
  let s := ((s.reselect b).startJobs n).recheckCore n
  if p.back then s.castleLater.pumpFiring else s.pumpFiring

/-- CASTLING_COMPLETE (R540). -/
def execCastlingComplete (spare : Fin 2) (s : State) : Host.Outcome State Fault Refusal :=
  let p := s.board.spares.get spare
  .next (if p.state == .copying && p.step == 3 then s.finishCastling spare else s)

/-- CASTLING_COPY_TIMEOUT (R542): the castling is abandoned and cause 0x05 declared; step 4 of that recovery
castles without a copy. -/
def execCastlingCopyTimeout (spare : Fin 2) (s : State) : Host.Outcome State Fault Refusal :=
  let p := s.board.spares.get spare
  if p.state != .copying || p.step != 2 then .next s
  else
    let n := p.lcore
    let s := (s.abandonCastling spare).declare (partOf n) 0x05 (some n) 0 0
    .next (s.modPart (partOf n) fun x =>
      if p.back then { x with back := x.back ++ [n] } else { x with castle := x.castle ++ [n] })

/-! ### Check timers, engine watches and declarations (R526 to R529, R538) -/

/-- A request of a context is held at its router by the pause of the core it is for (R30). -/
def State.heldByPause (s : State) (n : LCore) (c : CtxId) : Bool :=
  s.board.mesh.any fun r => r.src == n && r.agent == .ctx c && s.frozen (s.tileOf r.dst)

/-- The mesh request that a context waits for. -/
def Ctx.waitsFor (x : Ctx) (r : MeshReq) : Bool :=
  match x.wait, r.body with
  | .load id, .read i .. => i == id
  | .remoteTag op .., .tagged o .. => o == op
  | .credit op, .credit o .. => o == op
  | _, _ => false

/-- A request to a memory channel is one that the context waits for, to a stack that recovers (R533). -/
def State.hbmRetried (s : State) (n : LCore) (c : CtxId) (r : HbmReq) : Bool :=
  match r.agent, (s.ctx (s.tileOf n) c).wait with
  | .load m d id _, .load i => m == n && d == c && id == i && s.recovering r.part
  | _, _ => false

/-- The context is BLOCKED on a request that was answered RETRY (R526, R533). -/
def State.blockedRetried (s : State) (n : LCore) (c : CtxId) : Bool :=
  let x := s.ctx (s.tileOf n) c
  x.run == .blocked && ((s.board.retried.any fun r => r.src == n && r.agent == .ctx c && x.waitsFor r) ||
    s.hbm.queue.any (s.hbmRetried n c))

/-- The context is in one of the states in which its check timer does not advance (R30, R526): its own core or the
core that it sends to is paused, its wait has a bound of its own, or the request it waits for was answered RETRY. -/
def State.timerHeld (s : State) (n : LCore) (c : CtxId) : Bool :=
  let x := s.ctx (s.tileOf n) c
  s.frozen (s.tileOf n) || s.heldByPause n c ||
    (x.run == .blocked && (x.block == 3 || x.block == 4 || x.block == 6)) || s.blockedRetried n c

/-- The deadline of a job has passed. -/
def State.late (s : State) (j : Job) : Bool :=
  let d := ringDesc j.desc
  d.dlen && decide (d.deadline.toNat < s.time.toNat)

/-- PART_CHK of a core's partition, in ns (R526, R544). -/
def State.chkLimit (s : State) (n : LCore) : Nat := 10 ^ 6 * (fld (s.live (.part (partOf n).val) 0x048) 0 14).toNat

/-- The check timer of a context (R526). -/
def State.chkTimer (s : State) (n : LCore) (c : CtxId) : Nat := (s.core (s.tileOf n)).timers.chk.get c

/-- CHECK_TIMER (R526, R528): the timer of a context that holds a job fires, for its deadline or for lack of
progress. System firmware asks the context to stop, or resets it where it is HALTED. -/
def execCheckTimer (core : LCore) (ctx : CtxId) (s : State) : Host.Outcome State Fault Refusal :=
  let t := s.tileOf core
  match s.jobOn core ctx with
  | none => .next s
  | some j =>
    let late := s.late j.job
    let due := late || (!s.timerHeld core ctx && decide (s.chkLimit core ≤ s.chkTimer core ctx))
    if (s.ctx t ctx).chk.isSome || s.recovering (partOf core) || !due then .next s
    else
      let c := PageClass.part (partOf core).val
      let s := (s.count c 1 1).raise c 8
      if (s.ctx t ctx).run == .halted then .next (s.ctxReset t ctx)
      else
        let s := s.modCtx t ctx fun x => { x with chk := some (if late then .deadline else .progress) }
        .next (s.requestStop t ctx)

/-- An engine holds work that it is not legitimately waiting with (R527): 1 the matrix array, 2 the stripe
engine, 3 the DMA engine. -/
def Core.engineWorks (k : Core) (e : BitVec 2) : Bool :=
  if e = 1 then k.mtx.queue.any fun j => j.stage != .queued || !(mtxDesc j.desc).asrc
  else if e = 2 then k.str.queue.any fun q => q.stage == .active || q.stage == .failed
  else if e = 3 then (List.finRange 8).any fun c =>
    (k.ch c).run == .ready || (k.ch c).run == .active || (k.ch c).run == .draining
  else false

/-- An engine holds work, waiting or not. -/
def Core.engineHolds (k : Core) (e : BitVec 2) : Bool :=
  if e = 1 then !k.mtx.queue.isEmpty
  else if e = 2 then !k.str.queue.isEmpty
  else if e = 3 then (List.finRange 8).any fun c => (k.ch c).run != .idle && (k.ch c).run != .error
  else false

/-- A request of a core's DMA engine was answered RETRY (R527, R533): by another core, or by a stack that recovers. -/
def State.dmaRetried (s : State) (n : LCore) : Bool :=
  (s.board.retried.any fun r => r.src == n && (match r.agent with
    | .dma _ => true
    | .ctx _ => false)) ||
  s.hbm.queue.any fun r => s.recovering r.part && (match r.agent with
    | .dmaRead m .. | .dmaWrite m .. => m == n
    | _ => false)

/-- The watch of an engine does not count (R527, R533): its core is paused, its partition recovers, or a request of its
DMA engine was answered RETRY. -/
def State.engineHeld (s : State) (n : LCore) (e : BitVec 2) : Bool :=
  s.frozen (s.tileOf n) || s.recovering (partOf n) || (e == 3 && s.dmaRetried n)

/-- The watch of an engine (R527). -/
def Core.engTimer (k : Core) (e : BitVec 2) : Nat := listAt 0 k.timers.eng.toList (e.toNat - 1)

/-- An engine stalls (R527): it holds work that nothing holds up, and has not moved for PART_CHK.MS. -/
def State.stalls (s : State) (n : LCore) (e : BitVec 2) : Bool :=
  (s.core (s.tileOf n)).engineWorks e && !s.engineHeld n e && decide (s.chkLimit n ≤ (s.core (s.tileOf n)).engTimer e)

/-- The timers of a core after `d` ns (R526, R527). -/
def State.timersAfter (s : State) (n : LCore) (d : Nat) : Timers :=
  let k := s.core (s.tileOf n)
  { chk := Vector.ofFn fun c =>
      if (s.jobOn n c).isNone || s.recovering (partOf n) || s.timerHeld n c then k.timers.chk.get c
      else k.timers.chk.get c + d
    eng := Vector.ofFn fun i =>
      let e := BitVec.ofNat 2 (i.val + 1)
      if !k.engineHolds e then 0
      else if k.engineWorks e && !s.engineHeld n e then k.timers.eng.get i + d
      else k.timers.eng.get i }

/-- The check timers and engine watches of every core after `d` ns. -/
def State.runTimers (s : State) (d : Nat) : State :=
  (List.finRange 32).foldl (fun r n =>
    let x := s.timersAfter n d
    if x = (s.core (s.tileOf n)).timers then r else r.modCore (s.tileOf n) fun k => { k with timers := x }) s

/-- A guilty verdict (R538): the suspect retires GUILTY and its ring enters ERROR, the replay core alone is
reset, and replay goes on. DESIGN CHOICE: whether the reset fails is free; where it does, the remaining suspects stay
unresolved and cause 0x08 is declared. -/
def State.guilty (s : State) (n : LCore) (j : CoreJob) : State :=
  let p := partOf n
  let s := s.retireCore n j 0x45 0
  let s := ((s.count (.part p.val) 3 1).raise (.part p.val) 4).verdict p j .guilty
  let fails := Config.freeBool s.free
  let s := { s with free := s.free + 1 }
  if fails then ((s.modPart p fun x => { x with replayCore := none }).replayNext p).declare p 0x08 (some n) 0 0
  else (s.resetTile (s.tileOf n)).replayNext p

/-- The job that a core replays. -/
def State.replayed (s : State) (n : LCore) : Option CoreJob := (s.disp.jobs.get n).find? fun j => j.replay

/-- ENGINE_STALL (R527, R538). -/
def execEngineStall (core : LCore) (engine : BitVec 2) (s : State) : Host.Outcome State Fault Refusal :=
  let t := s.tileOf core
  if !s.stalls core engine then .next s
  else match s.replayed core with
    | some j => .next (s.guilty core j)
    | none => .next (s.modCore t fun k => { k with stalled := setBit k.stalled engine.toNat true })

/-- HANG_DECLARATION (R528, R529, R538): a context asked to stop by its check timer, or a stalled engine, has not
stopped or moved 1 ms later. A context that has entered HALTED counts as stopped: system firmware resets it. -/
def execHangDeclaration (core : LCore) (who : Sum CtxId (BitVec 2)) (s : State) :
    Host.Outcome State Fault Refusal :=
  let t := s.tileOf core
  match who with
  | .inl c =>
    (match (s.ctx t c).chk with
    | none => .next s
    | some k =>
      if (s.ctx t c).run == .idle then .next s
      else if (s.ctx t c).run == .halted then .next (s.ctxReset t c)
      else match s.replayed core with
        | some j => .next (s.guilty core j)
        | none => .next (s.declare (partOf core) (if k == .progress then 1 else 2) (some core) c 0))
  | .inr e =>
    if bit (s.core t).stalled e.toNat then
      .next ((s.modCore t fun k => { k with stalled := 0 }).declare (partOf core) 3 (some core) 0 e)
    else .next s

/-! ### The PART pages' commands (R530, R544, R545) -/

/-- PART_CTRL.RECOVER (R529). -/
def State.partRecover (s : State) (p : Part) : State := s.declare p 0x06 none 0 0

/-- PART_CTRL.OFFLINE (R545): ignored while the partition recovers, or where the minimum service set would be
lost. DESIGN CHOICE: R37 names no cause for it or for ONLINE; CAUSE is 0x00. -/
def State.partOffline (s : State) (p : Part) : State :=
  let t := s.modPart p fun x => { x with
    offline := true, run := if x.run == .recovering then x.run else .offline }
  if s.recovering p || !t.minimum then s else t.evalService 0 false

/-- PART_CTRL.ONLINE (R545); the CAUSE of its change is as that of OFFLINE. -/
def State.partOnline (s : State) (p : Part) : State :=
  (s.modPart p fun x => { x with
    offline := false
    run := if x.run != .offline then x.run else if x.replayCore.isSome then .replaying else .serving }).evalService 0 false

/-- PART_CTRL.DUMP_ACK (R530): the region is free for the next dump. -/
def State.dumpAck (s : State) (p : Part) : State :=
  s.modPart p fun x => { x with dumpValid := false, dumpLost := false }

/-- PART_RECOVER (R529, R544). -/
def execPartRecover (w : Who) (part : Part) (s : State) : Host.Outcome State Fault Refusal :=
  .next (if s.mayWrite w (.part part.val) then s.partRecover part else s)

/-- PART_OFFLINE (R545). -/
def execPartOffline (w : Who) (part : Part) (s : State) : Host.Outcome State Fault Refusal :=
  .next (if s.mayWrite w (.part part.val) then s.partOffline part else s)

/-- PART_ONLINE (R545). -/
def execPartOnline (w : Who) (part : Part) (s : State) : Host.Outcome State Fault Refusal :=
  .next (if s.mayWrite w (.part part.val) then s.partOnline part else s)

/-- DUMP_ACK (R530). -/
def execDumpAck (w : Who) (part : Part) (s : State) : Host.Outcome State Fault Refusal :=
  .next (if s.mayWrite w (.part part.val) then s.dumpAck part else s)

/-! ### The steps of a recovery (R532 to R536) -/

/-- A step entered (R525). -/
def State.enterStep (s : State) (p : Part) (k : BitVec 3) : State :=
  (s.modPart p fun x => { x with step := k }).trace 0x05 0 0 (BitVec.ofNat 64 p.val) (k.setWidth 64)

/-- Step 2 done: the dump stands in the partition's region, or is lost where the region still holds one
(R530). -/
def State.writeDump (s : State) (p : Part) : State :=
  let x := s.part p
  if x.dumpValid then s.modPart p fun x => { x with dumpLost := true }
  else
    let d : Dump := ⟨x.hangInfo, x.hangTime, s.board.gen, s.dumpSerial, s.collect p⟩
    { s.modPart p fun x => { x with dump := some d, dumpValid := true } with dumpSerial := s.dumpSerial + 1 }

/-- Step 3 done: the writes that the stack has accepted from cores that recover with it are settled, what those cores had
asked of it is dropped, and it enters self-refresh. Requests of other partitions stay, as those that are
sent again (R533). -/
def State.quiesce (s : State) (p : Part) : State :=
  let own (r : HbmReq) : Bool := r.part == p && s.recovering (partOf r.agent.source.1)
  let s := (s.hbm.queue.filter own).foldl (fun s r => s.settleWrite p r) s
  let s := { s with hbm := { s.hbm with queue := s.hbm.queue.filter fun r => !own r } }
  s.modUnit p fun u => { u with selfRefresh := true }

/-- A castling without a copy (R31, R542), in a recovery whose next action resets the tile: the pages of the new tile are
now those of the partition that has been declared hung (R55). -/
def State.castleBare (s : State) (n : LCore) : State :=
  match s.spareFor with
  | none => (s.updateMap n fun m => { m with out := true }).evalService (s.lossCause n) false
  | some i =>
    let s := if (s.board.spares.get i).state == .testing then
      (s.abandonBist (spareTile i)).modSpare i fun q => { q with retest := true } else s
    let old := s.tileOf n
    let s := s.copyPages old (spareTile i)
    let s := if s.board.mtxSaved.contains n then
        (s.modPage (pageNo (.mtx (spareTile i).val)) fun p => { p with enable := true, active := true }).modBoard
          fun x => { x with mtxSaved := x.mtxSaved.erase n }
      else s
    let s := s.mapCastling n i false
    let s := if s.recovering (partOf n) then
        (s.hangPages (tilePages old) false).hangPages (tilePages (spareTile i)) true else s
    (s.modCore old Core.vacated).evalService 0x06 false

/-- The jobs in a core's entries leave it: those named as suspects stay suspects, the others are bystanders
(R536, R539), and one that a function-level reset has stopped retires. -/
def State.takeJobs (s : State) (p : Part) (n : LCore) : State :=
  let l := s.disp.jobs.get n
  let s := s.modJobs n fun _ => []
  l.foldl (fun s j =>
    let named := (s.part p).suspects.any fun h => h.job.job.order == j.job.order
    if j.cancel then
      (s.modPart p fun x => { x with
        suspects := x.suspects.filter fun h => h.job.job.order != j.job.order }).abortHeld p ⟨n, j⟩
    else if named then s
    else s.modPart p fun x => { x with bystanders := x.bystanders ++ [⟨n, j⟩] }) s

/-- Step 4 done: castling without a copy, the tiles reset, and the core runtime rewritten (R532, R534). -/
def State.resetPart (s : State) (p : Part) : State :=
  let s := (s.part p).castle.foldl State.castleBare s
  let s := (coresOf p).foldl (fun s n => s.takeJobs p n) s
  let s := (coresOf p).foldl (fun s n => s.resetTile (s.tileOf n)) s
  s.modPart p fun x => { x with
    castle := [], runtime := true, istore := Tab.clearRange x.istore 0 0x10000 }

/-- A step of a partition's recovery ends, and the next begins. -/
def State.stepDone (s : State) (p : Part) : State :=
  if (s.part p).run != .recovering then s
  else
    let k := (s.part p).step
    if k = 1 then s.enterStep p 2
    else if k = 2 then (s.writeDump p).enterStep p 3
    else if k = 3 then (s.quiesce p).enterStep p 4
    else if k = 4 then (s.resetPart p).enterStep p 5
    else if k = 5 then (s.modUnit p fun u => { u with selfRefresh := false }).enterStep p 6
    else s

/-- RECOVERY_STEP_DONE (R395, R532). -/
def execRecoveryStepDone (part : Part) (s : State) : Host.Outcome State Fault Refusal :=
  .next ((s.recoveryScope part).foldl State.stepDone s)

/-! ### The end of a recovery (R532 step 6, R537, R539) -/

/-- Cores and channels of a partition in service. -/
def State.partParts (s : State) (p : Part) : Nat :=
  ((coresOf p).filter s.coreWorks).length + countIdx 16 fun c => s.channelIn p c

/-- RECOVERING falls: RESULT, the time taken, HANG, the counter and the summary record (R532, R544). -/
def State.endRecovery (s : State) (p : Part) : State :=
  let x := s.part p
  let us := min ((s.time - x.hangTime).toNat / 1000) (2 ^ 32 - 1)
  let s := s.modPart p fun x => { x with
    run := if x.offline then .offline else .serving, step := 0, recoverUs := BitVec.ofNat 32 us }
  let r : BitVec 2 := if !s.partIn p then 3 else if s.partParts p < x.before then 2 else 1
  let s := (s.modPart p fun x => { x with result := r }).setHang p false
  let s := (s.count (.part p.val) 2 1).raise (.part p.val) 2
  let s := s.modUnit p fun u => { u with selfRefresh := false }
  s.log { cls := 7, code := 0x05, page := .part p.val, info0 := x.hangInfo.setWidth 64
          info1 := BitVec.ofNat 64 us }

/-- A bystander goes back to the dispatcher as ready, or retires ABORTED_BY_RESET (R539). -/
def State.redispatch (s : State) (p : Part) (h : HeldJob) : State :=
  if h.job.cancel || (h.job.ctx.isSome && (ringDesc h.job.job.desc).noreplay) then s.abortHeld p h
  else (s.giveBack { h.job.back with again := true }).count (.part p.val) 4 1

/-- A suspect placed by T_START (R537). -/
def insertHeld (h : HeldJob) : List HeldJob → List HeldJob
  | [] => [h]
  | x :: l => if h.job.tStart.toNat < x.job.tStart.toNat then h :: x :: l else x :: insertHeld h l

/-- The replay core: the lowest logical core of the partition in service, while the partition is. -/
def State.replayCoreOf (s : State) (p : Part) : Option LCore :=
  if s.partIn p then (coresOf p).find? s.coreWorks else none

/-- Bystanders and suspects of a recovery that has ended, and castlings it has put off. -/
def State.afterRecovery (s : State) (p : Part) : State :=
  let x := s.part p
  let s := s.modPart p fun x => { x with bystanders := [], later := [], back := [] }
  let s := x.bystanders.foldl (fun s h => s.redispatch p h) s
  let l := x.suspects.foldl (fun l h => insertHeld h l) []
  let n := s.replayCoreOf p
  let s := s.modPart p fun x => { x with
    nSuspects := BitVec.ofNat 6 l.length, nDone := 0, nGuilty := 0, nUnresolved := 0, replayed := [] }
  let s := if l.isEmpty then s
    else (s.modPart p fun x => { x with run := .replaying, replayCore := n }).replayList p l
  let s := x.later.foldl (fun s n => s.castle n (s.lossCause n)) s
  let s := x.back.foldl (fun s n => match (List.finRange 2).find? fun i =>
      (s.board.spares.get i).state == .castled && (s.board.spares.get i).lcore == n with
    | some i => if s.recovering p then s else s.beginCastling n i true
    | none => s) s
  s.pumpFiring

/-- Channels that did not train again go out of service (R393, R532 step 5). -/
def State.dropChannels (s : State) (ps : List Part) (lost : List (Fin 64)) : State :=
  let new := lost.eraseDups.filter fun c =>
    ps.contains ⟨c.val / 16, by omega⟩ && s.channelIn ⟨c.val / 16, by omega⟩ (c.val % 16)
  let s := s.modBoard fun b => { b with channelsOut := b.channelsOut ++ new }
  new.foldl (fun s c => (s.raise (.memc c.val) 4).log { cls := 5, code := 3, page := .memc c.val }) s

/-- RECOVERY_COMPLETE (R395, R532 step 6): the partitions that recover together return together. -/
def execRecoveryComplete (part : Part) (lostChannels : List (Fin 64)) (s : State) :
    Host.Outcome State Fault Refusal :=
  let x := s.part part
  if x.run != .recovering || x.step.toNat < 5 then .next s
  else
    let ps := (s.recoveryScope part).filter fun p => (s.part p).run == .recovering
    let s := s.dropChannels ps lostChannels
    let s := (ps.foldl State.endRecovery s).settleDeficits.evalService 0x05 false
    .next (ps.foldl State.afterRecovery s.flushHeld)

/-! ### The persistent log (R523, R524) -/

/-- The log written to flash: every record, or the severe ones (R523). -/
def State.flushLog (s : State) (severe : Bool) : State :=
  let due (r : LogRec) : Bool := !r.flushed && (!severe || r.severe)
  let places := Tab.mapVals none (fun _ r => r.map fun r => if due r then { r with flushed := true } else r)
    s.journal.places
  let flash := if severe then
      places.foldl (fun f e => match e.2 with
        | some r => if r.flushed then Tab.set none f e.1 (some r) else f
        | none => f) s.journal.flash
    else places
  { s with journal := { s.journal with places := places, flash := flash } }

/-- LOG_FLUSH (R523): severe records within 5 ms, the others within 1 s; the sender says which is due. -/
def execLogFlush (severe : Bool) (s : State) : Host.Outcome State Fault Refusal := .next (s.flushLog severe)

/-- PART_LOG_ACK written (R524): the record of that SEQ is acknowledged, or every one for 0xFFFFFFFF. -/
def State.ackLog (s : State) (seq : Word) : State :=
  let places := Tab.mapVals none (fun _ r => r.map fun r =>
    if (r.seq == seq || seq == 0xFFFFFFFF) && !r.ack then { r with ack := true, flushed := false } else r) s.journal.places
  ({ s with journal := { s.journal with places := places } }).settleSummary

/-- LOG_ACK (R524): a write of PART_LOG_ACK. -/
def execLogAck (w : Who) (seq : Word) (s : State) : Host.Outcome State Fault Refusal :=
  .next (if s.mayWrite w (.part 0) then
    (s.modPage (pageNo (.part 0)) fun p => { p with
      staged := Tab.set 0 p.staged 0x088 seq, live := Tab.set 0 p.live 0x088 seq }).ackLog seq
  else s)

end Sys2Proof.Machine
end

