-- ==== Sys2Proof/Machine/Clock.lean ====
section
/-! DEFINITION. Clocks, power, temperature, firing and BIST (R491 to R519). -/

namespace Sys2Proof.Machine

/-! ### References and droops (R492) -/

/-- The page and the index of an island's ISL_DROOP counter; ISL_TED follows it (R516, R517). -/
def islCounter (i : Island) : PageClass × Nat :=
  if i.val < 272 then (.island (i.val / 8), 2 * (i.val % 8)) else (.clk, 2 + 2 * (i.val - 272))

/-- CLOCK_CALIBRATION (R492): the generator is brought to within ±0.5 % of FNOW, which the state gives as it
stands; the residual error is no state of its own. -/
def execClockCalibration (_island : Island) (s : State) : Host.Outcome State Fault Refusal := .next s

/-- REF_LOST (R492, R517). -/
def execRefLost (s : State) : Host.Outcome State Fault Refusal :=
  .next (if s.clocks.ref100 || s.clocks.locked then
    (s.modClk fun k => { k with ref100 := false, locked := false }).raise .clk 4 else s)

/-- REFERENCE_RESTORED (R492). -/
def execReferenceRestored (s : State) : Host.Outcome State Fault Refusal :=
  .next (s.modClk fun k => { k with ref100 := true, locked := true })

/-- SUPPLY_DROOP (R492): an episode begins, and is counted once. -/
def execSupplyDroop (island : Island) (s : State) : Host.Outcome State Fault Refusal :=
  if (s.isl island.val).droop then .next s
  else
    let c := islCounter island
    .next ((s.modIsl island.val fun x => { x with droop := true }).count c.1 c.2 1)

/-- SUPPLY_DROOP_END (R492). -/
def execSupplyDroopEnd (island : Island) (s : State) : Host.Outcome State Fault Refusal :=
  .next (s.modIsl island.val fun x => { x with droop := false })

/-! ### Power (R496, R500, R518) -/

/-- POWER_MEASURE (R496, R500): the board's power, its loss constant included, is read with the output voltage
of every rail; the estimate is recalibrated to it, and 1 ms of it is added to PWR_ENERGY. -/
def execPowerMeasure (milliwatts : Word) (s : State) : Host.Outcome State Fault Refusal :=
  let w := min (milliwatts.toNat / 1000) 1023
  let base := s.free
  let s := s.modClk fun k => { k with
    estimate := milliwatts.toNat
    measured := some s.time
    pwrNow := BitVec.ofNat 10 w
    rails := Vector.ofFn fun r => { k.rails.get r with meas := Config.freeBits 12 (base + r.val) } }
  .next ({ s with free := base + 13 }.count .pwr 2 w)

/-- Some adaptive island runs above 1,200 MHz. -/
def State.someFast (s : State) : Bool := (List.range 272).any fun i => decide (1200 < s.fnow i)

/-- The power as estimated from activity counts, in mW (R500): the measurement within its µs; after that it moves by what
the counts say, which is left open. -/
def State.powerNow (s : State) : Nat :=
  match s.clocks.measured with
  | some t => if s.passed t 1 then (Config.freeWord s.free).toNat else s.clocks.estimate
  | none => s.clocks.estimate

/-- The limiter's action on an estimate in mW (R500). -/
def State.limit (s : State) (power : Nat) : State :=
  let k := s.clocks
  let lim := 1000 * (fld (s.live .pwr 0x040) 0 10).toNat
  if lim < power then
    if s.someFast then
      let t := s.modClk fun k => { k with fscale := k.fscale - 8 }
      if k.fscale = 256 then t.raise .pwr 1 else t
    else s.modClk fun k => { k with mduty := max 4 (k.mduty - 1) }
  else if 100 * power < 97 * lim then
    if k.mduty < 16 then s.modClk fun k => { k with mduty := k.mduty + 1 }
    else if k.fscale < 256 ∧ (k.fsUp = 0 ∨ 100000 ≤ (s.time - k.fsUp).toNat) then
      s.modClk fun k => { k with fscale := min 256 (k.fscale + 2), fsUp := s.time }
    else s
  else s

/-- Some tile is throttled. -/
def State.someHot (s : State) : Bool := s.clocks.tcap.any fun e => decide (e.2 < 1900)

/-- POWER_LIMITER_TICK (R500, R518): 10 µs pass, and the limiter acts on the estimate of that moment. -/
def execPowerLimiterTick (s : State) : Host.Outcome State Fault Refusal :=
  let k := s.clocks
  let old := s
  let power := s.powerNow
  let s := { s with free := s.free + 1, clocks := { s.clocks with estimate := power } }
  let s := if k.fscale < 256 ∨ k.mduty < 16 then s.count .pwr 0 10 else s
  let s := if s.someHot then s.count .pwr 1 10 else s
  .next ((s.limit power).tedEdges old (List.range 272))

/-! ### Temperature (R501 to R504) -/

/-- The hottest island as it reads (R518). -/
def State.hottest (s : State) : BitVec 12 × BitVec 9 :=
  (List.range 294).foldl (fun (b : BitVec 12 × BitVec 9) i =>
    if b.1.slt (s.isl i).temp then ((s.isl i).temp, BitVec.ofNat 9 i) else b) ((s.isl 0).temp, 0)

/-- A temperature in 0.125 °C units. -/
def temp8 (t : BitVec 12) : Int := t.toInt

/-- The thermal trip (R504, R520): THERMTRIP_N is driven low, and every island but the management controller and
the security engine is gated. -/
def State.thermtrip (s : State) (i : Island) : State :=
  let low := s.pins.thermtrip
  let s := { s with pins := { s.pins with thermtrip := true } }
  let s := (List.range 294).foldl (fun s j =>
    if j = 291 ∨ j = 292 then s else s.modIsl j fun x => { x with gated := true }) s
  if low then s
  else
    (s.log { cls := 6, code := 0x09, page := islandPage i.val, island := BitVec.ofNat 9 i.val }).failDevice

/-- TEMP_SAMPLE (R501, R504, R507): the sensor is read; 15 °C from its value at the last sweep, 10 min on, a
firing of the island is asked for. -/
def execTempSample (island : Island) (temp : BitVec 12) (s : State) : Host.Outcome State Fault Refusal :=
  let s := s.modIsl island.val fun x => { x with temp := temp }
  let h := s.hottest
  let s := s.modClk fun k => { k with tjTemp := h.1, tjIsland := h.2 }
  let s := match (s.isl island.val).swept with
    | some (t, at_) =>
      if 120 < (temp8 temp - temp8 t).natAbs ∧ 600 * 10 ^ 9 ≤ (s.time - at_).toNat then
        s.askFiring ⟨[.island island], false, 3⟩
      else s
    | none => s
  .next (if 920 ≤ temp8 temp then s.thermtrip island else s)

/-- The islands of a tile. -/
def tileIslands (t : Tile) : List Island := (List.finRange 8).map fun k => ⟨8 * t.val + k.val, by omega⟩

/-- THERMAL_THROTTLE_TICK (R502). -/
def execThermalThrottleTick (tile : Tile) (s : State) : Host.Outcome State Fault Refusal :=
  let temps := (tileIslands tile).map fun i => temp8 (s.isl i.val).temp
  let old := s
  let cap := s.tcapOf tile.val
  let hot := temps.any fun t => decide (800 ≤ t)
  let cool := temps.all fun t => decide (t ≤ 776)
  let cap' := if hot then max 1200 (cap - 50) else if cool then min 1900 (cap + 25) else cap
  let s := s.modClk fun k => { k with tcap := Tab.set 1900 k.tcap tile.val cap' }
  let s := if cap = 1900 ∧ cap' < 1900 then s.raise .pwr 2 else s
  let hold := decide (cap' = 1200) && temps.any fun t => decide (840 ≤ t)
  let free := temps.all fun t => decide (t ≤ 800)
  .next ((s.modClk fun k => { k with
    hold := if hold then (if k.hold.contains tile then k.hold else k.hold ++ [tile])
      else if free then k.hold.erase tile else k.hold }).tedEdges old ((tileIslands tile).map (·.val)))

/-- HBM_TEMP_SAMPLE (R503, R407, R518). -/
def execHbmTempSample (part : Part) (degrees : BitVec 9) (s : State) : Host.Outcome State Fault Refusal :=
  let d := degrees.toInt
  let u := s.hbm.units.get part
  let therm := if 100 < d then 128 else if 95 < d then 192 else if d ≤ 90 ∨ !u.hot then 256 else u.therm
  let s := s.modUnit part fun u => { u with
    therm := therm, temp := d.toNat, hot := decide (95 < d) || (u.hot && decide (90 < d)) }
  let s := if therm < u.therm then s.raise .pwr 4 else s
  .next s.settleDeficits

/-- What a regulator's fault leads to (R499, R529): a core rail takes its partition into recovery; any other makes the
device FAILED. -/
def State.railFault (s : State) (rail : Fin 13) : State :=
  if h : rail.val < 4 then s.declare ⟨rail.val, h⟩ 0x04 none 0 0 else s.failDevice

/-- REGULATOR_FAULT (R499, R520). DEDUCED: a fault in BOOT takes effect when the device leaves it, for STATE changes out of
BOOT by R35's rows alone. -/
def execRegulatorFault (rail : Fin 13) (s : State) : Host.Outcome State Fault Refusal :=
  let s := s.log { cls := 5, code := 2, page := .pwr, info0 := BitVec.ofNat 64 rail.val }
  .next (if s.board.svc.state == .boot then
    s.modClk fun k => { k with faulty := if k.faulty.contains rail then k.faulty else k.faulty ++ [rail] }
  else s.railFault rail)

/-! ### Detectors and firing (R505 to R510) -/

/-- TED_CAP (R506, R515): the flags of one island within 1 ms. -/
def execTedCap (island : Island) (flags : Word) (s : State) : Host.Outcome State Fault Refusal :=
  let c := islCounter island
  let now := s.fnow island.val
  let s := (s.modIsl island.val fun x => { x with flags := x.flags + flags.toNat }).count c.1 (c.2 + 1)
    flags.toNat
  if flags.toNat ≤ (fld (s.live .clk 0x044) 16 8).toNat then .next s
  else
    let s := (s.modIsl island.val fun x => { x with tedcap := BitVec.ofNat 11 (now - 25) }).tedEdges s [island.val]
    .next (s.askFiring ⟨[.island island], false, 4⟩)

/-- INTERVAL hours have passed since the last full firing began (R507, R517). -/
def State.firingDue (s : State) : Bool := s.passed s.clocks.began (3600000000 * (fld (s.live .clk 0x044) 0 5).toNat)

/-- FIRING_INTERVAL (R507). -/
def execFiringInterval (s : State) : Host.Outcome State Fault Refusal :=
  .next (if s.firingDue then s.askFiring ⟨fullGroups, true, 1⟩ else s)

/-- CLK_FIRING_CTRL.REQ (R507, R517). -/
def State.firingReq (s : State) : State := s.askFiring ⟨fullGroups, true, 2⟩

/-- FIRING_REQUEST (R507). -/
def execFiringRequest (w : Who) (s : State) : Host.Outcome State Fault Refusal :=
  .next (if s.mayWrite w .clk then s.firingReq else s)

/-- FIRING_SKIP_RETRY (R510): 10 min after the tile has been skipped. -/
def execFiringSkipRetry (tile : Tile) (s : State) : Host.Outcome State Fault Refusal :=
  if !s.clocks.skipped.any fun x => x.1 == tile && s.passed x.2 600000000 then .next s
  else
    let s := s.modClk fun k => { k with skipped := k.skipped.filter fun x => x.1 != tile }
    .next (s.askFiring ⟨(tileIslands tile).map .island, false, s.clocks.cause⟩)

/-- Islands 0 to 6 of a tile gated for its sweep. -/
def State.gateTile (s : State) (t : Tile) (forced : Bool) : State :=
  ((tileIslands t).take 7).foldl (fun s i =>
    if s.islandOk i.val then s.modIsl i.val fun x => { x with gated := true, forced := forced } else s) s

/-- The firing under way waits for a tile. -/
def State.firingWaits (s : State) (t : Tile) : Bool :=
  match s.clocks.firing with
  | some f => f.waits t.val
  | none => false

/-- A firing waits for a tile, which serves a core and is not throttled, and no spare is IDLE. DESIGN CHOICE: a core that a
spare tile serves is not castled to the other one, so that its tile may be gated whatever that one's state (R508 speaks of
core tiles). -/
def State.mayGate (s : State) (t : Tile) : Bool :=
  s.firingWaits t && (s.lcoreOf t).isSome && !s.frozen t && !(s.core t).clearing && !s.tileHot t.val &&
    (decide (32 ≤ t.val) || (List.finRange 2).all fun i => (s.board.spares.get i).state != .idle)

/-- A throttled tile that a firing waits for is skipped (R510). -/
def State.skipIfHot (s : State) (t : Tile) : State := if s.firingWaits t && s.tileHot t.val then s.pumpFiring else s

/-- 24 h have passed since an island's last sweep (R411, R508). -/
def State.dayOld (s : State) (i : Island) : Bool :=
  match (s.isl i.val).swept with
  | some (_, t) => s.passed t 86400000000
  | none => true

/-- FIRING_GATE (R508): no context of the core is RUNNING, READY or BLOCKED. -/
def execFiringGate (tile : Tile) (s : State) : Host.Outcome State Fault Refusal :=
  let quiet := (List.finRange 4).all fun c => (s.ctx tile c).run == .idle || (s.ctx tile c).run == .halted
  .next (if s.mayGate tile && quiet then s.gateTile tile false else s.skipIfHot tile)

/-- The sweep of a memory-controller or HBM PHY island pauses its channels: the reads that wait are noted, and the pause
is logged (R404, R411). -/
def State.sweepPause (s : State) (island : Island) : State :=
  let l := (islandChannels island.val).map fun c => 16 * c.1.val + c.2
  if l.isEmpty then s
  else (l.foldl State.pauseChan s).log { cls := 7, code := 0x0B, page := islandPage island.val
                                         island := BitVec.ofNat 9 island.val }

/-- A memory-controller or HBM PHY island of a firing that has not been swept for 24 h: its sweep is a forced one
(R411). -/
def State.forceSweep (s : State) (island : Island) : State :=
  let due : Bool := match s.clocks.firing with
    | some f => f.todo.contains island
    | none => false
  if (islandChannels island.val).isEmpty || !due || !s.dayOld island then s
  else
    let s := (s.modIsl island.val fun x => { x with forced := true }).count .clk 1 1
    s.log { cls := 7, code := 0x09, page := islandPage island.val, island := BitVec.ofNat 9 island.val }

/-- FORCED_GATING (R508): 24 h after the island's last sweep, with the contexts' state kept; counted, and a
class 7 event (R520). -/
def execForcedGating (island : Island) (s : State) : Host.Outcome State Fault Refusal :=
  match islandTile island with
  | none => .next (s.forceSweep island)
  | some t =>
    if sensorsOnly island.val || !s.dayOld island then .next s
    else if !s.mayGate t then .next (s.skipIfHot t)
    else
      let s := (s.gateTile t true).count .clk 1 1
      .next (s.log { cls := 7, code := 0x09, page := islandPage island.val
                     island := BitVec.ofNat 9 island.val })

/-- An island may be read now: its sensors always; a sweep while it is idle and gated, in refresh windows, or
during boot (R508). DESIGN CHOICE: a tile that serves no core is gated for its sweep within the one command. -/
def State.sweepable (s : State) (i : Island) : Bool :=
  sensorsOnly i.val || decide (272 ≤ i.val) || s.board.svc.state == .boot || (s.isl i.val).gated ||
    (match islandTile i with
    | some t => (s.lcoreOf t).isNone &&
        (decide (t.val < 32) || (List.finRange 2).any fun j => spareTile j == t && (s.board.spares.get j).state != .copying)
    | none => false)

/-- The readings of a sweep: CPRLIM at the rail's voltage and 50 mV from it, and AGE (R505, R509). -/
def State.readIsland (s : State) (i : Island) (lim0 lim1 : BitVec 12) (age : BitVec 16) : State :=
  let full := !sensorsOnly i.val || s.board.svc.state == .boot
  let v0 := s.railSet (railOf i)
  let v1 := if 900 < v0 + 50 then v0 - 50 else v0 + 50
  let now := s.time
  s.modIsl i.val fun x =>
    if full then { x with
      age := age, lim0 := lim0, lim1 := lim1, v0 := v0, v1 := v1, isSwept := true, swept := some (x.temp, now) }
    else { x with age := age }

/-- A throttled tile's island that no sweep has begun on. -/
def State.sweepHot (s : State) (i : Island) : Bool :=
  match islandTile i with
  | some t => s.tileHot t.val && !(s.isl (8 * t.val)).gated
  | none => false

/-- An island's sweep is done (R509). The controller starts no pause on a channel while a read that waited through the one
before still waits (R404); a throttled tile is skipped (R510). -/
def State.sweepDone (s : State) (island : Island) (cprlim0 cprlim1 : BitVec 12) (age : BitVec 16) : State :=
  match s.clocks.firing with
  | none => s
  | some f =>
    if !f.todo.contains island || !s.sweepable island ||
        (islandChannels island.val).any fun c => s.pausePending (16 * c.1.val + c.2) then s
    else if s.sweepHot island then s.pumpFiring
    else
      let s := (s.sweepPause island).readIsland island cprlim0 cprlim1 age
      let f := { f with todo := f.todo.erase island }
      let s := s.modClk fun k => { k with firing := some f }
      let s := match islandTile island with
        | some t =>
          if f.waits t.val then s
          else if (s.isl (8 * t.val)).gated then (s.ungate ((tileIslands t).take 7)).goOnTile t else s
        | none => s
      s.settleFiring.pumpFiring

/-- A rail has reached its voltage (R498). -/
def State.railSettled (s : State) (rail : Fin 13) : State :=
  match (s.clocks.rails.get rail).goal with
  | none => s
  | some v =>
    let s := s.modRail rail fun r => { r with set := v, goal := none }
    s.goOnFiring.pumpFiring

/-! ### BIST (R514, R519) -/

/-- The islands that BIST_TARGET names, and the refusal code of a target that no island answers to. -/
def bistTargets (t : Word) : Option (List Island) :=
  let scope := (fld t 0 2).toNat
  let island := (fld t 4 9).toNat
  let tile := (fld t 13 6).toNat
  let part := (fld t 19 2).toNat
  if scope = 0 then
    if h : island < 294 then some [⟨island, h⟩] else none
  else if scope = 1 then
    if h : tile < 34 then some ((tileIslands ⟨tile, h⟩).take 7) else none
  else if scope = 2 then
    some ((List.finRange 294).filter fun i =>
      (FireGroup.island i).home == some ⟨part % 4, Nat.mod_lt _ (by omega)⟩ && !(decide (i.val < 272) && i.val % 8 == 7))
  else none

/-- A BIST target is in service (R514). -/
def State.targetServes (s : State) (i : Island) : Bool :=
  let offline : Bool := match (FireGroup.island i).home with
    | some p => (s.part p).offline
    | none => false
  match islandTile i with
  | none => !offline
  | some t =>
    if i.val % 8 = 7 then true
    else
      let spare : Bool := (List.finRange 2).any fun j => spareTile j == t &&
        ((s.board.spares.get j).state == .idle || (s.board.spares.get j).state == .testing ||
          (s.board.spares.get j).state == .failed)
      let away : Bool := decide (t.val < 32) && (s.lcoreOf t).isNone
      let gone : Bool := match s.lcoreOf t with
        | some n => (s.part (partOf n)).offline
        | none => false
      !(spare || away || gone)

/-- The refusal code of GO; 0 where it passes (R58, R514, R519). -/
def State.bistCheck (s : State) (w : Who) : Byte :=
  let t := s.live .bist 0x040
  if w != .firmware && s.saggar then 0x08
  else if fld t 2 2 = 0 then 0x01
  else match bistTargets t with
    | none => 0x02
    | some is =>
      if is.any s.targetServes then 0x40
      else if is.any fun i => (s.isl i.val).gated || (match s.clocks.firing with
          | some f => f.todo.contains i && s.sweepable i
          | none => false) then 0x41
      else if fld (s.live .bist 0x044) 0 24 = 0 then 0x42
      else 0

/-- The spares among the targets of a run. -/
def spareTargets (is : List Island) : List (Fin 2) :=
  (List.finRange 2).filter fun j => is.any fun i => islandTile i == some (spareTile j)

/-- The spares among the targets of a run that are in a state, changed. -/
def State.modSpares (s : State) (is : List Island) (st : SpareState) (f : Spare → Spare) : State :=
  match (spareTargets is).filter fun j => (s.board.spares.get j).state == st with
  | [] => s
  | l => (l.foldl (fun s j => s.modSpare j f) s).evalService 0 false

/-- A run tests an IDLE spare: it is TESTING (R28), and counts as idle no more. DESIGN CHOICE: R37 names no cause for
this change of SPARES_IDLE, nor for that of a passing run; CAUSE is 0x00. -/
def State.testSpares (s : State) (is : List Island) : State :=
  s.modSpares is .idle fun p => { p with state := .testing }

/-- BIST_CTRL.GO (R514). -/
def State.bistGo (s : State) (w : Who) : State :=
  if s.clocks.bist.busy then s
  else
    let code := s.bistCheck w
    if code ≠ 0 then
      (s.modClk fun k => { k with bist := { k.bist with result := 3, code := code } }).log
        { cls := 3, code := code, page := .bist, func := Who.fn w }
    else
      let is := (bistTargets (s.live .bist 0x040)).getD []
      let s := is.foldl (fun s i => s.modIsl i.val fun x => { x with gated := true }) s
      let s := s.testSpares is
      s.modClk fun k => { k with bist := { k.bist with busy := true, code := 0, targets := is } }

/-- BIST_GO (R514). -/
def execBistGo (w : Who) (s : State) : Host.Outcome State Fault Refusal :=
  .next (if s.mayWrite w .bist then s.bistGo w else s)

/-- The memory of an island cleared (R321, R514): WM, AM, or PM with the coil buffer. -/
def Core.clearIsland (k : Core) (i : Nat) : Core :=
  let clear (lo n slot count : Nat) (k : Core) : Core := { k with
    mem := Tab.clearRange k.mem lo n
    marks := Tab.clearRange k.marks (lo / 8) (n / 8)
    tags := Tab.clearRange k.tags slot count }
  if i = 3 then clear 0 0x300000 0 6144 k
  else if i = 4 then clear 0x400000 0x400000 6144 8192 k
  else if i = 5 then
    let k := clear 0x800000 0x100000 14336 2048 k
    { k with str := { k.str with coil := [], coilMarks := [] } }
  else k

/-- The logic of an island left in its reset state (R514). -/
def Core.resetIsland (k : Core) (i : Nat) : Core :=
  if i = 0 then { k with
    ctxs := Vector.replicate 4 {}, sb := [], loads := [], fetchBuf := [], btb := [], last := 3, quantum := 0
    resume := Vector.replicate 4 none, waiters := [], parked := [] }
  else if i = 1 then { k with ctxs := k.ctxs.map fun x => { x with
    v := Vector.replicate 32 0, va := Vector.replicate 8 0, p := Vector.replicate 8 0
    wr := Vector.replicate 8 0, lut := Vector.replicate 2 [], vl := 0, sew := 0, grp := 0 } }
  else if i = 2 then { k with mtx := {} }
  else if i = 6 then { k with
    dma := Vector.replicate 8 {}, str := { coil := k.str.coil, coilMarks := k.str.coilMarks } }
  else k

/-- The logic of a memory-controller island in its reset state: its channels, but for their repaired rows, and their
pages. -/
def State.resetController (s : State) (i : Nat) : State :=
  if 280 ≤ i then s
  else (islandChannels i).foldl (fun s c =>
    let n := 16 * c.1.val + c.2
    let ch := Tab.get {} s.hbm.channels n
    let s := { s with hbm := { s.hbm with
      channels := Tab.set {} s.hbm.channels n { ({} : Channel) with repairs := ch.repairs } } }
    s.modPage (pageNo (.memc n)) fun p => { ({} : Page) with held := p.held }) s

/-- What a run leaves behind (R514): logic in its reset state, and tested memories cleared. A PHY keeps no state of its own
here. -/
def State.clearTargets (s : State) (is : List Island) (logic mem : Bool) : State :=
  is.foldl (fun s i => match islandTile i with
    | some t => s.modCore t fun k =>
      let k := if logic then k.resetIsland (i.val % 8) else k
      if mem then k.clearIsland (i.val % 8) else k
    | none => if logic then s.resetController i.val else s) s

/-- A run ends (R519): BUSY falls, the targets go on, and DONE is set. -/
def State.endBist (s : State) (result : BitVec 2) : State :=
  let is := s.clocks.bist.targets
  let kind := s.live .bist 0x040
  let s := s.clearTargets is (result == 2 || bit kind 2) (result == 2 || bit kind 3)
  let s := s.modClk fun k => { k with bist := { k.bist with
    busy := false, result := result, targets := [] } }
  let s := (s.ungate is).raise .bist 1
  (is.filterMap islandTile).eraseDups.foldl State.goOnTile s

/-- BIST_CTRL.ABORT (R519). -/
def State.bistAbort (s : State) : State := if s.clocks.bist.busy then s.endBist 2 else s

/-- A row nominated by BIST, remapped at once: REMAP_NEEDED and REMAP_DONE are set, the remap is counted and logged
(R318, R319, R324, R514). -/
def State.forceRemap (s : State) (t : Tile) (bank row : Nat) : State :=
  let k := s.core t
  if bankRows bank ≤ row || k.rowMapped bank row then s
  else
    let s := s.raise (.spad t.val) 0xC
    match k.spareRow bank with
    | none => s.failIsland (bankIsland t bank)
    | some e =>
      let s := s.modCore t fun k => { k with
        remap := Tab.set none k.remap (8 * bank + e) (some ⟨BitVec.ofNat 8 row, false⟩) }
      (s.count (.spad t.val) 9 1).log (remapReport t bank row)

/-- A spare in TESTING that a passing run has tested is IDLE again, and owes no run (R29, R514). -/
def State.passSpares (s : State) (is : List Island) : State :=
  s.modSpares is .testing fun p => { p with state := .idle, retest := false }

/-- Islands that a passing self-test has found to work (R29, R482, R514). -/
def State.passIslands (s : State) (is : List Island) : State :=
  let s := is.foldl (fun s i => if s.islandOk i.val then s else s.modIsl i.val fun x => { x with failed := false }) s
  s.modBoard fun b => { b with islandsOut := b.islandsOut.filter fun i => !is.contains i }

/-- A tile whose islands 0 to 6 pass: a core castled away from it comes back (R29, R514), once its partition does not
recover (R31). DESIGN CHOICE: an island that had failed is in order again once its whole tile has passed (R29 lets the
core return to a tile that has passed BIST, and no rule says otherwise of its islands). -/
def State.passTile (s : State) (t : Tile) : State :=
  let s := s.passIslands ((tileIslands t).take 7)
  match (List.finRange 2).find? fun j =>
      (s.board.spares.get j).state == .castled && (s.board.spares.get j).lcore.val == t.val with
  | some j =>
    let n := (s.board.spares.get j).lcore
    if !s.tileWhole t then s
    else if s.recovering (partOf n) then s.modPart (partOf n) fun x => { x with
      back := if x.back.contains n then x.back else x.back ++ [n] }
    else s.beginCastling n j true
  | none => s

/-- The tiles whose islands 0 to 6 a run has tested. -/
def wholeTiles (is : List Island) : List Tile :=
  (List.finRange 34).filter fun t => ((tileIslands t).take 7).all is.contains

/-- A run is done (R514, R519): the signature is compared; a set that differs fails, its failing islands are
isolated and fail, and nominated rows are remapped. -/
def State.bistDone (s : State) (misr : DWord) (rows : List (Tile × BitVec 6 × Byte)) (failing : List Island) : State :=
  if !s.clocks.bist.busy then s
  else
    let is := s.clocks.bist.targets
    let expect : DWord := ((s.live .bist 0x054).setWidth 64 <<< 32) ||| (s.live .bist 0x050).setWidth 64
    let pass := misr == expect
    let mem := bit (s.live .bist 0x040) 3
    let rows := if mem then rows.filter fun r => is.contains (bankIsland r.1 r.2.1.toNat) else []
    let s := s.modClk fun k => { k with bist := { k.bist with
      misr := misr, rows := BitVec.ofNat 10 (min rows.length 1023) } }
    let s := if mem then s else s.modClk fun k => { k with bist := { k.bist with rows := 0 } }
    let s := s.endBist (if pass then 0 else 1)
    let s := rows.foldl (fun s r => s.forceRemap r.1 r.2.1.toNat r.2.2.toNat) s
    if pass then (wholeTiles is).foldl State.passTile (s.passSpares is)
    else (failing.filter is.contains).foldl State.failIsland s

end Sys2Proof.Machine
end

