-- ==== Sys2Proof/Machine/Security.lean ====
section
/-! DEFINITION. Ownership, wedging, tenant messages, model keys and certificates (R455 to R476). -/

namespace Sys2Proof.Machine

/-- The security engine changed. -/
def State.modSec (s : State) (f : Sec → Sec) : State := { s with sec := f s.sec }

/-- The number of a mode (R468, R476). -/
def SecMode.code : SecMode → Nat
  | .standard => 0
  | .saggar => 1
  | .debug => 2

/-! ### The TAP (R475) -/

/-- What the TAP gives access to beside BYPASS and IDCODE. -/
inductive TapUse where
  | boundaryScan | debug | trace
  deriving DecidableEq, Repr

/-- The TAP allows a use (R475): nothing in saggar mode; debugging an OWNED device only after DEBUG_UNLOCK. -/
def State.tapAllows (s : State) (u : TapUse) : Bool :=
  !s.saggar && (match u with
    | .debug => s.sec.owner.isNone || s.sec.mode == .debug
    | _ => true)

/-! ### The SEC page (R476) -/

/-- SEC_STATE. -/
def Sec.state (x : Sec) : Word :=
  b2v 32 x.owner.isSome ||| (b2v 32 x.tenant.isSome <<< 1) ||| (BitVec.ofNat 32 x.mode.code <<< 2) |||
    (b2v 32 x.wedging <<< 4) ||| (x.phase.setWidth 32 <<< 5) ||| (b2v 32 (x.claimOpen && x.owner.isNone) <<< 8)

/-- SEC_KEY_VALID. -/
def Sec.keyValid (x : Sec) : DWord := bitsOf 64 64 fun i => (Tab.get none x.keys i).isSome

/-- A word of the SEC page from 0x040 on. -/
def Sec.word (x : Sec) (off : Nat) : Word :=
  if off = 0x040 then x.state
  else if off = 0x044 then x.epoch
  else if off = 0x048 then x.wedgeUs
  else if off = 0x050 then x.keyValid.setWidth 32
  else if off = 0x054 then (x.keyValid >>> 32).setWidth 32
  else if 0x080 ≤ off ∧ off < 0x0B0 then fld (keyHash x.owner) (8 * (off - 0x080)) 32
  else if 0x0C0 ≤ off ∧ off < 0x0F0 then fld (keyHash x.tenant) (8 * (off - 0x0C0)) 32
  else if 0x100 ≤ off ∧ off < 0x130 then fld x.measure (8 * (off - 0x100)) 32
  else if 0x400 ≤ off ∧ off < 0x800 then
    match x.bounce[(off - 0x400) / 16]? with
    | none => 0
    | some b =>
      if off % 16 = 0 then BitVec.ofNat 32 b.func.val ||| 16
      else if off % 16 = 4 then b.base.setWidth 32
      else if off % 16 = 8 then b.len.setWidth 32
      else 0
  else 0

/-- STATE_CHANGE where SEC_STATE has changed, and KEYSLOT where SEC_KEY_VALID has. -/
def State.secEvents (old : Sec) (s : State) : State :=
  let s := if old.state != s.sec.state then s.raise .sec 1 else s
  if old.keyValid != s.sec.keyValid then s.raise .sec 2 else s

/-- The security engine changed, with its page's events. -/
def State.setSec (s : State) (f : Sec → Sec) : State := State.secEvents s.sec (s.modSec f)

/-! ### Messages (R457 to R459) -/

/-- The answer to a message. -/
def State.reply (s : State) (result : Byte) (data : List Byte) : State :=
  s.modSec fun x => { x with reply := ⟨result, data⟩ }

/-- A session is open on a path; PF0's DOE mailbox is reached through the endpoint, and a network that is silent carries
nothing. -/
def State.session (s : State) (p : SpdmPath) : Bool :=
  match p with
  | .management => s.sec.mgmt && s.awake
  | .doe => s.sec.doe.isSome && s.fnEnabled 0 && !s.host.lost

/-- An owner message that its sender signs (R456 to R458, R462): busy while wedging, then the ownership state,
the nonce, and the signature; the nonce is used up. `go` carries it out. -/
def State.ownerMessage (s : State) (stateOk : Bool) (key : Option (BitVec 776)) (code : Byte)
    (payload : List Byte) (sig : BitVec 768) (go : State → State) : State :=
  if !s.session .management then s
  else if s.sec.busy then s.reply 4 []
  else if !stateOk then s.reply 3 []
  else
    let n := s.sec.nonce
    let s := s.modSec fun x => { x with nonce := none }
    match n, key with
    | some (v, t), some k =>
      if 60 * 10 ^ 9 < (s.time - t).toNat then s.reply 2 []
      else if Config.ecdsaOk k (code :: payload ++ leBytes v 32) sig then go s
      else s.reply 1 []
    | _, _ => s.reply 2 []

/-- GET_NONCE (R457, R458). -/
def execGetNonce (s : State) : Host.Outcome State Fault Refusal :=
  if !s.session .management then .next s
  else if s.sec.busy then .next (s.reply 4 [])
  else
    let v : BitVec 256 := Config.freeBits 256 s.free
    let s := { s with free := s.free + 1 }
    .next ((s.modSec fun x => { x with nonce := some (v, s.time) }).reply 0 (leBytes v 32))

/-- The window for CLAIM: 600 s from the end of the cold reset (R456). -/
def State.claimWindow (s : State) : Bool := s.sec.claimOpen && !s.passed s.sec.opened 600000000

/-- CLAIM (R456): within the claim window, signed with the key that it carries. -/
def execClaim (key : BitVec 776) (sig : BitVec 768) (s : State) : Host.Outcome State Fault Refusal :=
  .next (s.ownerMessage (s.sec.owner.isNone && s.claimWindow) (some key) 0x02 (beBytes key) sig fun s =>
    (s.setSec fun x => { x with owner := some key, epoch := 0 }).reply 0 [])

/-! ### Wedging (R460 to R462) -/

/-- A page that step 4 of R490 finds as wedging found it: those of the steps before it, those that firmware enables, and
the functions' own, which go with their configuration spaces. DEDUCED: R460 names no page, and R490 returns every page to
step 4. -/
def wedgeKeeps : PageClass → Bool
  | .chip | .mgmt | .sec | .pcie | .memc _ | .island _ | .fn _ => true
  | _ => false

/-- A page's lock and write-once state reset (R66), with its checks dropped. -/
def Page.unlocked (p : Page) : Page :=
  { p with lock := false, written := [], checking := [], held := [], lockNext := false }

/-- A page as step 4 finds it (R388, R454, R460, R490). The Vabor ports stay enabled, for firmware enables them again, and
keep their domain. -/
def Page.atStep4 (p : Page) (c : PageClass) : Page :=
  let peer := match c with
    | .peer _ => true
    | _ => false
  let left (t : Tab Word) : Tab Word := if peer then t.filter fun e => e.1 == 0x060 else []
  { p with
    enable := p.enable && peer, active := p.active && peer, irqEnable := 0
    staged := left p.staged, live := left p.live }

/-- Every page's lock and write-once state reset, and the driver's pages returned to how step 4 finds them (R66, R460). -/
def State.wedgePages (s : State) : State :=
  let page (no : Nat) (p : Page) : Page :=
    match pageClass no with
    | some c => if wedgeKeeps c then p.unlocked else p.unlocked.atStep4 c
    | none => p.unlocked
  let s := { s with pages := Tab.mapVals {} page s.pages }
  s.modBoard fun b => { b with mtxSaved := [] }

/-- What `f` does, raising no interrupt and changing no service register (R460). -/
def State.quietly (s : State) (f : State → State) : State :=
  let t := f (s.modHost fun h => { h with msixEn := 0 })
  let t := { t with pages := Tab.mapVals {} (fun no p => { p with irqStatus := (s.page no).irqStatus }) t.pages }
  (t.modHost fun h => { h with msixEn := s.host.msixEn }).modBoard fun b => { b with svc := s.board.svc }

/-- A partition as wedging leaves it: no recovery, no replay, no dump (R460, R530, R535). -/
def PartState.wedged (x : PartState) : PartState :=
  { x with
    run := if x.offline then .offline else .serving
    step := 0, dumpValid := false, dumpLost := false, dump := none, suspects := [], bystanders := []
    replayed := [], replayCore := none, castle := [], later := [], back := [] }

/-- Phase 2 (R460): work stops; castlings, firings and recoveries end, and the Vabor ports go DOWN. -/
def State.wedgeStop (s : State) : State :=
  let s := (List.finRange 2).foldl State.abandonCastling s.dropFirings
  let s := (List.finRange 4).foldl (fun s p => (s.setHang p false).modPart p PartState.wedged) s
  (List.finRange 4).foldl State.portDown s

/-- Phases 2 and 3 (R460): work stops and is dropped without records, signals or interrupts; tiles, objects,
rings, queues and configuration spaces are reset. -/
def State.wedgeClear (s : State) : State :=
  let s := s.quietly State.wedgeStop
  let cores := Vector.ofFn fun (t : Tile) => (s.cores.get t).resetTile t
  let s := { s with cores := cores, rings := [], disp := {}, sync := {} }
  let s := s.modBoard fun b => { b with mesh := [], answers := [], retried := [] }
  let s := s.modPeer fun p => { p with queues := [] }
  let units := s.hbm.units.map fun u => { u with tlb := [], selfRefresh := false }
  let s := { s with hbm := { s.hbm with queue := [], units := units } }
  let s := s.modHost fun h => { (List.finRange 16).foldl Endpoint.resetFn h with flr := 0 }
  s.wedgePages

/-- Phase 4 (R460): model keys and bounce regions cleared, MODE set; a new alias key ends every session. -/
def State.wedgeSec (s : State) : State :=
  match s.sec.next with
  | none => s
  | some n => s.setSec fun x =>
    { x with
      keys := [], bounce := [], mode := n.mode, aliasMode := n.mode, phase := 5
      mgmt := x.mgmt && x.aliasMode == n.mode
      doe := if x.aliasMode == n.mode then x.doe else none }

/-- Phase 1: the flag written, and BOOT's behaviour of the endpoint; phases 2 to 4 follow (R460). -/
def State.beginWedging (s : State) (n : NextTenancy) : State :=
  let now := s.time
  let s := s.setSec fun x => { x with
    wedging := true, flag := true, next := some n, phase := 1, wedgeFrom := now }
  s.wedgeClear.wedgeSec

/-- The final step (R460): interleave sets, the placement mode, D and service; the tenancy as it is now. -/
def State.endWedging (s : State) (bad : List (Fin 64)) : State :=
  let new := bad.eraseDups.filter fun c => s.channelIn ⟨c.val / 16, by omega⟩ (c.val % 16)
  let s := s.modBoard fun b => { b with channelsOut := b.channelsOut ++ new }
  let s := new.foldl (fun s c => (s.raise (.memc c.val) 4).log { cls := 5, code := 3, page := .memc c.val }) s
  let units := Vector.ofFn fun (p : Part) => { s.hbm.units.get p with
    set := (List.finRange 16).filter fun c => s.channelIn p c.val }
  let s := { s with hbm := { s.hbm with units := units, wide := false, modeLatched := false } }
  let us := BitVec.ofNat 32 (min ((s.time - s.sec.wedgeFrom).toNat / 1000) (2 ^ 32 - 1))
  let s := match s.sec.next with
    | none => s.setSec fun x => { x with flag := false, wedging := false, phase := 0, wedgeUs := us }
    | some n => s.setSec fun x => { x with
        owner := if n.owned then x.owner else none
        tenant := n.tenant
        kept := n.mode
        epoch := if n.tenant.isSome then x.epoch + 1 else x.epoch
        flag := false, next := none, wedging := false, phase := 0, wedgeUs := us }
  let s := (s.settleDeficits.evalService 0x09 false).raise .sec 1
  (List.finRange 4).foldl (fun s q =>
    if s.enabled (.peer q.val) && (s.port q).run == .down then s.setPort q .detect id else s) s

/-- RELEASE (R455). -/
def execRelease (sig : BitVec 768) (s : State) : Host.Outcome State Fault Refusal :=
  .next (s.ownerMessage s.sec.owner.isSome s.sec.owner 0x03 [] sig fun s =>
    (s.reply 0 []).beginWedging ⟨false, none, .standard⟩)

/-- ASSIGN_TENANT (R455, R463). -/
def execAssignTenant (key : BitVec 776) (saggar : Byte) (sig : BitVec 768) (s : State) :
    Host.Outcome State Fault Refusal :=
  .next (s.ownerMessage s.sec.owner.isSome s.sec.owner 0x04 (beBytes key ++ [saggar]) sig fun s =>
    if saggar.toNat ≤ 1 then
      (s.reply 0 []).beginWedging ⟨true, some key, if saggar = 1 then .saggar else .standard⟩
    else s.reply 5 [])

/-- END_TENANCY (R455). -/
def execEndTenancy (sig : BitVec 768) (s : State) : Host.Outcome State Fault Refusal :=
  .next (s.ownerMessage (s.sec.owner.isSome && s.sec.tenant.isSome) s.sec.owner 0x05 [] sig fun s =>
    (s.reply 0 []).beginWedging ⟨true, none, .standard⟩)

/-- DEBUG_UNLOCK (R463, R475): a new alias key ends every session. -/
def execDebugUnlock (sig : BitVec 768) (s : State) : Host.Outcome State Fault Refusal :=
  .next (s.ownerMessage s.sec.owner.isSome s.sec.owner 0x06 [] sig fun s =>
    if s.saggar then s.reply 8 []
    else (s.setSec fun x => { x with
      mode := .debug, aliasMode := .debug, keys := [], mgmt := false, doe := none }).reply 0 [])

/-- What HBM holds of the line at DPA `l`, a multiple of 64: the line encrypted in saggar mode, and the line itself
otherwise (R419, R463). `Hbm.mem` is the line as its readers see it; phase 4 switches MODE while no line is read, and
phase 5 then writes every line. -/
def State.cells (s : State) (l : Nat) : List Byte :=
  let line := s.hbmBytes l 64
  if s.saggar then sealLine l line else line

/-- WEDGING_ZERO_DONE (R460 phase 5): every line is zero, and its marks are cleared. -/
def execWedgingZeroDone (s : State) : Host.Outcome State Fault Refusal :=
  if !s.sec.wedging || s.sec.phase != 5 then .next s
  else
    let s := { s with hbm := { s.hbm with mem := [], marks := [], faults := [] } }
    .next (s.setSec fun x => { x with phase := 6 })

/-- WEDGING_VERIFY_DONE (R460 phase 6): channels with a line that failed twice go out of service, and wedging
ends. -/
def execWedgingVerifyDone (failed : List (Fin 64)) (s : State) : Host.Outcome State Fault Refusal :=
  .next (if s.sec.wedging && s.sec.phase == 6 then s.endWedging failed else s)

/-- CLAIM_WINDOW_CLOSE (R456): once its 600 s have passed. -/
def execClaimWindowClose (s : State) : Host.Outcome State Fault Refusal :=
  .next (if s.claimWindow then s else s.setSec fun x => { x with claimOpen := false })

/-! ### Open messages (R457, R458, R470) -/

/-- SPDM_SESSION_ESTABLISH (R457, R459). -/
def execSpdmSessionEstablish (path : SpdmPath) (requester : Option (BitVec 776)) (s : State) :
    Host.Outcome State Fault Refusal :=
  .next (match path with
    | .management => if s.awake then s.modSec fun x => { x with mgmt := true } else s
    | .doe =>
      if s.fnEnabled 0 && !s.host.lost then s.modSec fun x => { x with doe := some requester } else s)

/-- GET_STATE (R458, R462). -/
def execGetState (path : SpdmPath) (s : State) : Host.Outcome State Fault Refusal :=
  .next (if s.session path then
    s.reply 0 ((List.range 112).flatMap fun i => leBytes (s.sec.word (0x040 + 4 * i)) 4) else s)

/-- GET_CERTIFICATE (R470): slot 0 holds the alias certificate's chain; the others are empty. -/
def execGetCertificate (path : SpdmPath) (slot : BitVec 3) (s : State) : Host.Outcome State Fault Refusal :=
  let open_ : Bool := match path with
    | .management => s.awake
    | .doe => s.fnEnabled 0 && !s.host.lost
  .next (if open_ then
    s.reply 0 (if slot = 0 then certificateChain s.sec.measure s.sec.aliasMode.code else []) else s)

/-! ### Tenant messages (R459, R462 to R464, R473) -/

/-- A tenant message: busy while wedging, then whether a tenant is assigned, then whether its session is the
tenant's. -/
def State.tenantMessage (s : State) (go : State → State) : State :=
  if !(s.fnEnabled 0 && !s.host.lost) then s
  else if s.sec.busy then s.reply 4 []
  else match s.sec.tenant with
    | none => s.reply 3 []
    | some k => if s.sec.doe == some (some k) then go s else s.reply 9 []

/-- Two regions overlap; one of no length overlaps none. -/
def Bounce.meets (a b : Bounce) : Bool :=
  a.len != 0 && b.len != 0 && decide (a.base.toNat < b.base.toNat + b.len.toNat) && decide (b.base.toNat < a.base.toNat + a.len.toNat)

/-- No two regions of a set meet. -/
def apart : List Bounce → Bool
  | [] => true
  | b :: l => (l.all fun c => !b.meets c) && apart l

/-- SET_BOUNCE (R464). -/
def execSetBounce (fn : BitVec 4) (regions : List (DWord × DWord)) (s : State) :
    Host.Outcome State Fault Refusal :=
  let mib := 2 ^ 21
  let ok (r : DWord × DWord) : Bool := r.1.toNat % mib == 0 && r.2.toNat % mib == 0 &&
    decide (r.1.toNat + r.2.toNat ≤ 2 ^ 40) && decide (r.1.toNat < 2 ^ 40)
  let f : Func := fn.toFin
  let new : List Bounce := regions.map fun r =>
    ⟨f, BitVec.ofNat 19 (r.1.toNat / mib), BitVec.ofNat 20 (r.2.toNat / mib)⟩
  .next (s.tenantMessage fun s =>
    let rest := s.sec.bounce.filter fun b => b.func != f
    if regions.all ok && decide (regions.length ≤ 8) && decide (rest.length + regions.length ≤ 64) && apart new then
      (s.modSec fun x => { x with bounce := rest ++ new }).reply 0 []
    else s.reply 5 [])

/-- KEY_LOAD (R473). -/
def execKeyLoad (slot : Byte) (fmask : BitVec 16) (eph : BitVec 776) (iv : BitVec 96) (wrapped : BitVec 256)
    (tag : BitVec 128) (s : State) : Host.Outcome State Fault Refusal :=
  .next (s.tenantMessage fun s =>
    match unwrapKey s.sec.measure s.sec.aliasMode.code slot fmask eph iv wrapped tag with
    | none => s.reply 6 []
    | some k =>
      if 63 < slot.toNat then s.reply 5 []
      else if (Tab.get none s.sec.keys slot.toNat).isSome then s.reply 7 []
      else (s.setSec fun x => { x with keys := Tab.set none x.keys slot.toNat (some ⟨fmask, k⟩) }).reply 0 [])

/-- KEY_CLEAR (R458). -/
def execKeyClear (slot : Byte) (s : State) : Host.Outcome State Fault Refusal :=
  .next (s.tenantMessage fun s =>
    if 63 < slot.toNat then s.reply 5 []
    else (s.setSec fun x => { x with keys := Tab.set none x.keys slot.toNat none }).reply 0 [])

/-- DUMP_READ as a tenant message (R458). -/
def execTenantDumpRead (part : Byte) (off : Word) (s : State) : Host.Outcome State Fault Refusal :=
  .next (s.tenantMessage fun s =>
    if h : part.toNat < 4 then
      if off.toNat % 64 = 0 ∧ off.toNat < 0x80000 then
        let n := min 1024 (0x80000 - off.toNat)
        s.reply 0 ((List.range n).map fun i => (s.part ⟨part.toNat, h⟩).dumpByte (off.toNat + i))
      else s.reply 5 []
    else s.reply 5 [])

end Sys2Proof.Machine
end

