-- ==== Sys2Proof/Machine/Boot.lean ====
section
/-! DEFINITION. Resets, boot, flash slots, the mailbox and the management watchdog (R430, R477 to R489, R550,
R551, R554). -/

namespace Sys2Proof.Machine

/-- The management controller changed. -/
def State.modMgmt (s : State) (f : Mgmt → Mgmt) : State := { s with mgmt := f s.mgmt }

/-- The flash changed. -/
def State.modFlash (s : State) (f : Flash → Flash) : State := s.modMgmt fun m => { m with flash := f m.flash }

/-! ### Slots and images (R478, R479) -/

/-- The regions of the flash (R478). -/
inductive FlashRegion where
  | header (copy : Fin 2) | slot (b : Bool) | log | kiln | tenancy
  deriving DecidableEq, Repr

/-- Where a region begins, and its size. -/
def FlashRegion.extent : FlashRegion → Nat × Nat
  | .header 0 => (0x00000000, 0x1000)
  | .header 1 => (0x00001000, 0x1000)
  | .slot false => (0x00010000, 0x1000000)
  | .slot true => (0x01010000, 0x1000000)
  | .log => (0x02010000, 0x100000)
  | .kiln => (0x02110000, 0x100000)
  | .tenancy => (0x02210000, 0x10000)

/-- The region of a flash offset, and the offset in it. -/
def flashRegion (off : Nat) : Option (FlashRegion × Nat) :=
  ([.header 0, .header 1, .slot false, .slot true, .log, .kiln, .tenancy].find? fun r : FlashRegion =>
    decide (r.extent.1 ≤ off) && decide (off < r.extent.1 + r.extent.2)).map fun r => (r, off - r.extent.1)

/-- The size of a slot. -/
def slotSize : Nat := (FlashRegion.slot false).extent.2

/-- A byte of a slot; an erased byte is 0xFF. -/
def Slot.byte (x : Slot) (off : Nat) : Byte :=
  match Tab.get none x.bytes off with
  | some b => b
  | none => if x.factory then Config.factoryByte off else 0xFF

/-- Bytes of a slot. -/
def Slot.read (x : Slot) (off n : Nat) : List Byte := (List.range n).map fun i => x.byte (off + i)

/-- Bytes of a slot written. -/
def Slot.write (x : Slot) (off : Nat) (bs : List Byte) : Slot :=
  { x with bytes := Tab.setRange none x.bytes off (bs.map some) }

/-- The slot has unreadable bytes among `n` from `off` on. -/
def Slot.tornIn (x : Slot) (off n : Nat) : Bool :=
  x.torn.any fun b => decide (off < 2048 * (b + 1)) && decide (2048 * b < off + n)

/-- A block of the slot erased and programmed anew (R487). -/
def Slot.program (x : Slot) (off : Nat) (bs : List Byte) : Slot :=
  { x.write off bs with torn := x.torn.filter (· != off / 2048) }

/-- A slot of the flash: true names B. -/
def Flash.slot (x : Flash) (b : Bool) : Slot := if b then x.slotB else x.slotA

/-- A slot of the flash changed. -/
def Flash.modSlot (x : Flash) (b : Bool) (f : Slot → Slot) : Flash :=
  if b then { x with slotB := f x.slotB } else { x with slotA := f x.slotA }

/-- A new boot header written, to the copy that does not hold the highest valid sequence number (R478). -/
def Flash.header (x : Flash) (f : BootHeader → BootHeader) : Flash :=
  let h := x.inForce
  { x with copies := x.copies.set (1 - x.newest.val) { f h with seq := h.seq + 1, crcDiff := 0 } (by omega) }

/-- A header write that a loss of power cuts short (R478): the CRC-32 of its copy no longer fits. -/
def Flash.tearHeader (x : Flash) : Flash :=
  { x with copies := x.copies.set (1 - x.newest.val) { x.copies.get ⟨1 - x.newest.val, by omega⟩ with crcDiff := 1 } (by omega) }

/-- The bytes of a copy of the boot header with its CRC-32 (R478). DESIGN CHOICE: R478 gives the fields no places; they are
bytes 0, 1 and 2, with 0, 1 and 2 for no slot, A and B, and the words at 4 and 8. -/
def BootHeader.bytes (h : BootHeader) : List Byte :=
  let name (b : Bool) : Byte := if b then 2 else 1
  let body := [name h.active, (h.pending.map name).getD 0, h.tries.setWidth 8, 0] ++ leBytes h.seq 4
  body ++ leBytes (Config.crc32 body ^^^ h.crcDiff) 4

/-- The word at an offset. -/
def Slot.word (x : Slot) (off : Nat) : Word := leVal 32 (x.read off 4)

/-- Where the four images of a slot begin: one after the other, each its header and body. -/
def Slot.images (x : Slot) : List Nat :=
  let next (o : Nat) : Nat := min slotSize (o + 256 + (x.word (o + 0x10)).toNat)
  let b := next 0
  let c := next b
  [0, b, c, next c]

/-- The bundle version and the SVN of a slot's first image. -/
def Slot.version (x : Slot) : Word := x.word 0x08

/-- The SVN of a slot. -/
def Slot.svn (x : Slot) : Byte := (x.word 0x0C).setWidth 8

/-- The error of one image, number `k` at `off`, by MGMT_BOOT.ERR; 0 where it passes (R479, R480, R485). DESIGN CHOICE: the
flash cannot be read where power was lost while it was programmed. -/
def Slot.checkImage (x : Slot) (fused : Byte) (k off : Nat) : Byte :=
  let len := (x.word (off + 0x10)).toNat
  if x.tornIn off (256 + len) then 0x05
  else if x.word off ≠ 0x58534B46 ∨ (x.word (off + 4)).toNat ≠ k + 1 ∨ x.word (off + 8) ≠ x.version ∨
      x.word (off + 0xC) ≠ x.word 0x0C ∨ 255 < (x.word (off + 0xC)).toNat ∨ slotSize < off + 256 + len then 0x01
  else if !Config.ecdsaOk Config.fwKey (x.read off 0x60) (leVal 768 (x.read (off + 0x60) 96)) then 0x02
  else if Config.sha384 (x.read (off + 256) len) ≠ leVal 384 (x.read (off + 0x20) 48) then 0x03
  else if x.svn.toNat < fused.toNat then 0x04
  else 0

/-- The error of a slot: the first of its images'. -/
def Slot.check (x : Slot) (fused : Byte) : Byte :=
  let is := x.images
  (((List.range 4).map fun k => x.checkImage fused k (listAt 0 is k)).find? fun b => b != 0).getD 0

/-- The measurement M of a slot (R467). -/
def Slot.measure (x : Slot) : BitVec 384 :=
  x.images.foldl (fun (m : BitVec 384) o =>
    let image := x.read o (256 + (x.word (o + 0x10)).toNat)
    Config.sha384 (leBytes m 48 ++ leBytes (Config.sha384 image) 48)) 0

/-- The headers of a slot's images (R487). -/
def Slot.headers (x : Slot) : List Byte := x.images.flatMap fun o => x.read o 256

/-- The version that MGMT_VER_OTHER shows: 0 for an invalid slot (R485). -/
def Slot.shown (x : Slot) (fused : Byte) : Word := if x.check fused = 0 then x.version else 0

/-! ### The bisque stage (R480 to R482) -/

/-- The slot that the bisque stage tries, with the header as it leaves it (R480). -/
def Flash.try_ (x : Flash) : Bool × Bool × Flash :=
  let h := x.inForce
  match h.pending with
  | none => (h.active, false, x)
  | some b =>
    if h.tries + 1 = 3 then (h.active, false, x.header fun y => { y with pending := none, tries := 3 })
    else (b, true, x.header fun y => { y with tries := y.tries + 1 })

/-- The slot selected, verified and measured, or RECOVERY entered (R480, R481). -/
def State.selectSlot (s : State) : State :=
  let m := s.mgmt
  let t := m.flash.try_
  let flash := t.2.2
  let first := (flash.slot t.1).check m.fused
  let second := (flash.slot !t.1).check m.fused
  let take (b fallback trial : Bool) (err : Byte) : Mgmt := { m with
    flash := flash, selected := true, stage := 1, slot := b, fallback := fallback, trial := trial, err := err
    verActive := (flash.slot b).version, verOther := (flash.slot !b).shown m.fused
    svnActive := (flash.slot b).svn }
  let m' :=
    if first = 0 then take t.1 false t.2.1 0
    else if second = 0 then take (!t.1) true false first
    else { m with flash := flash, selected := true, stage := 15, fallback := true, trial := false, err := first }
  let s := { s with mgmt := m' }
  let s := if m'.stage = 15 then s else s.modSec fun x => { x with measure := (flash.slot m'.slot).measure }
  if m'.flash.inForce.pending != m.flash.inForce.pending || m'.fallback != m.fallback then s.raise .mgmt 2 else s

/-- The nominal voltages of the rails in mV (R497, R553). -/
def railNominal (r : Nat) : Nat :=
  if r < 5 then 750 else if r = 5 then 800 else if r = 6 then 1100 else if r = 7 then 400
  else if r = 8 then 1800 else if r = 9 then 750 else if r = 10 then 1200 else if r = 11 then 1800 else 3300

/-- The rails of the last firing in the kiln log. -/
def Clocks.lastRails (k : Clocks) : Option (List (BitVec 12)) :=
  k.kiln.reverse.findSome? fun r => match r.body with
    | .summary _ v _ => if r.valid then some v else none
    | .islands _ => none

/-- Rails and set points at the operating points of the last firing, or nominal, with the references running
(R482 step 2). -/
def State.startClocks (s : State) : State :=
  let last := s.clocks.lastRails
  let mv (r : Nat) : BitVec 12 := match last with
    | some v => if r < 5 then listAt (BitVec.ofNat 12 750) v r
      else if r = 5 then BitVec.ofNat 12 (sramFor (v.map BitVec.toNat)) else BitVec.ofNat 12 (railNominal r)
    | none => BitVec.ofNat 12 (railNominal r)
  let s := s.modClk fun k => { k with
    ref100 := true, xtal25 := true, locked := true
    rails := Vector.ofFn fun r => { k.rails.get r with set := mv r.val } }
  if last.isNone then s
  else (List.range 272).foldl (fun s i =>
    let e := (s.isl i).entry
    if e.1 = 0 then s else s.modIsl i fun x => { x with fset := e.1 }) s

/-- Boot starts (R477, R480, R482, R507, R550, R551): straps sampled, a slot selected, and system firmware started, which
starts clocks and asks for the boot's firing; RECOVERY starts none. A MFG_TEST strap puts an UNCLAIMED device into
production test. -/
def State.bootStart (s : State) : State :=
  let mfg := s.pins.mfgTest
  if mfg && s.sec.owner.isNone then { s with pins := { s.pins with prodTest := true } }
  else
    let s := if mfg then s.log { cls := 3, code := 0, page := .mgmt } else s
    let s := s.modMgmt fun m => { m with bootFrom := s.time }
    let s := s.selectSlot
    if s.mgmt.stage = 15 then s else s.startClocks.askFiring ⟨fullGroups, true, 5⟩

/-! ### Cold reset (R35, R66, R73, R322, R388, R393, R454, R477, R530, R534) -/

/-- The whole device reset; `power` says that power was lost. Flash keeps its contents, and without a loss of
power a thermal trip's gating stays with its pin (R504): slots and headers, log
records that had reached it, the kiln log, owner and tenancy records. Remap tables are built again from fuses and that
log (R322), HBM row repairs are applied again from it (R411), and failed islands stay until boot tests them. -/
def State.coldReset (s : State) (power : Bool) : State :=
  let r := State.reset
  let cores : Vector Core 34 := Vector.ofFn fun t => { ({} : Core) with
    remap := remapAtBoot t (s.cores.get t).remap (s.journal.flash.filterMap (·.2)) }
  let repaired (i : Nat) : List Nat := (LogRec.inOrder ((s.journal.flash.filterMap (·.2)).filter fun r =>
    r.cls == 7 && r.code == 1 && r.page == BitVec.ofNat 16 (pageNo (.memc i)))).map (·.addr.toNat)
  let channels : Tab Channel := (List.range 64).foldl (fun t i =>
    Tab.set {} t i { ({} : Channel) with repairs := repaired i }) []
  let parts : Vector PartState 4 := Vector.ofFn fun p =>
    let x := s.parts.get p
    if power then {} else { ({} : PartState) with
      dump := x.dump, dumpValid := x.dumpValid, dumpLost := x.dumpLost, hangInfo := 0 }
  let isl : Tab Isl := (List.range 294).foldl (fun t i =>
    let x := s.isl i
    Tab.set (islReset i) t i { islReset i with
      entry := x.entry, failed := !s.islandOk i, gated := !power && s.pins.thermtrip && x.gated }) []
  { r with
    pending := s.pending
    free := s.free
    dumpSerial := s.dumpSerial
    cores := cores
    hbm := { r.hbm with channels := channels }
    parts := parts
    board := { r.board with islandsOut := s.board.islandsOut }
    journal := { r.journal with
      places := s.journal.flash, flash := s.journal.flash, seq := s.journal.seq, spoiled := s.journal.spoiled }
    sec := { r.sec with
      owner := s.sec.owner, tenant := s.sec.tenant, flag := s.sec.flag, next := s.sec.next
      kept := s.sec.kept, mode := s.sec.kept, aliasMode := s.sec.kept, epoch := s.sec.epoch }
    mgmt := { r.mgmt with flash := s.mgmt.flash, fused := s.mgmt.fused }
    pins := { s.pins with prodTest := false }
    clocks := { r.clocks with
      isl := isl, kiln := s.clocks.kiln, kilnSeq := s.clocks.kilnSeq, kilnStart := s.clocks.kilnStart, number := s.clocks.number
      full := s.clocks.full } }

/-- A pin level changed. -/
def State.modPins (s : State) (f : Pins → Pins) : State := { s with pins := f s.pins }

/-- PERST_N asserted (R430, R477). -/
def execPerstN (s : State) : Host.Outcome State Fault Refusal :=
  .next (if s.pins.perstN then (s.coldReset false).modPins fun p => { p with perstN := false } else s)

/-- Straps sampled at the start of boot (R550). -/
def State.straps (s : State) (peerId : BitVec 3) (mfgTest : Bool) : State :=
  (s.modPins fun p => { p with peerId := peerId, mfgTest := mfgTest }).modPeer fun p => { p with master := peerId }

/-- PERST_N_DEASSERT (R430, R477, R550): boot starts with PWR_OK high. -/
def execPerstNDeassert (peerId : BitVec 3) (mfgTest : Bool) (s : State) : Host.Outcome State Fault Refusal :=
  if s.pins.perstN then .next s
  else
    let s := s.modPins fun p => { p with perstN := true }
    .next (if s.pins.pwrOk then (s.straps peerId mfgTest).bootStart else s)

/-- POWER_ON (R477, R552, R554): PWR_OK rises and QSPI_RST_N with it; boot starts with PERST_N deasserted. -/
def execPowerOn (peerId : BitVec 3) (mfgTest : Bool) (s : State) : Host.Outcome State Fault Refusal :=
  if s.pins.pwrOk then .next s
  else
    let s := (s.coldReset true).modPins fun p => { p with pwrOk := true, hiZ := false, qspiRstN := true }
    .next (if s.pins.perstN then (s.straps peerId mfgTest).bootStart else s)

/-- The slot that is not running; slot A in RECOVERY (R480, R487). -/
def Mgmt.other (m : Mgmt) : Bool := if m.stage = 15 then false else !m.slot

/-- The log's places whose latest state has not reached flash (R523). -/
def Journal.due (j : Journal) : List Nat :=
  j.places.filterMap fun e => match e.2 with
    | some r => if r.flushed then none else some e.1
    | none => none

/-- What a loss of power does to the flash: a command that programs it may be cut short, in a block of a slot or in a
header (R478), and so may the records on their way into the log (R483) and the newest record of the kiln log (R511), which is left open.
DESIGN CHOICE: a kiln record is on its way for 1 ms. -/
def State.tearFlash (s : State) : State :=
  let cut (i : Nat) : Bool := Config.freeBool (s.free + i)
  let b := s.mgmt.other
  let m := match s.mgmt.cmd with
    | none => s.mgmt
    | some c =>
      if !cut 0 then s.mgmt
      else if c.op = 2 ∧ c.arg.toNat < slotSize then
        { s.mgmt with flash := s.mgmt.flash.modSlot b fun x => { x with torn := c.arg.toNat / 2048 :: x.torn } }
      else if c.op = 3 ∨ c.op = 4 then { s.mgmt with flash := s.mgmt.flash.tearHeader }
      else s.mgmt
  let kiln := s.clocks.kiln.reverse
  let kiln := match kiln with
    | r :: l => if !s.passed r.time 1000 && cut 1025 then { r with crcDiff := 1 } :: l else kiln
    | [] => []
  let lost := s.journal.due.filter fun i => cut (1 + i)
  { s with
    mgmt := m
    journal := { s.journal with
      flash := lost.foldl (fun t i => Tab.set none t i none) s.journal.flash
      spoiled := s.journal.spoiled ++ lost }
    clocks := { s.clocks with kiln := kiln.reverse }
    free := s.free + 1026 }

/-- PWR_OK_FALL (R478, R483, R504, R552, R554): a cold reset; every output but THERMTRIP_N at high impedance, with the
flash held in reset by QSPI_RST_N. -/
def execPwrOkFall (s : State) : Host.Outcome State Fault Refusal :=
  if !s.pins.pwrOk then .next s
  else .next ((s.tearFlash.coldReset true).modPins fun p => { p with
    pwrOk := false, thermtrip := false, hiZ := true, qspiRstN := false })

/-- TRIAL_TIMEOUT (R489): a trial boot that has not left BOOT within 3 s is reset and booted again. -/
def execTrialTimeout (s : State) : Host.Outcome State Fault Refusal :=
  .next (if s.board.svc.state == .boot && s.mgmt.trial && s.pins.pwrOk && s.pins.perstN &&
      s.passed s.mgmt.bootFrom 3000000 then
    (s.coldReset false).bootStart else s)

/-! ### The end of boot (R393, R430, R456, R482, R483, R489) -/

/-- The islands of the banks that repair load has left without a spare row (R320, R483). -/
def State.overfull (s : State) : List Island :=
  (List.finRange 34).flatMap fun t =>
    (remapLoad t (s.core t).remap (s.journal.flash.filterMap (·.2))).2.map (bankIsland t)

/-- Log records that fail their CRC are skipped, which is logged (R483): class 7, with the code of a flash read (R485) and
the place. DESIGN CHOICE: R483 names no class and no code. -/
def State.skipSpoiled (s : State) : State :=
  let s' := s.journal.spoiled.foldl (fun s i =>
    s.log { cls := 7, code := 5, page := .mgmt, info0 := BitVec.ofNat 64 i }) s
  { s' with journal := { s'.journal with spoiled := [] } }

/-- Islands that failed boot BIST or repair load and those that passed, and channels that failed training (R482 steps 3 to
5). -/
def State.bootFail (s : State) (badIslands : List Island) (badChannels : List (Fin 64)) : State :=
  let s := s.passIslands ((List.finRange 294).filter fun i => !badIslands.contains i)
  let s := (badIslands ++ s.overfull).eraseDups.foldl (fun s i => if s.islandOk i.val then s.markFailed i else s) s
  let s := s.modBoard fun b => { b with channelsOut := badChannels.eraseDups }
  badChannels.eraseDups.foldl (fun s c =>
    (s.raise (.memc c.val) 4).log { cls := 5, code := 3, page := .memc c.val }) s

/-- Spares that failed, then cores replaced by castling without a copy (R482 step 5, R542). DESIGN CHOICE: any failed island
makes a spare FAILED (R28), and at boot a core whose matrix array alone fails, with no spare, stays in service without it
(R32, R33); R482 says neither. -/
def State.bootCastle (s : State) : State :=
  let s := (List.finRange 2).foldl (fun s i =>
    if s.tileWhole (spareTile i) then s
    else s.modSpare i fun p => { p with state := .failed }) s
  (List.finRange 32).foldl (fun s n =>
    let t := s.tileOf n
    if s.tileWhole t then s
    else match s.spareFor with
      | some _ => s.castleBare n
      | none =>
        if s.tileCoreOk t then s.updateMap n fun m => { m with mtxOut := true }
        else s.updateMap n fun m => { m with out := true }) s

/-- Pages that system firmware enables at boot (R421, R437, R485, R516). -/
def bootPages : List PageClass :=
  [.pcie, .mgmt] ++ (List.range 64).map .memc ++ (List.range 34).map .island

/-- Interleave sets fixed, HBM zero, the core runtime written where a partition is in service, and every context set up (R393, R482 steps 5 to
7). -/
def State.bootFill (s : State) : State :=
  let units := Vector.ofFn fun (p : Part) => { s.hbm.units.get p with
    set := (List.finRange 16).filter fun c => s.channelIn p c.val }
  let cores := Vector.ofFn fun (t : Tile) => (s.cores.get t).resetTile t
  let s := { s with cores := cores, hbm := { s.hbm with units := units, mem := [], marks := [], faults := [] } }
  let s := (List.finRange 4).foldl (fun s p => s.modPart p fun x => { x with runtime := s.partIn p }) s
  bootPages.foldl (fun s c => s.modPage (pageNo c) fun p => { p with enable := true, active := true }) s

/-- The security engine at the end of boot: a wedging whose flag is set completes (R456, R462). -/
def State.bootSec (s : State) : State :=
  if s.sec.flag then s.wedgeSec.endWedging [] else s

/-- A trial slot confirmed (R489). -/
def State.confirm (s : State) : State :=
  if !s.mgmt.trial then s
  else
    let m := s.mgmt
    let up := decide (m.fused.toNat < m.svnActive.toNat)
    let s := s.modMgmt fun m => { m with
      trial := false
      flash := m.flash.header fun h => { h with active := m.slot, pending := none, tries := 0 }
      fused := if up then m.svnActive else m.fused }
    (s.modMgmt fun m => { m with verOther := (m.flash.slot !m.slot).shown m.fused }).raise .mgmt 2

/-- The boot's firing ends with a full snapshot in the kiln log (R482, R512). -/
def State.endBootFiring (s : State) : State :=
  match s.clocks.firing with
  | none => s
  | some f =>
    if f.req.cause != 5 then s
    else
      let s := s.recordFiring 5 f.number true
      s.modClk fun k => { k with firing := none }

/-- BOOT_COMPLETE (R35, R482, R489): the device leaves BOOT, and what regulators have failed meanwhile takes effect (R499).
Where no slot has been selected yet, boot starts here. In RECOVERY, in production test, under reset and with islands gated by
a thermal trip it does not complete. -/
def execBootComplete (badIslands : List Island) (badChannels : List (Fin 64)) (s : State) :
    Host.Outcome State Fault Refusal :=
  if s.board.svc.state != .boot || !s.pins.pwrOk || !s.pins.perstN || s.pins.thermtrip then .next s
  else
    let s := if s.mgmt.selected || s.pins.prodTest then s else s.bootStart
    if s.mgmt.stage = 15 ∨ s.pins.prodTest then .next s
    else
      let s := ((s.skipSpoiled.bootFail badIslands badChannels).endBootFiring.bootCastle).bootFill
      let s := s.bootSec.settleDeficits
      let us := BitVec.ofNat 32 (min ((s.time - s.mgmt.bootFrom).toNat / 1000) (2 ^ 32 - 1))
      let s := s.modMgmt fun m => { m with stage := 8, bootUs := us }
      let s := (s.evalService 0 true).confirm
      let s := (s.setSec fun x => { x with claimOpen := true, opened := s.time }).pumpFiring
      .next (s.clocks.faulty.foldl State.railFault (s.modClk fun k => { k with faulty := [] }))

/-! ### The mailbox (R486, R487) -/

/-- GO (R486): dropped with OVERRUN while a command runs. -/
def State.mbGo (s : State) (op : Byte) : State :=
  if s.mgmt.cmd.isSome then s.raise .mgmt 4
  else
    let len := fld (s.staged .mgmt 0x080) 8 12
    let arg := s.staged .mgmt 0x084
    let v := setFld (s.staged .mgmt 0x080) 0 op
    let s := s.modPage (pageNo .mgmt) fun p => { p with
      staged := Tab.set 0 p.staged 0x080 v, live := Tab.set 0 p.live 0x080 v }
    s.modMgmt fun m => { m with cmd := some ⟨op, len, arg⟩ }

/-- A command submitted by a row of its own: OP and GO written. -/
def State.mbSubmit (s : State) (w : Who) (op : Byte) : State := if s.mayWrite w .mgmt then s.mbGo op else s

/-- GET_INFO (R487). -/
def execGetInfo (w : Who) (s : State) : Host.Outcome State Fault Refusal := .next (s.mbSubmit w 0x01)

/-- FW_WRITE (R487). -/
def execFwWrite (w : Who) (s : State) : Host.Outcome State Fault Refusal := .next (s.mbSubmit w 0x02)

/-- FW_COMMIT (R487). -/
def execFwCommit (w : Who) (s : State) : Host.Outcome State Fault Refusal := .next (s.mbSubmit w 0x03)

/-- FW_CANCEL (R487). -/
def execFwCancel (w : Who) (s : State) : Host.Outcome State Fault Refusal := .next (s.mbSubmit w 0x04)

/-- LOG_READ (R487). -/
def execLogRead (w : Who) (s : State) : Host.Outcome State Fault Refusal := .next (s.mbSubmit w 0x05)

/-- DUMP_READ (R487). -/
def execDumpRead (w : Who) (s : State) : Host.Outcome State Fault Refusal := .next (s.mbSubmit w 0x06)

/-- The 64 bytes of a log record (R522); zeros for an empty place. -/
def logBytes (r : Option LogRec) : List Byte :=
  match r with
  | none => List.replicate 64 0
  | some r =>
    let w1 : Word := r.cls.setWidth 32 ||| (b2v 32 r.ack <<< 3) ||| (b2v 32 (r.count != 1) <<< 4) |||
      (r.code.setWidth 32 <<< 8) ||| (r.page.setWidth 32 <<< 16)
    let w2 : Word := r.island.setWidth 32 ||| (r.func.setWidth 32 <<< 9) ||| (r.count.setWidth 32 <<< 16)
    let b := leBytes r.seq 4 ++ leBytes w1 4 ++ leBytes w2 4 ++ leBytes (0 : Word) 4 ++ leBytes r.first 8 ++
      leBytes r.last 8 ++ leBytes r.addr 8 ++ leBytes r.info0 8 ++ leBytes r.info1 8
    b ++ leBytes (Config.crc32 b) 4 ++ leBytes (0 : Word) 4

/-- A byte of the flash in the regions whose layout is given: the boot headers, the slots, the log and the kiln log (R478,
R511, R522); erased bytes are 0xFF. -/
def State.flashByte (s : State) (off : Nat) : Byte :=
  match flashRegion off with
  | some (.header i, o) => ((s.mgmt.flash.copies.get i).bytes[o]?).getD 0xFF
  | some (.slot b, o) => (s.mgmt.flash.slot b).byte o
  | some (.kiln, o) =>
    let i := (o / 256 + 4096 - s.clocks.kilnStart) % 4096
    ((s.clocks.kiln[i]?).bind fun r => r.bytes[o % 256]?).getD 0xFF
  | some (.log, o) =>
    if o < 0x10000 then ((logBytes (Tab.get none s.journal.flash (o / 64)))[o % 64]?).getD 0xFF else 0xFF
  | _ => 0xFF

/-- The buffer's first bytes. -/
def State.mbInput (s : State) (n : Nat) : List Byte :=
  ((List.range ((n + 3) / 4)).flatMap fun i => leBytes (s.staged .mgmt (0x800 + 4 * i)) 4).take n

/-- Output placed in the buffer's first bytes; a word that it covers in part keeps its other bytes (R486). -/
def State.mbOutput (s : State) (out : List Byte) : State :=
  let n := (out.length + 3) / 4
  s.modPage (pageNo .mgmt) fun p =>
    let put (t : Tab Word) (i : Nat) : Tab Word :=
      let old := leBytes (Tab.get 0 t (0x800 + 4 * i)) 4
      let new := (out.drop (4 * i)).take 4
      Tab.set 0 t (0x800 + 4 * i) (leVal 32 (new ++ old.drop new.length))
    let t := (List.range n).foldl put p.staged
    { p with staged := t, live := t }

/-- PENDING changed by a header (R485, R487). -/
def State.setPending (s : State) (p : Option Bool) : State :=
  let old := s.mgmt.flash.inForce.pending
  let s := s.modFlash fun f => f.header fun h => { h with pending := p, tries := 0 }
  if old = p then s else s.raise .mgmt 2

/-- A command carried out (R487): its result and its output. -/
def State.mbRun (s : State) (c : MbCmd) : Byte × List Byte × State :=
  let b := s.mgmt.other
  let fused := s.mgmt.fused
  let arg := c.arg.toNat
  let op := c.op.toNat
  if s.sec.busy then (6, [], s)
  else if op = 1 then
    if [false, true].any fun b => (s.mgmt.flash.slot b).images.any fun o => (s.mgmt.flash.slot b).tornIn o 256 then (5, [], s)
    else (0, s.mgmt.flash.slotA.headers ++ s.mgmt.flash.slotB.headers, s)
  else if op = 2 then
    if arg % 2048 ≠ 0 ∨ 2048 < c.len.toNat ∨ slotSize < arg + c.len.toNat then (2, [], s)
    else
      let bs := s.mbInput c.len.toNat
      let s := s.modFlash fun f => f.modSlot b fun x => x.program arg bs
      (0, [], s.modMgmt fun m => { m with verOther := (m.flash.slot b).shown fused })
  else if op = 3 then
    let e := (s.mgmt.flash.slot b).check fused
    if e = 0 then
      let v := (s.mgmt.flash.slot b).version
      (0, [], (s.setPending (some b)).modMgmt fun m => { m with verOther := v })
    else (if e = 4 then 4 else if e = 5 then 5 else 3, [], s)
  else if op = 4 then
    let s := s.setPending none
    let s := s.modFlash fun f => f.modSlot b fun x =>
      x.images.foldl (fun y o => y.write o (List.replicate 256 0)) x
    (0, [], s.modMgmt fun m => { m with verOther := 0 })
  else if op = 5 then
    if 1024 ≤ arg then (2, [], s)
    else (0, (List.range (min 32 (1024 - arg))).flatMap fun i => logBytes (s.place (arg + i)), s)
  else if op = 6 then
    if s.saggar then (8, [], s)
    else if 0x200000 ≤ arg then (2, [], s)
    else
      (0, (List.range (min 2048 (0x200000 - arg))).map fun i =>
        (s.part ⟨(arg + i) / 0x80000 % 4, Nat.mod_lt _ (by omega)⟩).dumpByte ((arg + i) % 0x80000), s)
  else (1, [], s)

/-- A command ends: BUSY falls, MB_DONE is set (R485, R486). -/
def State.mbEnd (s : State) (result : Byte) (out : List Byte) : State :=
  let s := if out.isEmpty then s else s.mbOutput out
  (s.modMgmt fun m => { m with cmd := none, result := result, rlen := BitVec.ofNat 12 out.length }).raise .mgmt 1

/-- System firmware, or in RECOVERY the bisque stage, serves the command (R480, R486). -/
def State.serves (s : State) (op : Byte) : Bool :=
  if s.mgmt.stage = 15 then op == 2 || op == 3 else decide (2 ≤ s.bootStage.toNat)

/-- MB_DONE (R480, R486, R487). A passing FW_COMMIT in RECOVERY starts boot again. -/
def execMbDone (s : State) : Host.Outcome State Fault Refusal :=
  match s.mgmt.cmd with
  | none => .next s
  | some c =>
    if !s.serves c.op then .next s
    else
      let r := s.mbRun c
      let t := r.2.2.mbEnd r.1 r.2.1
      .next (if s.mgmt.stage = 15 ∧ c.op = 3 ∧ r.1 = 0 then t.bootStart else t)

/-! ### The management watchdog (R484, R510) -/

/-- MGMT_WATCHDOG_EXPIRY (R484): firings and castlings in progress are abandoned, sessions end, a running
mailbox command ends with 0x05, and the restart is logged. -/
def execMgmtWatchdogExpiry (s : State) : Host.Outcome State Fault Refusal :=
  let s := ((List.finRange 2).foldl State.abandonCastling s.dropFirings).evalService 0 false
  let s := s.modSec fun x => { x with mgmt := false, doe := none }
  let s := if s.mgmt.cmd.isSome then s.mbEnd 5 [] else s
  .next ((s.log { cls := 7, code := 0x0A, page := .mgmt }).castleLater.pumpFiring)

end Sys2Proof.Machine
end

