-- ==== Sys2Proof/Machine/CommandRows.lean ====
section
/-! DEFINITION. The rows that submit commands to a core's engines or write their registers (R189,
R197, R234, R264, R273, R307, R309, R329, R332). -/

namespace Sys2Proof.Machine

/-- SPAD_TREG_WRITE (R308): An out.p to SPAD_TREG sets a tag region's bounds unless the region is
tagged, reporting in SPAD_SETUP_STATUS. -/
def execSpadTregWrite (i : Issue) (rs : BitVec 5) (region : BitVec 4) (high : Bool) (s : State) :
    Host.Outcome State Fault Refusal :=
  .next (issue i (.outp rs (0x900 + 8 * region.setWidth 12 + b2v 12 high * 4)) s)

/-- SPAD_MBX_WRITE (R308): An out.p to SPAD_MBX sets up or enables a mailbox after checks, and
clearing EN zeroes its CREDIT and GRANT. -/
def execSpadMbxWrite (i : Issue) (rs : BitVec 5) (mbx : BitVec 6) (high : Bool) (s : State) :
    Host.Outcome State Fault Refusal :=
  .next (issue i (.outp rs (0xA00 + 8 * mbx.setWidth 12 + b2v 12 high * 4)) s)

/-- CR_CNT_WRITE (R309): An out to CR_CNT sets a mailbox's CREDIT, subject to function and EN
checks. -/
def execCrCntWrite (i : Issue) (rs : BitVec 5) (mbx : BitVec 6) (s : State) :
    Host.Outcome State Fault Refusal :=
  .next (issue i (.outAt rs (0x400 + 4 * mbx.setWidth 20)) s)

/-- MJOB (R189): mjob copies a 128-byte matrix job descriptor into the core's matrix queue and
returns its sequence number. -/
def execMjob (i : Issue) (d : BitVec 5) (m : MemAddr) (s : State) :
    Host.Outcome State Fault Refusal :=
  .next (issue i (.mjob d m) s)

/-- MQ_ABORT (R197): A write of MQ_ABORT completes every unstarted job of the writing context as
CANCELLED. -/
def execMqAbort (i : Issue) (rs : BitVec 5) (s : State) : Host.Outcome State Fault Refusal :=
  .next (issue i (.outAt rs 0x20C) s)

/-- TRK_DATA_READ (R235): A read of TRK_DATA word 0 latches the whole tracker record; other words
return the latch. -/
def execTrkDataRead (i : Issue) (rd : BitVec 5) (s : State) : Host.Outcome State Fault Refusal :=
  .next (issue i (.inAt rd 0xF04) s)

/-- TRK_DATA_WRITE (R226): A write through TRK_DATA updates a live tracker word, clamping SCALE and
recomputing INV. -/
def execTrkDataWrite (i : Issue) (rs : BitVec 5) (s : State) : Host.Outcome State Fault Refusal :=
  .next (issue i (.outp rs 0xF04) s)

/-- TRK_STEP (R236): A write of TRK_STEP closes the step of a range of trackers, one per cycle. -/
def execTrkStep (i : Issue) (rs : BitVec 5) (s : State) : Host.Outcome State Fault Refusal :=
  .next (issue i (.outp rs 0xF08) s)

/-- TRK_RESET (R236): A write of TRK_RESET returns a range of trackers to reset values, keeping
configuration and setting SCALE from INIT. -/
def execTrkReset (i : Issue) (rs : BitVec 5) (s : State) : Host.Outcome State Fault Refusal :=
  .next (issue i (.outp rs 0xF0C) s)

/-- SJOB (R264): sjob copies a 128-byte stripe descriptor into the core's stripe queue and returns
its sequence number. -/
def execSjob (i : Issue) (d : BitVec 5) (m : MemAddr) (s : State) :
    Host.Outcome State Fault Refusal :=
  .next (issue i (.sjob d m) s)

/-- SQ_TRIG (R273): A write of SQ_CTRL.TRIG raises the trigger count of stream TSTREAM. -/
def execSqTrig (i : Issue) (rs : BitVec 5) (s : State) : Host.Outcome State Fault Refusal :=
  .next (issue i (.outAt rs 0x21C) s)

/-- SQ_ABORT (R274): A write of SQ_CTRL.ABORT completes every unactivated stripe of the writing
context with status 0x01. -/
def execSqAbort (i : Issue) (rs : BitVec 5) (s : State) : Host.Outcome State Fault Refusal :=
  .next (issue i (.outAt rs 0x21C) s)

/-- DMA (R332): dma copies a 64-byte descriptor into a channel's current or pending slot. -/
def execDma (i : Issue) (d : BitVec 5) (m : MemAddr) (s : State) :
    Host.Outcome State Fault Refusal :=
  .next (issue i (.dma d m) s)

/-- DMAC (R332): dmac starts a descriptor chain in place on a channel. -/
def execDmac (i : Issue) (d : BitVec 5) (m : MemAddr) (s : State) :
    Host.Outcome State Fault Refusal :=
  .next (issue i (.dmac d m) s)

/-- DMA_START (R331): Setting DMA_CH_CTRL.START on an IDLE channel of an enabled page fills its
current slot from the registers; otherwise the start is dropped and counted. -/
def execDmaStart (i : Issue) (rs : BitVec 5) (ch : Fin 8) (s : State) :
    Host.Outcome State Fault Refusal :=
  .next (issue i (.outAt rs (BitVec.ofNat 20 (0x118 + 0x20 * ch.val))) s)

/-- DMA_DISABLE (R350): Setting DMA_CH_CTRL.DISABLE drops the channel's commands and enters
DRAINING. -/
def execDmaDisable (i : Issue) (rs : BitVec 5) (ch : Fin 8) (s : State) :
    Host.Outcome State Fault Refusal :=
  .next (issue i (.outAt rs (BitVec.ofNat 20 (0x118 + 0x20 * ch.val))) s)

/-- DMA_RING (R343): Setting DMA_CH_CTRL.RING re-reads a parked chain's line or sets DBPEND. -/
def execDmaRing (i : Issue) (rs : BitVec 5) (ch : Fin 8) (s : State) :
    Host.Outcome State Fault Refusal :=
  .next (issue i (.outAt rs (BitVec.ofNat 20 (0x118 + 0x20 * ch.val))) s)

end Sys2Proof.Machine
end

