-- ==== Sys2Proof/Machine/Read.lean ====
section
/-! DEFINITION. What a read of BAR0 returns: the access rules, the header, and the registers of every
page (R24 to R28, R37 to R39, R43 to R73, and the register table of each page). -/

namespace Sys2Proof.Machine

/-- The latch that a reader owns on each page: one per function and one for firmware (R41, R67). -/
def Who.reader (w : Who) : Nat :=
  match w with
  | .func f => f.val
  | .firmware => 16

/-- In saggar mode a read through PCI Express shows 0 where a page says so (R463). -/
def State.hides (s : State) (w : Who) : Bool := s.saggar && w != .firmware

/-! ### Counters (R67 to R72) -/

/-- A counter found on a page: of the page itself, or of a ring record (R47, R357). -/
inductive CounterRef where
  | page (i : Nat) (k : CounterKind)
  | ring (r : Nat) (i : Fin 4)
  deriving DecidableEq, Repr

/-- The counter that a word belongs to, and whether the word is its high one. -/
def counterAt (c : PageClass) (off : Nat) : Option (CounterRef × Bool) :=
  match c with
  | .ring k =>
    let r := 16 * k + off / 0x100
    let o := off % 0x100
    if 0x90 ≤ o ∧ o < 0xB0 then some (.ring r ⟨(o - 0x90) / 8 % 4, Nat.mod_lt _ (by omega)⟩, o % 8 == 4)
    else none
  | _ =>
    let l := counterList c
    match l.findIdx? fun e => e.1 == off with
    | some i => some (.page i (l.getD i (0, .wrap64)).2, false)
    | none =>
      match l.findIdx? fun e => e.1 + 4 == off && e.2 != .sat32 with
      | some i => some (.page i (l.getD i (0, .wrap64)).2, true)
      | none => none

/-- The value of a counter as reads see it: the snapshot while HELD is 1 (R70). -/
def State.counterShown (s : State) (c : PageClass) (x : CounterRef) : DWord :=
  let p := s.page (pageNo c)
  match x with
  | .page i _ => Tab.get 0 (if p.snapHeld then p.snapshot else p.counters) i
  | .ring r i =>
    let q := s.ring r
    if p.snapHeld then (match q.snapshot with
      | some v => v.1.get i
      | none => 0)
    else q.counters.get i

/-- The CNT_OVF bits of a page or record, as reads see them. -/
def State.ovfShown (s : State) (c : PageClass) (off : Nat) : Option Word :=
  let p := s.page (pageNo c)
  match c with
  | .ring k =>
    if off % 0x100 = 0x8C then
      let q := s.ring (16 * k + off / 0x100)
      some ((if p.snapHeld then (match q.snapshot with
        | some v => v.2
        | none => 0) else q.ovf).setWidth 32)
    else none
  | _ =>
    match ovfOffset c with
    | none => none
    | some o =>
      let v := if p.snapHeld then p.snapOvf else p.ovf
      if off = o then some (half v false)
      else if off = o + 4 ∧ c = .clk then some (half v true)
      else none

/-- CNT_OVF reads 0 through PCI Express in saggar mode on the pages that say so (R138, R357, R402, R437). -/
def hidesOvf (c : PageClass) : Bool :=
  match c with
  | .core _ | .dat _ | .pcie | .ring _ => true
  | _ => false

/-! ### The header (R46 to R55, R64, R70) -/

/-- BLK_ID.CLASS (R48, R427). -/
def PageClass.code : PageClass → Nat
  | .chip => 0x01 | .mgmt => 0x02 | .sec => 0x03 | .part _ => 0x04 | .dat _ => 0x05 | .peer _ => 0x06
  | .pcie => 0x07 | .clk => 0x08 | .pwr => 0x09 | .bist => 0x0A | .memc _ => 0x0B | .disp => 0x0C
  | .sync => 0x0D | .core _ => 0x10 | .dma _ => 0x11 | .mtx _ => 0x12 | .spad _ => 0x13
  | .stripe _ => 0x14 | .island _ => 0x15 | .perf _ => 0x16 | .syncObj _ => 0x17 | .ring _ => 0x18 | .fn _ => 0x07

/-- BLK_ID.INSTANCE (R48): its low 8 bits for a RING page. -/
def PageClass.inst : PageClass → Nat
  | .part p | .dat p => p
  | .peer q => q
  | .memc i => i
  | .core t | .dma t | .mtx t | .spad t | .stripe t | .island t | .perf t => t
  | .syncObj k => k
  | .ring k => k % 256
  | .fn f => f
  | _ => 0

/-- The block still works off what a clear of ENABLE left it (R140, R223, R292, R355). -/
def State.busy (s : State) (c : PageClass) : Bool :=
  match c with
  | .core t => if h : t < 34 then (match s.lcoreOf ⟨t, h⟩ with
      | some n => !(s.disp.jobs.get n).isEmpty
      | none => false) else false
  | .mtx t => if h : t < 34 then !(s.core ⟨t, h⟩).mtx.queue.isEmpty else false
  | .stripe t => if h : t < 34 then (s.core ⟨t, h⟩).str.queue.any fun q => q.stage == .active else false
  | .dma t => if h : t < 34 then (List.finRange 8).any fun i =>
      ((s.core ⟨t, h⟩).ch i).run != .idle && ((s.core ⟨t, h⟩).ch i).run != .parked else false
  | _ => false

/-- ACTIVE (R52): it falls once a clear of ENABLE has taken full effect. -/
def State.active (s : State) (c : PageClass) : Bool :=
  match c with
  | .chip | .sec | .syncObj _ => true
  | c => (s.page (pageNo c)).enable || ((s.page (pageNo c)).active && s.busy c)

/-- DEGRADED (R52): part of the block's hardware is mapped out. -/
def State.degraded (s : State) (c : PageClass) : Bool :=
  match c with
  | .chip => !s.board.islandsOut.isEmpty || !s.board.channelsOut.isEmpty
  | .part p => if h : p < 4 then
      (List.finRange 32).any (fun n => partOf n == ⟨p, h⟩ && !s.matrixWorks n) ||
        (List.range 16).any (fun c => !s.channelIn ⟨p, h⟩ c) else false
  | .dat p => if h : p < 4 then decide (s.setChannels ⟨p, h⟩ < 16) else false
  | .spad t => if h : t < 34 then !(s.core ⟨t, h⟩).remap.isEmpty else false
  | _ => false

/-- BLK_CTRL as it reads (R49, R51, R387). -/
def State.ctrlWord (s : State) (c : PageClass) : Word :=
  let p := s.page (pageNo c)
  match c with
  | .chip | .sec => 3
  | .syncObj _ => 1
  | _ => wordOf [(b2n p.enable, 0), (b2n p.lock, 1)]

/-- A word of the header (R46). CHECKING shows the page's own checks; a ring's show in RING_STATUS (R358). -/
def State.headerWord (s : State) (c : PageClass) (off : Nat) : Word :=
  let p := s.page (pageNo c)
  match off with
  | 0x000 => wordOf [(c.code, 0), (c.inst, 8), (1, 16)]
  | 0x004 => (match c with
    | .fn f => Config.fnCap f
    | _ => Config.blkCap (pageNo c))
  | 0x008 => s.ctrlWord c
  | 0x00C => wordOf [(b2n (s.active c), 0), (b2n p.refused, 1),
      (b2n (p.checking.any fun k => match k with
        | .ring _ => false
        | _ => true), 2), (p.refuseCode.toNat, 8), (b2n p.woViol, 16), (b2n (s.degraded c), 17)]
  | 0x010 => p.irqStatus
  | 0x014 => p.irqEnable
  | 0x01C => p.errSummary
  | 0x020 => wordOf [(b2n p.snapHeld, 8)]
  | 0x028 => p.snapSeq
  | 0x030 => wordOf [(p.viol.offset.toNat, 0), (p.viol.func.val, 12), (b2n p.viol.firmware, 16),
      (p.viol.kind.toNat, 17), (p.viol.count.toNat, 24)]
  | _ => 0

/-! ### The registers of each page -/

/-- A word of those five as a reader sees it: its latch, or the registers before its first read of
CHIP_SVC_STATE. -/
def State.svcShown (s : State) (w : Who) (i : Nat) : Word :=
  match Tab.get [] s.board.latch (Who.reader w) with
  | [] => listAt 0 s.svcWords i
  | l => listAt 0 l i

/-- The CHIP page (R24, R73). -/
def State.chipWord (s : State) (w : Who) (off : Nat) : Word :=
  if off = 0x040 then 0x0A5B0832
  else if off = 0x044 then 0x00000101
  else if off = 0x048 then half s.time false
  else if off = 0x04C then Tab.get 0 (s.page 0).latch (Who.reader w)
  else if off = 0x080 then s.board.svc.word
  else if off = 0x084 then s.svcShown w 0
  else if 0x090 ≤ off ∧ off < 0x0A0 then s.svcShown w (1 + (off - 0x090) / 4)
  else if 0x100 ≤ off ∧ off < 0x180 then
    (s.board.map.get ⟨(off - 0x100) / 4 % 32, Nat.mod_lt _ (by omega)⟩).word
  else if off = 0x180 then s.board.gen
  else if off = 0x188 then (s.board.spares.get 0).word
  else if off = 0x18C then (s.board.spares.get 1).word
  else 0

/-- The MGMT page beyond its mailbox's own words (R485). -/
def State.mgmtWord (s : State) (off : Nat) : Word :=
  let m := s.mgmt
  if off = 0x040 then wordOf [(s.bootStage.toNat, 0), (b2n m.slot, 4), (b2n m.fallback, 5), (b2n m.trial, 6),
      (m.err.toNat, 8)]
  else if off = 0x044 then m.bootUs
  else if off = 0x048 then m.verActive
  else if off = 0x04C then m.verOther
  else if off = 0x050 then wordOf [(m.fused.toNat, 0), (m.svnActive.toNat, 8), (b2n m.flash.inForce.pending.isSome, 16)]
  else if off = 0x088 then wordOf [(b2n m.cmd.isSome, 0), (m.result.toNat, 8), (m.rlen.toNat, 16)]
  else s.staged .mgmt off

/-- A DAT page (R402); fault addresses read 0 where `hide` says so. -/
def State.datWord (s : State) (p : Part) (hide : Bool) (off : Nat) : Word :=
  let u := s.hbm.units.get p
  let v := s.staged (.dat p.val) off
  if off = 0x040 ∧ p = 0 then v ||| (b2v 32 s.hbm.wide <<< 1)
  else if off = 0x04C then wordOf [(s.deliver p, 0), (s.setChannels p, 15), (u.therm, 23)]
  else if off = 0x050 ∧ p = 0 then v ||| (b2v 32 s.hbm.invBusy <<< 6)
  else if off = 0x058 then if hide then 0 else half u.faultDva false
  else if off = 0x05C then if hide then 0 else half u.faultDva true
  else if off = 0x060 then if hide then 0 else u.faultInfo
  else if 0x200 ≤ off ∧ off < 0x240 then
    v ||| BitVec.ofNat 32 (s.eff p ⟨(off - 0x200) / 4 % 16, Nat.mod_lt _ (by omega)⟩ * 2 ^ 16)
  else v

/-- PEER_STATUS.STATE (R453). -/
def PortRun.code : PortRun → Nat
  | .disabled => 0 | .detect => 1 | .train => 2 | .ident => 3 | .key => 4 | .active => 5 | .retrain => 6
  | .down => 7 | .isolated => 8

/-- A PEER page (R453). -/
def State.peerWord (s : State) (q : Fin 4) (off : Nat) : Word :=
  let p := s.port q
  let v := s.staged (.peer q.val) off
  if off = 0x040 then wordOf [(p.run.code, 0), (p.width.toNat, 4), (p.nbrId.toNat, 8), (p.nbrPort.toNat, 11),
      (b2n p.encrypted, 13), (p.cause.toNat, 14)]
  else if q ≠ 0 then 0
  else if off = 0x060 then v ||| wordOf [(s.pins.peerId.toNat, 0), (s.peer.master.toNat, 20),
      (b2n s.peer.locked, 23)]
  else if off = 0x068 then s.peer.ofs
  else if 0x080 ≤ off ∧ off < 0x0A0 then
    (s.peer.routes.get ⟨(off - 0x080) / 4 % 8, Nat.mod_lt _ (by omega)⟩).setWidth 32
  else if 0x200 ≤ off ∧ off < 0x400 then
    let x := s.pq ⟨(off - 0x200) / 32 % 16, Nat.mod_lt _ (by omega)⟩
    let st := match x.state with
      | .idle => 0
      | .active => 1
      | .error => 2
    if off % 32 = 0x0C then x.head
    else if off % 32 = 0x10 then wordOf [(b2n x.run, 0), (st, 4), (x.errStat.toNat, 8)]
    else v
  else v

/-- PCIE_FN[f] (R437). -/
def State.fnWord (s : State) (f : Func) : Word :=
  wordOf [(b2n (s.fnEnabled f), 0), (b2n (fnBit s.host.flr f), 1), (b2n (fnBit s.host.msixEn f), 2),
    (b2n (fnBit s.host.maskAll f), 3), ((s.host.bar2Log.get f).toNat, 4)]

/-- FN_RING_PEND[f][i] (R437). -/
def State.pendWord (s : State) (f : Func) (i : Nat) : Word :=
  bitsOf 32 32 fun k => (s.ring (1024 * f.val + 32 * i + k)).irq

/-- The PCIE page (R437). -/
def State.pcieWord (s : State) (off : Nat) : Word :=
  let h := s.host
  if off = 0x040 then wordOf [(h.speed.toNat, 0), (h.width.toNat, 3), (b2n h.dlUp, 8)]
  else if off = 0x044 then wordOf [(b2n h.lost, 0), (b2n h.returned, 1)]
  else if 0x080 ≤ off ∧ off < 0x0C0 then s.fnWord ⟨(off - 0x080) / 4 % 16, Nat.mod_lt _ (by omega)⟩
  else if 0x800 ≤ off then
    s.pendWord ⟨(off - 0x800) / 128 % 16, Nat.mod_lt _ (by omega)⟩ (off % 128 / 4)
  else 0

/-- A word of an island's record (R515): CPRLIM at the voltage its rail has now. -/
def State.islWord (s : State) (i : Island) (o : Nat) : Word :=
  let x := s.isl i.val
  let now := s.fnow i.val
  let ad := adaptive i.val
  if o = 0x00 then x.fset.setWidth 32
  else if o = 0x04 then wordOf [(now, 0), (b2n (ad && decide (s.fscaled i.val < x.fset.toNat) &&
        decide (s.fscaled i.val ≤ now)), 16),
      (b2n (ad && decide (s.tcapOf (i.val / 8) < x.fset.toNat) && decide (s.tcapOf (i.val / 8) ≤ now)), 17),
      (b2n (s.capTed i.val), 18),
      (b2n x.gated, 19)]
  else if o = 0x08 then x.temp.setWidth 32
  else if o = 0x0C then wordOf [(x.age.toNat, 0), (x.limMHz (s.railSet (railOf i)) % 4096, 16)]
  else if o = 0x10 then wordOf [(x.days.toNat, 0), (b2n x.warn, 16), (b2n x.failed, 17)]
  else 0

/-- The CLK page (R517). -/
def State.clkWord (s : State) (off : Nat) : Word :=
  let k := s.clocks
  if off = 0x040 then wordOf [(b2n k.ref100, 0), (b2n k.xtal25, 1), (b2n k.locked, 2)]
  else if off = 0x048 then wordOf [(b2n k.firing.isSome, 1), (k.scope.toNat, 2), (k.cause.toNat, 8)]
  else if off = 0x050 then half k.fired false
  else if off = 0x054 then half k.fired true
  else if off = 0x058 then k.kilnSeq
  else if 0x400 ≤ off ∧ off < 0x400 + 32 * 22 then
    s.islWord ⟨272 + (off - 0x400) / 32 % 22, by omega⟩ (off % 32)
  else s.staged .clk off

/-- The PWR page (R518). -/
def State.pwrWord (s : State) (off : Nat) : Word :=
  let k := s.clocks
  if off = 0x044 then k.pwrNow.setWidth 32
  else if off = 0x048 then wordOf [(k.fscale, 0), (k.mduty, 12)]
  else if off = 0x04C then wordOf [(k.tjTemp.toNat, 0), (k.tjIsland.toNat, 12)]
  else if 0x060 ≤ off ∧ off < 0x094 then
    let r := k.rails.get ⟨(off - 0x060) / 4 % 13, Nat.mod_lt _ (by omega)⟩
    wordOf [(r.set.toNat, 0), (r.meas.toNat, 16)]
  else s.staged .pwr off

/-- The BIST page (R519). -/
def State.bistWord (s : State) (off : Nat) : Word :=
  let b := s.clocks.bist
  if off = 0x058 then half b.misr false
  else if off = 0x05C then half b.misr true
  else if off = 0x064 then wordOf [(b2n b.busy, 0), (b.result.toNat, 1), (b.code.toNat, 8), (b.rows.toNat, 16)]
  else s.staged .bist off

/-- A MEMC page (R421). -/
def State.memcWord (s : State) (i : Nat) (hide : Bool) (off : Nat) : Word :=
  let p : Part := ⟨i / 16 % 4, Nat.mod_lt _ (by omega)⟩
  let c : Fin 16 := ⟨i % 16, Nat.mod_lt _ (by omega)⟩
  let u := s.hbm.units.get p
  let x := s.chan i
  if off = 0x040 then wordOf [(b2n (s.channelIn p c.val), 0), (b2n (u.set.contains c), 1), (b2n u.selfRefresh, 2),
      (b2n (decide (85 < u.temp)), 3)]
  else if off = 0x044 then wordOf [(x.scrubPos.toNat, 0), (b2n x.behind, 25)]
  else if off = 0x048 then if hide then 0 else half x.uncorrAddr false
  else if off = 0x04C then if hide then 0 else half x.uncorrAddr true
  else 0

/-- A CORE page (R138); PCs and exception addresses read 0 where `hide` says so. -/
def State.coreWord (s : State) (t : Tile) (hide : Bool) (off : Nat) : Word :=
  let x := s.ctx t ⟨off / 4 % 4, Nat.mod_lt _ (by omega)⟩
  let st := match x.run with
    | .idle => 0
    | .ready => 1
    | .running => 2
    | .blocked => 3
    | .halted => 4
  if 0x040 ≤ off ∧ off < 0x050 then wordOf [(st, 0), (b2n x.priv, 3), (b2n x.deferred.isSome, 4),
      (if x.run == .blocked then x.block.toNat else 0, 8)]
  else if 0x050 ≤ off ∧ off < 0x060 then if hide then 0 else x.pc &&& 0xFFFFF
  else if 0x060 ≤ off ∧ off < 0x070 then x.excCause.setWidth 32
  else if 0x070 ≤ off ∧ off < 0x080 then if hide then 0 else x.excAddr
  else if off = 0x084 then bitsOf 32 4 fun c => (s.ctx t ⟨c % 4, Nat.mod_lt _ (by omega)⟩).stopReq
  else s.staged (.core t.val) off

/-- A DMA page (R353). -/
def State.dmaWord (s : State) (t : Tile) (off : Nat) : Word :=
  let h := (s.core t).ch ⟨(off - 0x040) / 8 % 8, Nat.mod_lt _ (by omega)⟩
  if 0x040 ≤ off ∧ off < 0x080 then
    if off % 8 = 0 then
      wordOf [((fld h.ctrlWord 19 3).toNat, 0), (b2n h.pend.isSome, 3), (b2n h.dbpend, 4), (h.status.toNat, 8),
        (h.ctx.val, 16), (h.func.val, 18)]
    else h.prog
  else 0

/-- An MTX page (R221). -/
def State.mtxWord (s : State) (t : Tile) (off : Nat) : Word :=
  let x := (s.core t).mtx
  if off = 0x040 then (x.reg 0 &&& 0x3F) ||| (b2v 32 x.kept.isSome <<< 6)
  else if off = 0x044 then wordOf [(x.next.toNat, 0), (x.doneSeq.toNat, 16)]
  else if off = 0x048 then wordOf [(x.errSeq.toNat, 0), (x.errStatus.toNat, 16), (x.errCtx.val, 24)]
  else if off = 0x04C then x.errAddr
  else if off = 0x050 then wordOf [(b2n x.cbValid, 0), (b2n x.cb256, 1), (x.cbv.toNat, 2), (b2n x.cbShared, 4)]
  else 0

/-- A SPAD page (R323); addresses of refused writes and bad words read 0 where `hide` says so. -/
def State.spadWord (s : State) (t : Tile) (hide : Bool) (off : Nat) : Word :=
  let k := s.core t
  let v := s.staged (.spad t.val) off
  if off = 0x04C then
    let sel := s.staged (.spad t.val) 0x048
    match Tab.get none k.remap (8 * (fld sel 0 6).toNat + (fld sel 6 3).toNat) with
    | some e => wordOf [(e.row.toNat, 0), (1, 8), (b2n e.fused, 9)]
    | none => 0
  else if off = 0x050 then v ||| wordOf [(b2n k.rmapBusy, 17), (k.rmapResult.toNat, 18)]
  else if off = 0x054 then wordOf [(b2n k.clearing, 1)]
  else if off = 0x060 then if hide then 0 else k.nocrAddr
  else if off = 0x064 then if hide then 0 else k.nocrInfo
  else if off = 0x068 then if hide then 0 else k.uncorrAddr
  else v

/-- STR_STREAM[s].STATE (R290). -/
def StripeEngine.streamState (k : StripeEngine) (i : Fin 8) : Nat :=
  if (k.streams.get i).error then 3
  else if k.queue.any fun q => (stripeDesc q.desc).stream == i && q.stage == .active then 2
  else if k.queue.any fun q => (stripeDesc q.desc).stream == i && q.stage == .waiting then 1
  else 0

/-- A STRIPE page (R290). -/
def State.stripeWord (s : State) (t : Tile) (off : Nat) : Word :=
  let k := (s.core t).str
  if off = 0x040 then k.reg 0 &&& 0xFFF
  else if off = 0x044 then wordOf [(k.next.toNat, 0), (k.doneSeq.toNat, 16)]
  else if off = 0x048 then wordOf [(k.errSeq.toNat, 0), (k.errStatus.toNat, 16), (k.errStream.val, 24),
      (k.errCtx.val, 27)]
  else if off = 0x04C then wordOf [(k.jobErrSeq.toNat, 0), (k.jobErrCause.toNat, 16), (k.jobErrStream.val, 18)]
  else if 0x060 ≤ off ∧ off < 0x080 then
    let i : Fin 8 := ⟨(off - 0x060) / 4 % 8, Nat.mod_lt _ (by omega)⟩
    let x := k.streams.get i
    wordOf [(k.streamState i, 0), (x.trigs.toNat, 2), (x.nr % 65536, 16)]
  else s.staged (.stripe t.val) off

/-- The SYNC and DISP pages (R389, R390). -/
def State.tileWord (s : State) (c : PageClass) (off : Nat) : Word :=
  match c with
  | .disp =>
    if off = 0x084 then wordOf [((s.trackedOf fun _ => true) + s.readsOf fun f => f.kind == .job, 0)]
    else if off = 0x088 then wordOf [(s.sync.gates, 0)]
    else s.staged .disp off
  | _ =>
    if off = 0x084 then s.sync.refInfo
    else if off = 0x088 then wordOf [(s.sync.waiters, 0)]
    else s.staged .sync off

/-- A SYNC object page (R387); a high word is the reader's latch. -/
def State.objWord (s : State) (k : Nat) (w : Who) (off : Nat) : Word :=
  let x := Tab.get {} s.sync.cas k
  let latch := Tab.get 0 (s.page (pageNo (.syncObj k))).latch (Who.reader w)
  if off = 0x040 then s.staged (.syncObj k) off ||| wordOf [(b2n x.done, 9), (b2n x.success, 10)]
  else if off = 0x058 then half x.old false
  else if 0x048 ≤ off ∧ off < 0x060 ∧ off % 8 = 4 then latch
  else if 0x800 ≤ off then
    if off % 8 = 0 then half (s.obj (pageObj k ((off - 0x800) / 16))) false else latch
  else s.staged (.syncObj k) off

/-- A 64-bit register of a SYNC object page by the offset of its low word (R387). -/
def State.objPair (s : State) (k : Nat) (off : Nat) : DWord :=
  if 0x800 ≤ off then s.obj (pageObj k ((off - 0x800) / 16))
  else if off = 0x058 then (Tab.get {} s.sync.cas k).old
  else (s.staged (.syncObj k) off).setWidth 64 ||| ((s.staged (.syncObj k) (off + 4)).setWidth 64 <<< 32)

/-- RING_STATUS (R357). -/
def State.ringStatus (s : State) (r : Nat) : Word :=
  let x := s.ring r
  let st := match x.state with
    | .idle => 0
    | .active => 1
    | .draining => 2
    | .error => 3
  let chk := (s.page (pageNo (.ring (r / 16)))).checking.any fun k => match k with
    | .ring i => i.val == r % 16
    | _ => false
  wordOf [(st, 0), (b2n chk, 2), (b2n x.refused, 3), (x.code.toNat, 8), (x.flags.toNat, 16),
    (b2n (x.committed && x.occupancy == x.size), 20), (b2n (x.committed && !x.room), 21),
    (b2n x.cancelTo.isSome, 22)]

/-- A ring record (R357). -/
def State.ringWord (s : State) (r : Nat) (o : Nat) : Word :=
  let x := s.ring r
  if o = 0x40 then half x.staged.base false
  else if o = 0x44 then half x.staged.base true
  else if o = 0x48 then half x.staged.cbase false
  else if o = 0x4C then half x.staged.cbase true
  else if o = 0x50 then x.staged.cfg
  else if o = 0x54 then x.staged.affinity
  else if o = 0x58 then x.staged.limits
  else if o = 0x5C then x.staged.ageWm
  else if o = 0x60 then x.staged.seq0
  else if o = 0x64 then x.nextSeq
  else if o = 0x68 then x.tail
  else if o = 0x6C then x.head
  else if o = 0x70 then x.ctail
  else if o = 0x74 then x.chead
  else if o = 0x78 then x.ctrl
  else if o = 0x7C then s.ringStatus r
  else if o = 0x80 then x.errSeq
  else if o = 0x84 then x.errCause.setWidth 32
  else if o = 0x88 then s.ringAge r
  else 0

/-- A tile number of a sub-page. -/
def subTile (t : Nat) : Tile := ⟨t % 34, Nat.mod_lt _ (by omega)⟩

/-- A register of a page beyond its header, counters apart; a function's own page shows its PCIE_FN and FN_RING_PEND
(R427). -/
def State.blockWord (s : State) (w : Who) (c : PageClass) (off : Nat) : Word :=
  let hide := s.hides w
  match c with
  | .chip => s.chipWord w off
  | .mgmt => s.mgmtWord off
  | .sec => s.sec.word off
  | .part p => s.partWord ⟨p % 4, Nat.mod_lt _ (by omega)⟩ off
  | .dat p => s.datWord ⟨p % 4, Nat.mod_lt _ (by omega)⟩ hide off
  | .peer q => s.peerWord ⟨q % 4, Nat.mod_lt _ (by omega)⟩ off
  | .pcie => s.pcieWord off
  | .clk => s.clkWord off
  | .pwr => s.pwrWord off
  | .bist => s.bistWord off
  | .memc i => s.memcWord i hide off
  | .disp | .sync => s.tileWord c off
  | .core t => s.coreWord (subTile t) hide off
  | .dma t => s.dmaWord (subTile t) off
  | .mtx t => s.mtxWord (subTile t) off
  | .spad t => s.spadWord (subTile t) hide off
  | .stripe t => s.stripeWord (subTile t) off
  | .island t =>
    if 0x040 ≤ off ∧ off < 0x140 then
      s.islWord ⟨8 * (t % 34) + (off - 0x040) / 32 % 8, by omega⟩ (off % 32)
    else 0
  | .perf _ => 0
  | .fn f =>
    if off = 0x040 then s.fnWord (BitVec.ofNat 4 f).toFin
    else if 0x080 ≤ off ∧ off < 0x100 then s.pendWord (BitVec.ofNat 4 f).toFin ((off - 0x080) / 4)
    else 0
  | .syncObj k => s.objWord k w off
  | .ring k => s.ringWord (16 * k + off / 0x100) (off % 0x100)

/-- A word of a page as a reader sees it; `off` is a multiple of 4. -/
def State.readWord (s : State) (w : Who) (c : PageClass) (off : Nat) : Word :=
  match c with
  | .ring _ =>
    if off < 0x40 then s.headerWord c off
    else if off % 0x100 < 0x40 then 0
    else match counterAt c off with
      | some (x, hi) =>
        if s.hides w then 0
        else if hi then Tab.get 0 (s.page (pageNo c)).latch (Who.reader w) else half (s.counterShown c x) false
      | none =>
        match s.ovfShown c off with
        | some v => if s.hides w then 0 else v
        | none => s.blockWord w c off
  | _ =>
    if off < 0x40 then s.headerWord c off
    else match counterAt c off with
      | some (x, hi) =>
        if s.hides w then 0
        else if hi then Tab.get 0 (s.page (pageNo c)).latch (Who.reader w) else half (s.counterShown c x) false
      | none =>
        match s.ovfShown c off with
        | some v => if s.hides w && hidesOvf c then 0 else v
        | none => s.blockWord w c off

/-- The word at a BAR0 address as an accessor's view shows it (R44, R425 to R427, R431). -/
def State.viewWord (s : State) (w : Who) (addr : Nat) : Word :=
  let off := addr % 4096
  let v := addr / 4096
  match s.reach w v with
  | some c => s.readWord w c off
  | none => 0

/-- The 64-bit register that an 8-byte read returns whole, from one cycle and past the latch (R45, R67). -/
def State.pairAt (s : State) (w : Who) (addr : Nat) : Option DWord :=
  match s.reach w (addr / 4096) with
  | none => none
  | some c =>
    let off := addr % 4096
    match c, counterAt c off with
    | .syncObj k, _ =>
      if 0x800 ≤ off ∨ off = 0x048 ∨ off = 0x050 ∨ off = 0x058 then some (s.objPair k off) else none
    | .chip, _ => if off = 0x048 then some s.time else none
    | _, some (x, false) =>
      match x with
      | .page _ .sat32 => none
      | _ => some (if s.hides w then 0 else s.counterShown c x)
    | _, _ => none

/-- What a BAR0 read returns (R45): bytes of a word, a word, two words of one cycle; 0 where the access is
not naturally aligned. -/
def State.readBar0 (s : State) (w : Who) (addr : Nat) (size : AccSize) : DWord :=
  let word := s.viewWord w (addr / 4 * 4)
  match size with
  | .b1 => ((word >>> (8 * (addr % 4))) &&& 0xFF).setWidth 64
  | .b2 => if addr % 2 = 0 then ((word >>> (8 * (addr % 4))) &&& 0xFFFF).setWidth 64 else 0
  | .b4 => if addr % 4 = 0 then word.setWidth 64 else 0
  | .b8 =>
    if addr % 8 = 0 then
      match s.pairAt w addr with
      | some v => v
      | none => word.setWidth 64 ||| ((s.viewWord w (addr + 4)).setWidth 64 <<< 32)
    else 0

end Sys2Proof.Machine
end

