-- ==== Sys2Proof/Machine/Pages.lean ====
section
/-! DEFINITION. Writes of register pages: consistency checks and staged configuration, BLK_CTRL and
SOFT_RESET, write-once registers, counters and snapshots, and the side effects of each page's registers (R42 to
R73, R561, and the register table of each page). -/

namespace Sys2Proof.Machine

/-! ### Consistency checks (R58, R59) -/

/-- The islands that a block needs powered and clocked (R23). -/
def blockIslands : PageClass → List Nat
  | .core t => [8 * t]
  | .dma t | .stripe t => [8 * t + 6]
  | .mtx t => [8 * t + 2]
  | .spad t => [8 * t + 3, 8 * t + 4, 8 * t + 5]
  | .memc i => [272 + 2 * (i / 16) + (if i % 16 < 8 then 0 else 1), 280 + i / 16]
  | .peer q => [285 + q]
  | .pcie => [284]
  | .disp | .ring _ => [289]
  | .sync => [290]
  | .mgmt => [291]
  | _ => []

/-- The partition that a block belongs to, where it has one: a spare's is that of the core it serves (R17,
R43). -/
def State.blockPart (s : State) : PageClass → Option Part
  | .core t | .dma t | .mtx t | .spad t | .stripe t | .island t | .perf t => s.joined (subTile t)
  | .memc i => some ⟨i / 16 % 4, Nat.mod_lt _ (by omega)⟩
  | .dat p => some ⟨p % 4, Nat.mod_lt _ (by omega)⟩
  | _ => none

/-- The tests of R58 before the configuration's own values: 0x0A where an island of the block is gated or its
partition recovers, 0x0B where hardware of the block is mapped out, and 0x07 for a table commit under LOCK. -/
def State.blockCheck (s : State) (c : PageClass) (table : Bool) : Byte :=
  let out : Bool := (blockIslands c).any (fun i => !s.islandOk i) || (match c with
    | .memc i => !s.channelIn ⟨i / 16 % 4, Nat.mod_lt _ (by omega)⟩ (i % 16)
    | .mtx t => (match s.lcoreOf (subTile t) with
      | some n => (s.board.map.get n).mtxOut
      | none => false)
    | _ => false)
  if (blockIslands c).any (fun i => (s.isl i).gated) ||
      (match s.blockPart c with
      | some p => s.recovering p
      | none => false) then 0x0A
  else if out then 0x0B
  else if table && (s.page (pageNo c)).lock then 0x07
  else 0

/-- The tests of an ENABLE check on the staged values of the page (R140, R292, R325, R389, R453, R517, R518,
R545). -/
def State.enableTests (s : State) (c : PageClass) : Byte :=
  let v (off : Nat) : Word := s.staged c off
  match c with
  | .core _ => if (v 0x080).toNat < 256 then 0x40 else 0
  | .stripe _ => if v 0x050 = 0 then 0x40 else 0
  | .spad _ =>
    let nom := (fld (v 0x044) 0 8).toNat
    if v 0x040 = 0 then 0x40
    else if nom = 0 ∨ (fld (v 0x044) 8 8).toNat < nom then 0x41
    else 0
  | .disp =>
    let fn (f : Nat) := v (0x040 + 4 * f)
    if (List.range 16).any fun f => fld (fn f) 0 8 == 0 || fld (fn f) 8 11 == 0 then 0x01
    else if (List.range 16).any fun f => decide (1024 < (fld (fn f) 8 11).toNat) then 0x02
    else if v 0x080 = 0 then 0x40
    else 0
  | .clk =>
    let h := (fld (v 0x044) 0 5).toNat
    let g := (fld (v 0x044) 8 4).toNat
    if h < 1 ∨ 24 < h then 0x40
    else if g < 1 ∨ 15 < g then 0x41
    else if fld (v 0x044) 16 8 = 0 then 0x42
    else 0
  | .pwr => if (v 0x040).toNat < 300 ∨ 520 < (v 0x040).toNat then 0x02 else 0
  | .part p =>
    if p = 0 ∧ s.saggar ∧ bit (v 0x090) 0 then 0x08
    else if 10000 < (v 0x048).toNat then 0x02
    else if v 0x048 = 0 then 0x40
    else 0
  | .peer _ => if s.domain = 0 then 0x40 else 0
  | _ => 0

/-- The pages that a page depends on, which R490 sets up before it (R58). DESIGN CHOICE: R490 does not say which they
are; the dispatcher reads through the DAT units of the partitions in service, and the pages of a tile are set up in
their order SPAD, DMA, STRIPE, MTX, CORE, a matrix array that is out apart. -/
def State.needs (s : State) : PageClass → List PageClass
  | .disp => ((List.finRange 4).filter s.partIn).map fun p => .dat p.val
  | .dma t => [.spad t]
  | .stripe t => [.spad t, .dma t]
  | .mtx t => [.spad t, .dma t, .stripe t]
  | .core t => [.spad t, .dma t, .stripe t] ++ (if (match s.lcoreOf (subTile t) with
      | some n => s.matrixWorks n
      | none => false) then [.mtx t] else [])
  | _ => []

/-- The outcome of an ENABLE check: the tests of R58 in their order, test 10 before the block tests. -/
def State.enableCheck (s : State) (c : PageClass) : Byte :=
  let b := s.blockCheck c false
  let e := s.enableTests c
  if b ≠ 0 then b
  else if e ≠ 0 ∧ e.toNat < 0x40 then e
  else if (s.needs c).any fun d => !s.enabled d then 0x05
  else e

/-- The DAT_COMMIT check on the staged roots and ranges (R394, R402). -/
def State.datCheck (s : State) : Byte :=
  let v (off : Nat) : Word := s.staged (.dat 0) off
  let en (f : Nat) : Bool := bit (v (0x100 + 16 * f)) 31
  let root (f : Nat) : Nat := (fld (v (0x100 + 16 * f)) 0 28).toNat
  let lo (f : Nat) : Nat := (v (0x104 + 16 * f)).toNat
  let hi (f : Nat) : Nat := (v (0x108 + 16 * f)).toNat
  let fs := (List.range 16).filter en
  let vs := fs.filter fun f => f != 0
  let wide : Bool := !s.hbm.modeLatched && bit (v 0x040) 0
  let narrow : Bool := (List.finRange 4).any fun p => decide ((s.ileave p).length < 16)
  let c := s.blockCheck (.dat 0) true
  if c = 0x0A then c
  else if wide && narrow then 0x0B
  else if c ≠ 0 then c
  else if vs.any fun f => decide (hi f ≤ lo f) then 0x02
  else if fs.any fun f => root f % 2 == 1 then 0x03
  else if (vs.any fun f => vs.any fun g => f != g && decide (lo f < hi g) && decide (lo g < hi f)) ||
      (fs.any fun f => vs.any fun g => decide (lo g ≤ root f / 512) && decide (root f / 512 < hi g)) then 0x04
  else if s.hbm.invBusy then 0x40
  else 0

/-- The DAT_RSV_COMMIT check (R406). -/
def State.rsvCheck (s : State) (p : Part) : Byte :=
  let sum := (List.range 16).foldl (fun n f => n + (s.staged (.dat p.val) (0x200 + 4 * f)).toNat) 0
  let c := s.blockCheck (.dat p.val) true
  if c ≠ 0 then c else if s.deliver p < sum then 0x06 else 0

/-- The PEER_COMMIT check (R453). -/
def State.peerCheck (s : State) : Byte :=
  let c := s.blockCheck (.peer 0) true
  if c ≠ 0 then c
  else if fld (s.staged (.peer 0) 0x060) 4 16 = 0 ∨ s.staged (.peer 0) 0x06C = 0 then 0x02
  else 0

/-- The check of a peer queue's commit (R453). -/
def State.pqCheck (s : State) (f : Func) : Byte :=
  let cfg := s.staged (.peer 0) (0x208 + 32 * f.val)
  let log2 := (fld cfg 0 5).toNat
  let c := s.blockCheck (.peer 0) true
  if c ≠ 0 then c
  else if s.syncOwner (fld cfg 5 13) ≠ some f then 0x09
  else if log2 < 4 ∨ 16 < log2 then 0x02
  else if (s.pq f).state ≠ .idle then 0x40
  else 0

/-- The outcome of a check: 0 where it passes, else the code of the first test that fails (R58). -/
def State.runCheck (s : State) (c : PageClass) (k : Check) : Byte :=
  match k with
  | .enable => s.enableCheck c
  | .dat => s.datCheck
  | .rsv => match c with
    | .dat p => s.rsvCheck ⟨p % 4, Nat.mod_lt _ (by omega)⟩
    | _ => 0
  | .sync => if s.blockCheck c true ≠ 0 then s.blockCheck c true else s.syncCheck
  | .peer => s.peerCheck
  | .pq f => s.pqCheck f
  | .ring i =>
    match c with
    | .ring n =>
      if s.blockCheck c true ≠ 0 then s.blockCheck c true else (s.ring (16 * n + i.val)).check
    | _ => 0

/-- Staged words made live (R56). -/
def State.makeLive (s : State) (c : PageClass) (offs : List Nat) : State :=
  s.modPage (pageNo c) fun p => { p with
    live := offs.foldl (fun l o => Tab.set (regReset c o) l o (Tab.get (regReset c o) p.staged o)) p.live }

/-- The offsets of a page's configuration words of a kind. -/
def regsOf (c : PageClass) (k : RegKind) : List Nat :=
  ((List.range 1024).map (4 * ·)).filter fun o => match regInfo c o with
    | some r => r.kind == k
    | none => false

/-- What a block does when its ENABLE check passes (R441, R59): a disabled Vabor port starts to detect. -/
def State.startBlock (s : State) (c : PageClass) : State :=
  match c with
  | .peer q =>
    let q : Fin 4 := ⟨q % 4, Nat.mod_lt _ (by omega)⟩
    if (s.port q).run == .disabled then s.setPort q .detect id else s
  | _ => s

/-- The vectors that a ring's commit moves its interrupt between are evaluated (R429). -/
def State.ringVecs (s : State) (r old : Nat) : State :=
  let f := ringFn r
  (s.evalVec f old false).evalVec f (s.ring r).vec false

/-- A check that passes (R59): the staged values become live in one step. -/
def State.passCheck (s : State) (c : PageClass) (k : Check) : State :=
  match k with
  | .enable =>
    let s := s.makeLive c (regsOf c .staged)
    (s.modPage (pageNo c) fun p => { p with enable := true, active := true, lock := p.lock || p.lockNext }).startBlock c
  | .dat =>
    let wide := bit (s.staged (.dat 0) 0x040) 0
    let s := s.makeLive (.dat 0) ((List.range 48).map fun i => 0x100 + 16 * (i / 3) + 4 * (i % 3))
    if s.hbm.modeLatched then s
    else { s with hbm := { s.hbm with wide := wide, modeLatched := true } }
  | .rsv => (s.makeLive c ((List.range 16).map fun f => 0x200 + 4 * f)).settleDeficits
  | .sync => s.syncCommit
  | .peer => s.makeLive (.peer 0) [0x060, 0x064, 0x06C]
  | .pq f =>
    let b := 0x200 + 32 * f.val
    let s := s.makeLive (.peer 0) [b, b + 4, b + 8]
    let head := s.kick f
    (s.modPq f fun q => { q with head := head, committed := true }).pqRun f (s.pq f).run
  | .ring i =>
    match c with
    | .ring n =>
      let r := 16 * n + i.val
      (s.ringCommit r).ringVecs r (s.ring r).vec
    | _ => s

/-- A check that refuses, with its record (R59, R520). -/
def State.refuseCheck (s : State) (c : PageClass) (k : Check) (code : Byte) : State :=
  let s := match c, k with
    | .ring n, .ring i => s.modRing (16 * n + i.val) fun x => { x with refused := true, code := code }
    | _, _ => s.modPage (pageNo c) fun p => { p with refused := true, refuseCode := code }
  s.log { cls := 3, code := code, page := c }

/-- The check that a completion names, among those that run on the page. -/
def Page.checkOf (p : Page) (sub : Option Func) : Option Check :=
  p.checking.find? fun k => match sub, k with
    | none, .ring _ => false
    | none, .pq _ => false
    | none, _ => true
    | some f, .ring i => i == f
    | some f, .pq g => g == f
    | some _, _ => false

/-- A check carried out at its end, before the held writes (R59). -/
def State.endCheck (s : State) (c : PageClass) (k : Check) : State :=
  let code := s.runCheck c k
  let s := s.modPage (pageNo c) fun p => { p with checking := p.checking.erase k }
  let s := if code = 0 then s.passCheck c k else s.refuseCheck c k code
  match k with
  | .enable => s.modPage (pageNo c) fun p => { p with lockNext := false }
  | _ => s

/-! ### BLK_CTRL (R49, R50, R561) -/

/-- A clear of ENABLE: the block stops as its chapter defines (R49, R140, R441). Its ENABLE as the driver last
set it is noted for a matrix array that has failed (R541). -/
def State.stopBlock (s : State) (w : Who) (c : PageClass) : State :=
  let s := s.modPage (pageNo c) fun p => { p with enable := false }
  match c with
  | .core t => match s.lcoreOf (subTile t) with
    | some n => s.returnUnstarted n
    | none => s
  | .mtx t => match s.lcoreOf (subTile t) with
    | some n => if w == .firmware then s else s.modBoard fun b => { b with mtxSaved := b.mtxSaved.erase n }
    | none => s
  | .peer q =>
    let q : Fin 4 := ⟨q % 4, Nat.mod_lt _ (by omega)⟩
    if (s.port q).run == .disabled then s else s.setPort q .disabled Port.quiet
  | _ => s

/-- A ring record after SOFT_RESET of its page (R561): what records a past event stays, and so do counters. -/
def Ring.softReset (x : Ring) : Ring :=
  { ({} : Ring) with
    refused := x.refused, code := x.code, flags := x.flags, errSeq := x.errSeq, errCause := x.errCause
    counters := x.counters, ovf := x.ovf, snapshot := x.snapshot }

/-- The rings of a page return to their reset state (R561); their fetched jobs, the records that wait to be written and
the reads in flight are dropped. -/
def State.softRings (s : State) (k : Nat) : State :=
  let mine (r : BitVec 14) : Bool := r.toNat / 16 == k
  let jobs := s.disp.track.filterMap fun e => match e.2 with
    | some j => if mine j.ring then some e.1 else none
    | none => none
  let s := jobs.foldl State.untrack s
  let s := s.modDisp fun d => { d.dropLate fun r => r / 16 == k with
    fetches := d.fetches.filter fun f => !mine f.ring
    returned := d.returned.filter fun j => !mine j.ring }
  (List.range 16).foldl (fun s i =>
    let r := 16 * k + i
    let old := (s.ring r).vec
    (s.modRing r Ring.softReset).ringVecs r old) s

/-- The stripe engine after SOFT_RESET of the STRIPE page (R276, R561). -/
def StripeEngine.softReset (k : StripeEngine) : StripeEngine :=
  { ({} : StripeEngine) with
    errSeq := k.errSeq, errStatus := k.errStatus, errStream := k.errStream, errCtx := k.errCtx
    jobErrSeq := k.jobErrSeq, jobErrCause := k.jobErrCause, jobErrStream := k.jobErrStream }

/-- The matrix queue and the codebooks after SOFT_RESET of the MTX page (R188, R238, R561): trackers, and what records a
past event, stay. -/
def Mtx.softReset (x : Mtx) : Mtx :=
  { ({} : Mtx) with
    errSeq := x.errSeq, errStatus := x.errStatus, errCtx := x.errCtx, errAddr := x.errAddr, trk := x.trk }

/-- What the contexts of a core share, after SOFT_RESET of its CORE page (R561). -/
def Core.softReset (k : Core) : Core :=
  { k with
    ctxs := k.ctxs.map Ctx.halted, last := 3, quantum := 0, loads := [], fetchBuf := [], btb := []
    resume := Vector.replicate 4 none, stalled := 0 }

/-- The contexts of a core return to their reset state (R561). Each gives up what it waits for. DESIGN CHOICE: its job
retires as that of a context which system firmware resets (R138), and stores that have been performed stay. -/
def State.softCore (s : State) (t : Tile) : State :=
  match s.lcoreOf t with
  | none => s.modCore t Core.softReset
  | some n =>
    let s := (List.finRange 4).foldl (fun s c => s.abandon t n c) s
    let s := s.modCore t Core.softReset
    (List.finRange 4).foldl (fun s c => s.finishJob n c 0x44 0xC003) s

/-- The dispatcher's running state returns to its reset state (R561): no job is tracked or read, and its turns begin
again. DESIGN CHOICE: the jobs that it tracked are dropped with the records that they had reserved. -/
def State.softDisp (s : State) : State :=
  let held := s.disp.track.filterMap fun e => e.2.map fun j => (e.1, j.ring.toNat)
  let gone := held.map (·.2) ++ s.disp.returned.map (·.ring.toNat)
  let s := held.foldl (fun s e => s.untrack e.1) (s.dropReads fun _ => true)
  let s := s.modDisp fun d => { d with returned := [], fn := 0, credit := 0, lastRing := [] }
  gone.foldl (fun s r => (s.modRing r fun x => { x with reserved := x.reserved - 1 }).settleRing r) s

/-- A peer queue under SOFT_RESET of PEER[0] (R453, R561): reset, but for its latest error. DESIGN CHOICE: what is in
flight completes 0x46, as under a function-level reset (R454). -/
def State.softPq (s : State) (f : Func) : State :=
  let old := (s.pq f).errStat
  (s.pqReset f).modPq f fun q => { q with errStat := old }

/-- The running state of a block returns to its reset state (R238, R276, R352, R545, R561). DESIGN CHOICE: where the
block's chapter does not say what SOFT_RESET of its page does, its queues, waits and turns are that state: a remap and a
clear end, a BIST run is aborted, firings are abandoned, the limiter's and the throttle's scales go back to full, a
mailbox command is dropped, a translation unit forgets its translations and no longer waits for old ones, and the waiter
slots are free: what waited without one goes on as R384 has it, until its timeout. Objects keep their values. -/
def State.softBlock (s : State) (c : PageClass) : State :=
  match c with
  | .dma t => s.dmaKill (subTile t) 0xFF
  | .stripe t => (s.modStr (subTile t) StripeEngine.softReset).wakeQueue (subTile t) 1
  | .mtx t => (s.modMtx (subTile t) Mtx.softReset).wakeQueue (subTile t) 0
  | .core t => s.softCore (subTile t)
  | .spad t => (s.modCore (subTile t) fun k => { k with rmapBusy := false, clearing := false }).bankResumed (subTile t)
  | .peer q => if q = 0 then (List.finRange 16).foldl State.softPq s else s
  | .dat p =>
    let s := if p = 0 then { s with hbm := { s.hbm with invBusy := false } } else s
    (s.modUnit ⟨p % 4, Nat.mod_lt _ (by omega)⟩ fun u => { u with tlb := [] }).settleDeficits
  | .sync => s.modSync fun b => { b with slots := [] }
  | .memc i => s.modChan (i % 64) fun x => { x with rr := 0, scrubPos := 0, scrubFrom := s.time, behind := false, slots := 0, paused := [] }
  | .ring k => s.softRings k
  | .disp => s.softDisp
  | .bist => s.bistAbort
  | .clk => s.dropFirings.pumpFiring
  | .pwr => s.modClk fun k => { k with fscale := 256, mduty := 16, tcap := [], hold := [] }
  | .mgmt => { s with mgmt := { s.mgmt with cmd := none } }
  | _ => s

/-- SOFT_RESET of a page (R561). -/
def State.softReset (s : State) (w : Who) (c : PageClass) : State :=
  let s := if (s.page (pageNo c)).enable then s.stopBlock w c else s
  let once := regsOf c .once
  let sources := (s.page (pageNo c)).irqStatus &&& 0x7FFFFFFF != 0
  let s := (s.softBlock c).modPage (pageNo c) fun p => { p with
    enable := false, active := false, refused := false, refuseCode := 0
    irqStatus := p.irqStatus &&& 0x80000000
    staged := p.staged.filter fun e => once.contains e.1
    live := p.live.filter fun e => once.contains e.1 }
  ((match c with
    | .dat _ => s.settleDeficits
    | _ => s).evalVec 0 (pageVector c) sources)

/-- A write of BLK_CTRL: SOFT_RESET, then ENABLE, then LOCK; a LOCK set with the ENABLE that starts a check
waits for its outcome (R49 to R51, R57, R387). -/
def State.writeCtrl (s : State) (w : Who) (c : PageClass) (data : Word) : State :=
  let fixed : Bool := roCtrl c || (match c with
    | .syncObj _ => true
    | _ => false)
  if fixed || (fwOnlyCtrl c && w != .firmware) then s
  else if s.checkRuns c .enable then s.holdWrite c ⟨w, 0x008, .b4, data.setWidth 64⟩
  else
    let s := if bit data 4 then s.softReset w c else s
    let on := (s.page (pageNo c)).enable
    if bit data 0 && !on then
      (s.startCheck c .enable).modPage (pageNo c) fun p => { p with lockNext := bit data 1 }
    else
      let s := if !bit data 0 && on then s.stopBlock w c else s
      if bit data 1 then s.modPage (pageNo c) fun p => { p with lock := true } else s

/-! ### Interrupts, violations and snapshots (R53, R62 to R64, R70, R71, R429) -/

/-- IRQ_STATUS bits cleared, and the vector evaluated again where that has cleared a source (R429). -/
def State.clearIrq (s : State) (c : PageClass) (bits : Word) : State :=
  (s.modPage (pageNo c) fun p => { p with irqStatus := p.irqStatus &&& ~~~bits }).evalVec 0 (pageVector c)
    ((s.page (pageNo c)).irqStatus &&& bits != 0)

/-- A violation (R63, R64). -/
def State.violate (s : State) (w : Who) (c : PageClass) (off : Nat) (kind : BitVec 2) : State :=
  let fw : Bool := w == .firmware
  (s.modPage (pageNo c) fun p => { p with
    woViol := true
    viol := { offset := BitVec.ofNat 12 off, func := Who.fn w, firmware := fw, kind := kind
              count := if p.viol.count = 0xFF then 0xFF else p.viol.count + 1 } }).raise c 0x80000000

/-- WO_VIOL cleared, with COUNT (R52, R64). -/
def State.clearViol (s : State) (c : PageClass) : State :=
  s.modPage (pageNo c) fun p => { p with woViol := false, viol := { p.viol with count := 0 } }

/-- TAKE (R70 to R72); the CHIP and SEC pages accept none (R51). -/
def State.takeSnap (s : State) (c : PageClass) : State :=
  if roCtrl c then s
  else
    let s := s.modPage (pageNo c) fun p => { p with
      snapHeld := true, snapSeq := p.snapSeq + 1, snapshot := p.counters, snapOvf := p.ovf }
    match c with
    | .ring k => (List.range 16).foldl (fun s i =>
        s.modRing (16 * k + i) fun x => { x with snapshot := some (x.counters, x.ovf) }) s
    | _ => s

/-- RELEASE (R70). -/
def State.releaseSnap (s : State) (c : PageClass) : State :=
  s.modPage (pageNo c) fun p => { p with snapHeld := false }

/-! ### Counters (R67 to R69) -/

/-- What a write leaves in a counter, before that cycle's increment: an 8-byte write both words, a 4-byte write
of the low word with the high word 0; none where it is dropped. A 32-bit counter takes one word. -/
def counterData (k : CounterKind) (high : Bool) (size : AccSize) (data : DWord) : Option DWord :=
  let cut (v : DWord) : DWord := match k with
    | .perf48 => v &&& 0xFFFFFFFFFFFF
    | .sat32 => v &&& 0xFFFFFFFF
    | _ => v
  match size, high with
  | .b8, false => some (cut data)
  | .b4, false => some (cut (data &&& 0xFFFFFFFF))
  | _, _ => none

/-- A counter written (R67). -/
def State.putCounter (s : State) (c : PageClass) (x : CounterRef) (v : DWord) : State :=
  match x with
  | .page i _ => s.modPage (pageNo c) fun p => { p with counters := Tab.set 0 p.counters i v }
  | .ring r i => s.modRing r fun q => { q with counters := q.counters.set i.val v i.isLt }

/-- A counter moved on by the events of a cycle (R67, R69). -/
def State.addCounter (s : State) (c : PageClass) (x : CounterRef) (n : Nat) : State :=
  match x with
  | .page i _ => s.count c i n
  | .ring r i => s.modRing r (Ring.count · i n)

/-- The kind of a counter that has been found. -/
def CounterRef.kind : CounterRef → CounterKind
  | .page _ k => k
  | .ring _ _ => .wrap64

/-- A write of a counter's word of 4 bytes, or of the whole of 8. -/
def State.writeCounter (s : State) (c : PageClass) (x : CounterRef) (high : Bool) (size : AccSize) (data : DWord) :
    State :=
  match counterData x.kind high size data with
  | some v => s.putCounter c x v
  | none => s

/-- CNT_OVF bits cleared (R68). -/
def State.clearOvf (s : State) (c : PageClass) (off : Nat) (data : Word) : State :=
  match c with
  | .ring k => s.modRing (16 * k + off / 0x100) fun x => { x with ovf := x.ovf &&& ~~~(data.setWidth 4) }
  | _ =>
    let high : Bool := ovfOffset c != some off
    let bits : DWord := if high then data.setWidth 64 <<< 32 else data.setWidth 64
    s.modPage (pageNo c) fun p => { p with ovf := p.ovf &&& ~~~bits }

/-! ### Configuration words (R56, R57, R62, R63) -/

/-- A configuration word written: to its staged value alone, or to both where it takes effect when written. -/
def State.putReg (s : State) (c : PageClass) (off : Nat) (r : RegInfo) (data : Word) : State :=
  let v := data &&& r.mask
  s.modPage (pageNo c) fun p => { p with
    staged := Tab.set r.reset p.staged off v
    live := match r.kind with
      | .immediate | .once => Tab.set r.reset p.live off v
      | _ => p.live }

/-- A write of a configuration word: held while a check runs, where it is staged; a second write of a
write-once register is a violation (R57, R62). -/
def State.writeReg (s : State) (w : Who) (c : PageClass) (off : Nat) (r : RegInfo) (data : Word) : State :=
  match r.kind with
  | .immediate => s.putReg c off r data
  | .staged | .table =>
    if s.checkRuns c .enable then s.holdWrite c ⟨w, BitVec.ofNat 12 off, .b4, data.setWidth 64⟩
    else s.putReg c off r data
  | .once =>
    let o := BitVec.ofNat 12 off
    if (s.page (pageNo c)).written.contains o then s.violate w c off 1
    else (s.putReg c off r data).modPage (pageNo c) fun p => { p with written := o :: p.written }

/-! ### Registers with an effect of their own -/

/-- A write of RING_CTRL (R357 to R360): RUN and IRQEN, then COMMIT, CANCEL and RESTART. -/
def State.writeRingCtrl (s : State) (r : Nat) (data : Word) : State :=
  let s := if bit data 0 != (s.ring r).run then s.ringRun r (bit data 0) else s
  let s := (s.modRing r fun x => { x with irqen := fld data 4 4 }).evalVec (ringFn r) (s.ring r).vec false
  let s := if bit data 1 then s.startCheck (ringPage r) (.ring ⟨r % 16, Nat.mod_lt _ (by omega)⟩) else s
  let s := if bit data 2 then s.ringCancel r else s
  if bit data 3 then s.ringRestart r else s

/-- A staged word of a ring record (R357). -/
def RingCfg.put (x : RingCfg) (o : Nat) (v : Word) : RingCfg :=
  match o with
  | 0x40 => { x with base := setFld x.base 0 (v &&& 0xFFFFF000) }
  | 0x44 => { x with base := setFld x.base 32 v }
  | 0x48 => { x with cbase := setFld x.cbase 0 (v &&& 0xFFFFF000) }
  | 0x4C => { x with cbase := setFld x.cbase 32 v }
  | 0x50 => { x with cfg := v &&& 0x3F7FFF }
  | 0x54 => { x with affinity := v }
  | 0x58 => { x with limits := v &&& 0x7FFFFFF }
  | 0x5C => { x with ageWm := v }
  | 0x60 => { x with seq0 := v }
  | _ => x

/-- A word of a ring record written (R57, R357). -/
def State.writeRing (s : State) (w : Who) (r off : Nat) (data : Word) : State :=
  let c := ringPage r
  let o := off % 0x100
  let busy := s.checkRuns c (.ring ⟨r % 16, Nat.mod_lt _ (by omega)⟩)
  let hold := s.holdWrite c ⟨w, BitVec.ofNat 12 off, .b4, data.setWidth 64⟩
  if 0x40 ≤ o ∧ o < 0x64 then
    if busy then hold else s.modRing r fun x => { x with staged := x.staged.put o data }
  else if o = 0x74 then s.modRing r fun x => { x with chead := data }
  else if o = 0x78 then if busy then hold else s.writeRingCtrl r data
  else if o = 0x7C then
    (s.modRing r fun x => { x with flags := x.flags &&& ~~~(fld data 16 4) }).evalVec (ringFn r) (s.ring r).vec
      ((s.ring r).flags &&& fld data 16 4 != 0)
  else s

/-- A write of PART_CTRL (R530, R544, R545). -/
def State.writePartCtrl (s : State) (p : Part) (data : Word) : State :=
  let s := if bit data 0 then s.partRecover p else s
  let s := if bit data 1 then s.partOffline p else s
  let s := if bit data 2 then s.partOnline p else s
  if bit data 3 then s.dumpAck p else s

/-- A write of DAT_INV (R400, R402). -/
def State.writeInv (s : State) (data : Word) : State :=
  let s := s.putReg (.dat 0) 0x050 ⟨0x1F, 0, .immediate⟩ data
  if bit data 5 then s.datDrop (fld data 0 4) (bit data 4) else s

/-- A write of PQ_CTRL (R453): RUN, then COMMIT and RESTART. -/
def State.writePqCtrl (s : State) (f : Func) (data : Word) : State :=
  let s := s.pqRun f (bit data 0)
  let s := if bit data 1 then s.startCheck (.peer 0) (.pq f) else s
  if bit data 2 then s.pqRestart f else s

/-- A write of the mailbox (R485, R486): dropped with OVERRUN while a command runs; GO submits. -/
def State.writeMailbox (s : State) (off : Nat) (data : Word) : State :=
  if s.mgmt.cmd.isSome then s.raise .mgmt 4
  else
    let s := match regInfo .mgmt off with
      | some r => s.putReg .mgmt off r data
      | none => s
    if off = 0x080 ∧ bit data 31 then s.mbGo (fld data 0 8) else s

/-- A write of BIST_CTRL (R514, R519). -/
def State.writeBist (s : State) (w : Who) (data : Word) : State :=
  let s := if bit data 0 then s.bistGo w else s
  if bit data 1 then s.bistAbort else s

/-- A write of a word of a SYNC object page (R386, R387): compare-and-swap, its operands, and the objects. -/
def State.writeObj (s : State) (w : Who) (k off : Nat) (size : AccSize) (data : DWord) : State :=
  let c := PageClass.syncObj k
  let lo : Word := data.setWidth 32
  if off = 0x040 then
    let s := s.putReg c off ⟨0x7F, 0, .immediate⟩ lo
    if bit lo 8 then (s.syncCas w k (fld lo 0 7).toNat).settleBarriers else s
  else if off = 0x048 ∨ off = 0x050 then
    let r : RegInfo := ⟨0xFFFFFFFF, 0, .immediate⟩
    let v : DWord := if size = .b8 then data else data &&& 0xFFFFFFFF
    (s.putReg c off r (half v false)).putReg c (off + 4) r (half v true)
  else if 0x800 ≤ off then
    match syncData size (off % 8 == 4) data with
    | some v => s.hostSync w (pageObj k ((off - 0x800) / 16)) (if off % 16 = 0 then .set v else .add v)
    | none => s
  else s

/-- A commit register written: the check starts, or the write is held (R57). -/
def State.writeCommit (s : State) (w : Who) (c : PageClass) (k : Check) (off : Nat) (data : Word) : State :=
  if !bit data 0 then s
  else s.commitWrite w c k off data fun s => s.startCheck c k

/-- A word written beyond the header, counters apart: the register's own effect, or a configuration word. -/
def State.writeBlock (s : State) (w : Who) (c : PageClass) (off : Nat) (data : Word) : State :=
  let reg (s : State) : State := match regInfo c off with
    | some r => s.writeReg w c off r data
    | none => s
  match c with
  | .mgmt => if off = 0x080 ∨ off = 0x084 ∨ 0x800 ≤ off then s.writeMailbox off data else s
  | .part p =>
    let p : Part := ⟨p % 4, Nat.mod_lt _ (by omega)⟩
    if off = 0x044 then s.writePartCtrl p data
    else if off = 0x088 ∧ p = 0 then (reg s).ackLog data
    else reg s
  | .dat p =>
    if off = 0x044 ∧ p = 0 then s.writeCommit w c .dat off data
    else if off = 0x048 then s.writeCommit w c .rsv off data
    else if off = 0x050 ∧ p = 0 then s.writeInv data
    else reg s
  | .peer q =>
    if off = 0x044 then if bit data 0 then s.retrain ⟨q % 4, Nat.mod_lt _ (by omega)⟩ else s
    else if off = 0x070 ∧ q = 0 then s.writeCommit w c .peer off data
    else if 0x200 ≤ off ∧ off < 0x400 ∧ off % 32 = 0x10 ∧ q = 0 then
      let f : Func := ⟨(off - 0x200) / 32 % 16, Nat.mod_lt _ (by omega)⟩
      s.pqWrite w f data fun s => s.writePqCtrl f data
    else reg s
  | .pcie => if off = 0x044 ∧ bit data 1 then s.modHost fun h => { h with returned := false } else s
  | .clk => if off = 0x048 then if bit data 0 then s.firingReq else s else reg s
  | .bist => if off = 0x060 then s.writeBist w data else reg s
  | .sync => if off = 0x080 then s.writeCommit w c .sync off data else reg s
  | .core t =>
    let t := subTile t
    if off = 0x084 then
      (List.finRange 4).foldl (fun s c => if bit data c.val then s.requestStop t c else s) s
    else if 0x088 ≤ off ∧ off < 0x098 then
      if w == .firmware && bit data 0 then s.ctxReset t ⟨(off - 0x088) / 4 % 4, Nat.mod_lt _ (by omega)⟩ else s
    else reg s
  | .dma t => if off = 0x080 then s.dmaKill (subTile t) (data.setWidth 8) else s
  | .spad t =>
    if off = 0x050 then s.writeRmap w (subTile t) data
    else if off = 0x054 then if w == .firmware && bit data 0 then s.beginClear (subTile t) else s
    else reg s
  | _ => reg s

/-- A word of the header written (R46). -/
def State.writeHeader (s : State) (w : Who) (c : PageClass) (off : Nat) (data : Word) : State :=
  match off with
  | 0x008 => s.writeCtrl w c data
  | 0x00C => if bit data 16 then s.clearViol c else s
  | 0x010 => s.clearIrq c data
  | 0x014 =>
    (s.modPage (pageNo c) fun p => { p with irqEnable := data &&& irqMask c }).evalVec 0 (pageVector c) false
  | 0x018 => s.raise c data
  | 0x020 =>
    let s := if bit data 1 then s.releaseSnap c else s
    if bit data 0 then s.takeSnap c else s
  | _ => s

/-- A register of 4 bytes written, or a 64-bit one of 8 that acts once (R45). -/
def State.writeWord (s : State) (w : Who) (c : PageClass) (off : Nat) (size : AccSize) (data : DWord) : State :=
  let lo : Word := data.setWidth 32
  let rest (s : State) : State :=
    match counterAt c off with
    | some (x, hi) => s.writeCounter c x hi size data
    | none =>
      if (s.ovfShown c off).isSome then s.clearOvf c off lo
      else match c with
        | .ring k => s.writeRing w (16 * k + off / 0x100) off lo
        | .syncObj k => s.writeObj w k off size data
        | _ => s.writeBlock w c off lo
  match c with
  | .ring _ => if off < 0x40 then s.writeHeader w c off lo else if off % 0x100 < 0x40 then s else rest s
  | _ => if off < 0x40 then s.writeHeader w c off lo else rest s

/-- The register at an offset is one of 64 bits on which an 8-byte write acts once (R67, R387). -/
def wideAt (c : PageClass) (off : Nat) : Bool :=
  match c, counterAt c off with
  | .syncObj _, _ => decide (0x800 ≤ off) || off == 0x048 || off == 0x050
  | _, some (.page _ .sat32, _) => false
  | _, some (_, hi) => !hi
  | _, none => false

/-- A write of a page at an offset (R45): narrow and misaligned writes are dropped; an 8-byte write of two
registers is two writes, the low one first. -/
def State.writePage (s : State) (w : Who) (c : PageClass) (off : Nat) (size : AccSize) (data : DWord) : State :=
  match size with
  | .b1 | .b2 => s
  | .b4 => if off % 4 = 0 then s.writeWord w c off .b4 data else s
  | .b8 =>
    if off % 8 ≠ 0 then s
    else if wideAt c off then s.writeWord w c off .b8 data
    else (s.writeWord w c off .b4 (data &&& 0xFFFFFFFF)).writeWord w c (off + 4) .b4 (data >>> 32)

/-- A write of this size at this offset reaches a register (R45). -/
def writeFits (size : AccSize) (off : Nat) : Bool :=
  match size with
  | .b1 | .b2 => false
  | .b4 => off % 4 == 0
  | .b8 => off % 8 == 0

/-- A held write carried out, once its check has ended and its island goes on (R57, R494). -/
def State.applyHeld (s : State) (c : PageClass) (x : HeldWrite) : State :=
  s.accept c x fun s => s.writePage x.who c x.off.toNat x.size x.data

/-- The writes that wait at a page which nothing holds up any more (R494). -/
def State.releaseHeld (s : State) (c : PageClass) : State :=
  let p := s.page (pageNo c)
  if p.held.isEmpty || !p.checking.isEmpty || s.gatedPage c then s
  else p.held.foldl (fun s x => s.applyHeld c x) (s.modPage (pageNo c) fun p => { p with held := [] })

/-- A write that a sender puts to a page, behind those that wait there (R45, R494). -/
def State.sendWrite (s : State) (w : Who) (c : PageClass) (off : Nat) (size : AccSize) (data : DWord) : State :=
  if !writeFits size off then s
  else (s.releaseHeld c).accept c ⟨w, BitVec.ofNat 12 off, size, data⟩ fun s => s.writePage w c off size data

/-! ### The rows (R45, R49, R53, R59, R64, R67, R70, R71) -/

/-- A write of a word of a function's MSI-X table (R424, R429): the message of a vector, or its mask. -/
def State.writeMsix (s : State) (f : Func) (off : Nat) (data : Word) : State :=
  let v := off / 16 % 64
  let i := off % 16 / 4
  if i = 3 then
    (s.modHost fun h => { h with unmask := Tab.set false h.unmask (vecKey f v) (!bit data 0) }).sendPending f
  else s.modHost fun h => { h with msixTable := Tab.set 0 h.msixTable (4 * vecKey f v + i) data }

/-- A write through BAR4 of a function (R361, R424): a doorbell page, or the MSI-X table; the PBA is
read-only. -/
def State.writeBar4 (s : State) (f : Func) (addr : Nat) (size : AccSize) (data : DWord) : State :=
  let table := if f = 0 then 0x10000 else 0x1000
  let lo : Word := data.setWidth 32
  if !s.bar4Open f then s
  else if addr < table then
    let g : Func := if f = 0 then ⟨addr / 4096 % 16, Nat.mod_lt _ (by omega)⟩ else f
    if size = .b4 ∧ addr % 4 = 0 then
      if s.inBoot || s.board.svc.state == .failed || fnBit s.host.flr g then s
      else s.doorbell (ringNo g (BitVec.ofNat 10 (addr % 4096 / 4))) lo (!fnBit s.host.needFlr g)
    else s
  else if addr < table + 1024 then
    match size with
    | .b4 => if addr % 4 = 0 then s.writeMsix f (addr - table) lo else s
    | .b8 =>
      if addr % 8 = 0 then (s.writeMsix f (addr - table) lo).writeMsix f (addr - table + 4) (half data true) else s
    | _ => s
  else s

/-- A word of a function's MSI-X table or PBA, by its offset from the table (R424, R429). -/
def State.msixWord (s : State) (f : Func) (off : Nat) : Word :=
  if off < 1024 then
    let v := off / 16
    let i := off % 16 / 4
    if i = 3 then b2v 32 (!Tab.get false s.host.unmask (vecKey f v))
    else Tab.get 0 s.host.msixTable (4 * vecKey f v + i)
  else if off = 0x1000 ∨ off = 0x1004 then
    bitsOf 32 32 fun i => Tab.get false s.host.pba (vecKey f (i + 8 * (off - 0x1000)))
  else 0

/-- What a BAR4 read returns (R424): words of the MSI-X table and of the PBA; a doorbell page holds no register that
reads. -/
def State.readBar4 (s : State) (f : Func) (addr : Nat) (size : AccSize) : DWord :=
  let table := if f = 0 then 0x10000 else 0x1000
  let word (a : Nat) : DWord := (s.msixWord f (a - table)).setWidth 64
  if !s.bar4Open f || addr < table then 0
  else match size with
    | .b4 => if addr % 4 = 0 then word addr else 0
    | .b8 => if addr % 8 = 0 then word addr ||| (word (addr + 4) <<< 32) else 0
    | _ => 0

/-- A write of an unowned SYNC object through a VF's view does not reach it; any other write reaches the page
its view shows, where that page takes writes of the function. -/
def State.writeBar0 (s : State) (w : Who) (addr : Nat) (size : AccSize) (data : DWord) : State :=
  match s.reach w (addr / 4096) with
  | none => s
  | some c => if s.mayWrite w c then s.sendWrite w c (addr % 4096) size data else s

/-- REGISTER_WRITE (R45): a write by the host, through BAR0 or BAR4, or by system firmware. -/
def execRegisterWrite (w : Who) (bar4 : Bool) (addr : BitVec 25) (size : AccSize) (data : DWord) (s : State) :
    Host.Outcome State Fault Refusal :=
  match w, bar4 with
  | .func f, true => .next (s.writeBar4 f addr.toNat size data)
  | .firmware, true => .next s
  | _, false => .next (s.writeBar0 w addr.toNat size data)

/-- A write of a header register of a page by its true number: of one that is populated and that the writer may write; it
waits where the page's island is gated (R494). -/
def State.atPage (s : State) (w : Who) (page : BitVec 13) (off : BitVec 12) (data : PageClass → Word)
    (go : PageClass → State → State) : State :=
  match pageClass page.toNat with
  | none => s
  | some c => if s.mayWrite w c then
      (s.releaseHeld c).accept c ⟨w, off, .b4, (data c).setWidth 64⟩ (go c) else s

/-- BLK_ENABLE (R49, R59): ENABLE written 1, LOCK and SOFT_RESET 0. -/
def execBlkEnable (w : Who) (page : BitVec 13) (s : State) : Host.Outcome State Fault Refusal :=
  .next (s.atPage w page 0x008 (fun _ => 1) fun c s => s.writeCtrl w c 1)

/-- BLK_DISABLE (R49): ENABLE written 0, LOCK and SOFT_RESET 0. -/
def execBlkDisable (w : Who) (page : BitVec 13) (s : State) : Host.Outcome State Fault Refusal :=
  .next (s.atPage w page 0x008 (fun _ => 0) fun c s => s.writeCtrl w c 0)

/-- The end of a check on a page (R57, R59). -/
def State.checkDone (s : State) (c : PageClass) (sub : Option Func) : State :=
  match (s.page (pageNo c)).checkOf sub with
  | none => s
  | some k =>
    let s := s.endCheck c k
    let held := (s.page (pageNo c)).held
    held.foldl (fun s x => s.applyHeld c x) (s.modPage (pageNo c) fun p => { p with held := [] })

/-- CONSISTENCY_CHECK_DONE (R57, R59): the check of a page ends, or with `sub` that of its ring record or peer
queue `sub`. DESIGN CHOICE: 0x1FF0 + f, which is no page of the map, names the page of function f (R427). -/
def execConsistencyCheckDone (page : BitVec 13) (sub : Option Func) (s : State) :
    Host.Outcome State Fault Refusal :=
  match (if 0x1FF0 ≤ page.toNat then some (.fn (page.toNat - 0x1FF0)) else pageClass page.toNat) with
  | none => .next s
  | some c => .next (s.checkDone c sub)

/-- BLK_LOCK (R49): LOCK written 1 with ENABLE as the page has it, or as its running check asks for it. -/
def execBlkLock (w : Who) (page : BitVec 13) (s : State) : Host.Outcome State Fault Refusal :=
  let data (s : State) (c : PageClass) : Word :=
    let p := s.page (pageNo c)
    if p.enable || p.checking.contains .enable then 3 else 2
  .next (s.atPage w page 0x008 (data s) fun c s => s.writeCtrl w c (data s c))

/-- SOFT_RESET (R561): SOFT_RESET written 1, ENABLE and LOCK 0. -/
def execSoftReset (w : Who) (page : BitVec 13) (s : State) : Host.Outcome State Fault Refusal :=
  .next (s.atPage w page 0x008 (fun _ => 0x10) fun c s => s.writeCtrl w c 0x10)

/-- IRQ_STATUS_CLEAR (R53, R429). -/
def execIrqStatusClear (w : Who) (page : BitVec 13) (bits : Word) (s : State) :
    Host.Outcome State Fault Refusal :=
  .next (s.atPage w page 0x010 (fun _ => bits) fun c s => s.clearIrq c bits)

/-- IRQ_FORCE (R53). -/
def execIrqForce (w : Who) (page : BitVec 13) (bits : Word) (s : State) : Host.Outcome State Fault Refusal :=
  .next (s.atPage w page 0x018 (fun _ => bits) fun c s => s.raise c bits)

/-- WO_VIOL_CLEAR (R64). -/
def execWoViolClear (w : Who) (page : BitVec 13) (s : State) : Host.Outcome State Fault Refusal :=
  .next (s.atPage w page 0x00C (fun _ => 0x10000) fun c s => s.clearViol c)

/-- A function may read a page: PF0 every page, a VF those of its view (R425, R431). -/
def State.mayRead (s : State) (w : Who) (c : PageClass) : Bool :=
  s.mayWrite w c || (c == .chip && (match w with
    | .func f => s.barOpen f
    | .firmware => true))

/-- The data of a read put where the model shows it. -/
def State.showData (s : State) (v : DWord) : State := s.modHost fun h => { h with rdata := v }

/-- The 64-bit register whose low word stands at an offset, as a reader sees it (R67, R73, R387). -/
def State.wideShown (s : State) (w : Who) (c : PageClass) (off : Nat) : Option DWord :=
  match c, counterAt c off with
  | .syncObj k, _ => if wideAt c off || off == 0x058 then some (s.objPair k off) else none
  | .chip, _ => if off = 0x048 then some s.time else none
  | _, some (.page _ .sat32, _) => none
  | _, some (x, false) => some (if s.hides w then 0 else s.counterShown c x)
  | _, _ => none

/-- COUNTER_LOW_READ (R45, R67): a read of the low word latches the high word of the same cycle for its
reader. A read of an object through its page is an operation of a bank slot of its own, which is counted (R382, R387,
R390). -/
def execCounterLowRead (w : Who) (page : BitVec 13) (off : BitVec 12) (s : State) :
    Host.Outcome State Fault Refusal :=
  match pageClass page.toNat with
  | none => .next (s.showData 0)
  | some c =>
    let o := off.toNat / 4 * 4
    if !s.mayRead w c then .next (s.showData 0)
    else
      let s := match c with
        | .syncObj _ =>
          let s := (s.hostArrive w).settleBarriers
          if 0x800 ≤ o ∧ o % 8 = 0 then s.count .sync 0 1 else s
        | _ => s
      match s.wideShown w c o with
      | none => .next (s.showData ((s.readWord w c o).setWidth 64))
      | some v =>
        .next ((s.modPage (pageNo c) fun p => { p with
          latch := Tab.set 0 p.latch (Who.reader w) (half v true) }).showData ((half v false).setWidth 64))

/-- COUNTER_WRITE (R67, R69): a counter written at its word of 4 bytes or whole, with `inc` events in the same
cycle. -/
def execCounterWrite (w : Who) (page : BitVec 13) (off : BitVec 12) (size : AccSize) (data inc : DWord)
    (s : State) : Host.Outcome State Fault Refusal :=
  match pageClass page.toNat with
  | none => .next s
  | some c =>
    match counterAt c (off.toNat / 4 * 4) with
    | none => .next (if s.mayWrite w c then s.sendWrite w c off.toNat size data else s)
    | some (x, _) =>
      let s := if s.mayWrite w c then s.sendWrite w c off.toNat size data else s
      .next (s.addCounter c x inc.toNat)

/-- SNAP_TAKE (R70 to R72). -/
def execSnapTake (w : Who) (page : BitVec 13) (s : State) : Host.Outcome State Fault Refusal :=
  .next (s.atPage w page 0x020 (fun _ => 1) fun c s => s.takeSnap c)

/-- SNAP_RELEASE (R70). -/
def execSnapRelease (w : Who) (page : BitVec 13) (s : State) : Host.Outcome State Fault Refusal :=
  .next (s.atPage w page 0x020 (fun _ => 2) fun c s => s.releaseSnap c)

/-- CHIP_SVC_STATE_READ (R41): the other five service registers are latched for the reader. -/
def execChipSvcStateRead (w : Who) (s : State) : Host.Outcome State Fault Refusal :=
  .next (if s.mayRead w .chip then
    (s.modBoard fun b => { b with latch := Tab.set [] b.latch (Who.reader w) s.svcWords }).showData
      (s.board.svc.word.setWidth 64)
  else s.showData 0)

end Sys2Proof.Machine
end

