-- ==== Sys2Proof/Machine/Gating.lean ====
section
/-! DEFINITION. The events that end the gating of islands: sweeps, rails and self-test (R494, R498, R509, R514, R516,
R519). -/

namespace Sys2Proof.Machine

/-- Writes that gated islands have held back reach the islands that go on (R494). -/
def State.releaseWrites (s : State) : State :=
  (s.pages.filterMap fun e => if e.2.held.isEmpty then none else pageClass e.1).foldl (fun s c => s.releaseHeld c) s

/-- What an event of a firing has made of the state `s`: TED_CAP where CAP_TED has risen, and the writes held back. -/
def State.fired (r s : State) : State := (r.tedEdges s (List.range 272)).releaseWrites

/-- ISLAND_SWEEP_DONE (R509). -/
def execIslandSweepDone (island : Island) (cprlim0 cprlim1 : BitVec 12) (age : BitVec 16) (s : State) :
    Host.Outcome State Fault Refusal :=
  .next ((s.sweepDone island cprlim0 cprlim1 age).fired s)

/-- RAIL_SETTLED (R498). -/
def execRailSettled (rail : Fin 13) (s : State) : Host.Outcome State Fault Refusal :=
  .next ((s.railSettled rail).fired s)

/-- BIST_ABORT (R519). -/
def execBistAbort (w : Who) (s : State) : Host.Outcome State Fault Refusal :=
  .next (if s.mayWrite w .bist then s.bistAbort.releaseWrites else s)

/-- BIST_DONE (R514, R519). -/
def execBistDone (misr : DWord) (rows : List (Tile × BitVec 6 × Byte)) (failing : List Island) (s : State) :
    Host.Outcome State Fault Refusal :=
  .next (s.bistDone misr rows failing).releaseWrites

end Sys2Proof.Machine
end

