-- ==== Sys2Proof/Machine/ScalarRows.lean ====
section
/-! DEFINITION. The scalar rows of a bundle (R108, R563 to R568). -/

namespace Sys2Proof.Machine

/-- NOP (R108): The nop operation does nothing and counts against no unit. -/
def execNop (i : Issue) (s : State) : Host.Outcome State Fault Refusal :=
  .next (issue i .nop s)

/-- ADD (R563): add writes rs1 plus rs2 to a data register, wrapping modulo 2^32. -/
def execAdd (i : Issue) (rd rs1 rs2 : BitVec 5) (s : State) : Host.Outcome State Fault Refusal :=
  .next (issue i (.alu .add rd rs1 rs2) s)

/-- SUB (R563): sub writes rs1 minus rs2 to a data register. -/
def execSub (i : Issue) (rd rs1 rs2 : BitVec 5) (s : State) : Host.Outcome State Fault Refusal :=
  .next (issue i (.alu .sub rd rs1 rs2) s)

/-- AND (R563): and writes the bitwise AND of two data registers. -/
def execAnd (i : Issue) (rd rs1 rs2 : BitVec 5) (s : State) : Host.Outcome State Fault Refusal :=
  .next (issue i (.alu .and rd rs1 rs2) s)

/-- OR (R563): or writes the bitwise OR of two data registers. -/
def execOr (i : Issue) (rd rs1 rs2 : BitVec 5) (s : State) : Host.Outcome State Fault Refusal :=
  .next (issue i (.alu .or rd rs1 rs2) s)

/-- XOR (R563): xor writes the bitwise XOR of two data registers. -/
def execXor (i : Issue) (rd rs1 rs2 : BitVec 5) (s : State) : Host.Outcome State Fault Refusal :=
  .next (issue i (.alu .xor rd rs1 rs2) s)

/-- SLL (R563): sll shifts rs1 left by rs2 modulo 32. -/
def execSll (i : Issue) (rd rs1 rs2 : BitVec 5) (s : State) : Host.Outcome State Fault Refusal :=
  .next (issue i (.alu .sll rd rs1 rs2) s)

/-- SRL (R563): srl shifts rs1 right logically by rs2 modulo 32. -/
def execSrl (i : Issue) (rd rs1 rs2 : BitVec 5) (s : State) : Host.Outcome State Fault Refusal :=
  .next (issue i (.alu .srl rd rs1 rs2) s)

/-- SRA (R563): sra shifts rs1 right arithmetically by rs2 modulo 32. -/
def execSra (i : Issue) (rd rs1 rs2 : BitVec 5) (s : State) : Host.Outcome State Fault Refusal :=
  .next (issue i (.alu .sra rd rs1 rs2) s)

/-- MIN (R563): min writes the signed minimum of two data registers. -/
def execMin (i : Issue) (rd rs1 rs2 : BitVec 5) (s : State) : Host.Outcome State Fault Refusal :=
  .next (issue i (.alu .min rd rs1 rs2) s)

/-- MAX (R563): max writes the signed maximum of two data registers. -/
def execMax (i : Issue) (rd rs1 rs2 : BitVec 5) (s : State) : Host.Outcome State Fault Refusal :=
  .next (issue i (.alu .max rd rs1 rs2) s)

/-- MINU (R563): minu writes the unsigned minimum of two data registers. -/
def execMinu (i : Issue) (rd rs1 rs2 : BitVec 5) (s : State) : Host.Outcome State Fault Refusal :=
  .next (issue i (.alu .minu rd rs1 rs2) s)

/-- MAXU (R563): maxu writes the unsigned maximum of two data registers. -/
def execMaxu (i : Issue) (rd rs1 rs2 : BitVec 5) (s : State) : Host.Outcome State Fault Refusal :=
  .next (issue i (.alu .maxu rd rs1 rs2) s)

/-- MOV (R563): mov copies one data register to another. -/
def execMov (i : Issue) (rd rs : BitVec 5) (s : State) : Host.Outcome State Fault Refusal :=
  .next (issue i (.mov rd rs) s)

/-- MFP (R563): mfp writes bit 0 of a predicate, zero-extended, to a data register. -/
def execMfp (i : Issue) (rd : BitVec 5) (p : BitVec 3) (s : State) :
    Host.Outcome State Fault Refusal :=
  .next (issue i (.mfp rd p) s)

/-- MTP (R563): mtp sets every bit of a predicate to bit 0 of a data register. -/
def execMtp (i : Issue) (p : BitVec 3) (rs : BitVec 5) (s : State) :
    Host.Outcome State Fault Refusal :=
  .next (issue i (.mtp p rs) s)

/-- ADDI (R564): addi adds a sign-extended immediate to a data register. -/
def execAddi (i : Issue) (rd rs1 : BitVec 5) (imm : BitVec 14) (s : State) :
    Host.Outcome State Fault Refusal :=
  .next (issue i (.aluImm .addi rd rs1 imm) s)

/-- ANDI (R564): andi ANDs a data register with a sign-extended immediate. -/
def execAndi (i : Issue) (rd rs1 : BitVec 5) (imm : BitVec 14) (s : State) :
    Host.Outcome State Fault Refusal :=
  .next (issue i (.aluImm .andi rd rs1 imm) s)

/-- ORI (R564): ori ORs a data register with a zero-extended immediate. -/
def execOri (i : Issue) (rd rs1 : BitVec 5) (imm : BitVec 14) (s : State) :
    Host.Outcome State Fault Refusal :=
  .next (issue i (.aluImm .ori rd rs1 imm) s)

/-- XORI (R564): xori XORs a data register with a zero-extended immediate. -/
def execXori (i : Issue) (rd rs1 : BitVec 5) (imm : BitVec 14) (s : State) :
    Host.Outcome State Fault Refusal :=
  .next (issue i (.aluImm .xori rd rs1 imm) s)

/-- SLLI (R564): slli shifts a data register left by an immediate amount. -/
def execSlli (i : Issue) (rd rs1 : BitVec 5) (amount : BitVec 5) (s : State) :
    Host.Outcome State Fault Refusal :=
  .next (issue i (.aluImm .slli rd rs1 (amount.setWidth 14)) s)

/-- SRLI (R564): srli shifts a data register right logically by an immediate amount. -/
def execSrli (i : Issue) (rd rs1 : BitVec 5) (amount : BitVec 5) (s : State) :
    Host.Outcome State Fault Refusal :=
  .next (issue i (.aluImm .srli rd rs1 (amount.setWidth 14)) s)

/-- SRAI (R564): srai shifts a data register right arithmetically by an immediate amount. -/
def execSrai (i : Issue) (rd rs1 : BitVec 5) (amount : BitVec 5) (s : State) :
    Host.Outcome State Fault Refusal :=
  .next (issue i (.aluImm .srai rd rs1 (amount.setWidth 14)) s)

/-- SH (R108): The short sh shifts a data register left or arithmetically right by an immediate. -/
def execSh (i : Issue) (rd : BitVec 4) (right : Bool) (amount : BitVec 5) (s : State) :
    Host.Outcome State Fault Refusal :=
  .next (issue i (.aluImm (if right then .srai else .slli) (rd.setWidth 5) (rd.setWidth 5) (amount.setWidth 14)) s)

/-- MOVI (R566): movi loads a sign-extended immediate into a data register. -/
def execMovi (i : Issue) (rd : BitVec 5) (imm : BitVec 18) (s : State) :
    Host.Outcome State Fault Refusal :=
  .next (issue i (.movi rd imm) s)

/-- MOVHI (R566): movhi loads bits 31 to 18 of a data register and keeps its low bits. -/
def execMovhi (i : Issue) (rd : BitVec 5) (imm : BitVec 14) (s : State) :
    Host.Outcome State Fault Refusal :=
  .next (issue i (.movhi rd imm) s)

/-- CMPEQ (R565): cmpeq writes equality of two data registers to every bit of a predicate. -/
def execCmpeq (i : Issue) (pd : BitVec 3) (rs1 rs2 : BitVec 5) (s : State) :
    Host.Outcome State Fault Refusal :=
  .next (issue i (.cmp .eq pd rs1 rs2) s)

/-- CMPNE (R565): cmpne writes inequality of two data registers to a predicate. -/
def execCmpne (i : Issue) (pd : BitVec 3) (rs1 rs2 : BitVec 5) (s : State) :
    Host.Outcome State Fault Refusal :=
  .next (issue i (.cmp .ne pd rs1 rs2) s)

/-- CMPLT (R565): cmplt writes a signed less-than compare to a predicate. -/
def execCmplt (i : Issue) (pd : BitVec 3) (rs1 rs2 : BitVec 5) (s : State) :
    Host.Outcome State Fault Refusal :=
  .next (issue i (.cmp .lt pd rs1 rs2) s)

/-- CMPLTU (R565): cmpltu writes an unsigned less-than compare to a predicate. -/
def execCmpltu (i : Issue) (pd : BitVec 3) (rs1 rs2 : BitVec 5) (s : State) :
    Host.Outcome State Fault Refusal :=
  .next (issue i (.cmp .ltu pd rs1 rs2) s)

/-- CMPLE (R565): cmple writes a signed less-or-equal compare to a predicate. -/
def execCmple (i : Issue) (pd : BitVec 3) (rs1 rs2 : BitVec 5) (s : State) :
    Host.Outcome State Fault Refusal :=
  .next (issue i (.cmp .le pd rs1 rs2) s)

/-- CMPLEU (R565): cmpleu writes an unsigned less-or-equal compare to a predicate. -/
def execCmpleu (i : Issue) (pd : BitVec 3) (rs1 rs2 : BitVec 5) (s : State) :
    Host.Outcome State Fault Refusal :=
  .next (issue i (.cmp .leu pd rs1 rs2) s)

/-- MUL (R567): mul writes the low 32 bits of a product. -/
def execMul (i : Issue) (rd rs1 rs2 : BitVec 5) (s : State) : Host.Outcome State Fault Refusal :=
  .next (issue i (.mul .mul rd rs1 rs2) s)

/-- MULH (R567): mulh writes the high 32 bits of the signed product. -/
def execMulh (i : Issue) (rd rs1 rs2 : BitVec 5) (s : State) : Host.Outcome State Fault Refusal :=
  .next (issue i (.mul .mulh rd rs1 rs2) s)

/-- MULHU (R567): mulhu writes the high 32 bits of the unsigned product. -/
def execMulhu (i : Issue) (rd rs1 rs2 : BitVec 5) (s : State) : Host.Outcome State Fault Refusal :=
  .next (issue i (.mul .mulhu rd rs1 rs2) s)

/-- MAC (R567): mac adds a signed product into a 40-bit scalar accumulator. -/
def execMac (i : Issue) (acc : BitVec 3) (rs1 rs2 : BitVec 5) (s : State) :
    Host.Outcome State Fault Refusal :=
  .next (issue i (.mac .mac acc rs1 rs2) s)

/-- MACU (R567): macu adds an unsigned product into a scalar accumulator. -/
def execMacu (i : Issue) (acc : BitVec 3) (rs1 rs2 : BitVec 5) (s : State) :
    Host.Outcome State Fault Refusal :=
  .next (issue i (.mac .macu acc rs1 rs2) s)

/-- MSU (R567): msu subtracts a signed product from a scalar accumulator. -/
def execMsu (i : Issue) (acc : BitVec 3) (rs1 rs2 : BitVec 5) (s : State) :
    Host.Outcome State Fault Refusal :=
  .next (issue i (.mac .msu acc rs1 rs2) s)

/-- CLR_ACC (R567): clr.acc sets a scalar accumulator to 0. -/
def execClrAcc (i : Issue) (acc : BitVec 3) (s : State) : Host.Outcome State Fault Refusal :=
  .next (issue i (.clrAcc acc) s)

/-- MOV_ACC_FROM_DATA (R567): mov.acc acc,d,sh loads a scalar accumulator with a sign-extended data
register shifted left. -/
def execMovAccFromData (i : Issue) (acc : BitVec 3) (rs sh : BitVec 5) (s : State) :
    Host.Outcome State Fault Refusal :=
  .next (issue i (.movAccFrom acc rs sh) s)

/-- MOV_ACC (R567): mov.acc d,acc,sh writes a data register with the accumulator rounded by cround
and saturated to the signed range. -/
def execMovAcc (i : Issue) (rd : BitVec 5) (acc : BitVec 3) (sh : BitVec 5) (s : State) :
    Host.Outcome State Fault Refusal :=
  .next (issue i (.movAcc false rd acc sh) s)

/-- MOV_ACCU (R567): mov.accu writes the accumulator rounded by cround and saturated to the unsigned
range. -/
def execMovAccu (i : Issue) (rd : BitVec 5) (acc : BitVec 3) (sh : BitVec 5) (s : State) :
    Host.Outcome State Fault Refusal :=
  .next (issue i (.movAcc true rd acc sh) s)

/-- ADDA (R568): adda adds a data register or immediate to an address register. -/
def execAdda (i : Issue) (ad as1 : BitVec 4) (src : Sum (BitVec 5) (BitVec 14)) (s : State) :
    Host.Outcome State Fault Refusal :=
  .next (issue i (match src with | .inl rs => .adda ad as1 rs | .inr imm => .addaImm ad as1 imm) s)

/-- SUBA (R568): suba subtracts a data register from an address register. -/
def execSuba (i : Issue) (ad as1 : BitVec 4) (rs : BitVec 5) (s : State) :
    Host.Outcome State Fault Refusal :=
  .next (issue i (.suba ad as1 rs) s)

/-- MOVA (R568): mova copies a data or address register into an address register. -/
def execMova (i : Issue) (ad : BitVec 4) (src : Sum (BitVec 5) (BitVec 4)) (s : State) :
    Host.Outcome State Fault Refusal :=
  .next (issue i (match src with | .inl rs => .movaD ad rs | .inr as1 => .movaA ad as1) s)

/-- MOVD (R568): movd copies an address register into a data register. -/
def execMovd (i : Issue) (rd : BitVec 5) (as1 : BitVec 4) (s : State) :
    Host.Outcome State Fault Refusal :=
  .next (issue i (.movd rd as1) s)

/-- CMPA_EQ (R568): cmpa.eq writes address equality to a predicate. -/
def execCmpaEq (i : Issue) (pd : BitVec 3) (as1 as2 : BitVec 4) (s : State) :
    Host.Outcome State Fault Refusal :=
  .next (issue i (.cmpa .eq pd as1 as2) s)

/-- CMPA_LT (R568): cmpa.lt writes an unsigned address less-than to a predicate. -/
def execCmpaLt (i : Issue) (pd : BitVec 3) (as1 as2 : BitVec 4) (s : State) :
    Host.Outcome State Fault Refusal :=
  .next (issue i (.cmpa .lt pd as1 as2) s)

/-- CMPA_LE (R568): cmpa.le writes an unsigned address less-or-equal to a predicate. -/
def execCmpaLe (i : Issue) (pd : BitVec 3) (as1 as2 : BitVec 4) (s : State) :
    Host.Outcome State Fault Refusal :=
  .next (issue i (.cmpa .le pd as1 as2) s)

end Sys2Proof.Machine
end

