-- ==== Sys2Proof/Machine/VectorRows.lean ====
section
/-! DEFINITION. The vector rows of a bundle (R143, R157 to R172). -/

namespace Sys2Proof.Machine

/-- VADD (R157): vadd adds vector elements modulo 2^W. -/
def execVadd (i : Issue) (vd vs1 vs2 : BitVec 5) (pg : BitVec 3) (wd : BitVec 2) (s : State) :
    Host.Outcome State Fault Refusal :=
  .next (issue i (.vint .add vd vs1 vs2 pg wd) s)

/-- VSUB (R157): vsub subtracts vector elements. -/
def execVsub (i : Issue) (vd vs1 vs2 : BitVec 5) (pg : BitVec 3) (wd : BitVec 2) (s : State) :
    Host.Outcome State Fault Refusal :=
  .next (issue i (.vint .sub vd vs1 vs2 pg wd) s)

/-- VADDS (R157): vadds adds with signed saturation. -/
def execVadds (i : Issue) (vd vs1 vs2 : BitVec 5) (pg : BitVec 3) (wd : BitVec 2) (s : State) :
    Host.Outcome State Fault Refusal :=
  .next (issue i (.vint .adds vd vs1 vs2 pg wd) s)

/-- VADDUS (R157): vaddus adds with unsigned saturation. -/
def execVaddus (i : Issue) (vd vs1 vs2 : BitVec 5) (pg : BitVec 3) (wd : BitVec 2) (s : State) :
    Host.Outcome State Fault Refusal :=
  .next (issue i (.vint .addus vd vs1 vs2 pg wd) s)

/-- VSUBS (R157): vsubs subtracts with signed saturation. -/
def execVsubs (i : Issue) (vd vs1 vs2 : BitVec 5) (pg : BitVec 3) (wd : BitVec 2) (s : State) :
    Host.Outcome State Fault Refusal :=
  .next (issue i (.vint .subs vd vs1 vs2 pg wd) s)

/-- VSUBUS (R157): vsubus subtracts with unsigned saturation. -/
def execVsubus (i : Issue) (vd vs1 vs2 : BitVec 5) (pg : BitVec 3) (wd : BitVec 2) (s : State) :
    Host.Outcome State Fault Refusal :=
  .next (issue i (.vint .subus vd vs1 vs2 pg wd) s)

/-- VAND (R157): vand is the element-wise bitwise AND. -/
def execVand (i : Issue) (vd vs1 vs2 : BitVec 5) (pg : BitVec 3) (wd : BitVec 2) (s : State) :
    Host.Outcome State Fault Refusal :=
  .next (issue i (.vint .and vd vs1 vs2 pg wd) s)

/-- VOR (R157): vor is the element-wise bitwise OR. -/
def execVor (i : Issue) (vd vs1 vs2 : BitVec 5) (pg : BitVec 3) (wd : BitVec 2) (s : State) :
    Host.Outcome State Fault Refusal :=
  .next (issue i (.vint .or vd vs1 vs2 pg wd) s)

/-- VXOR (R157): vxor is the element-wise bitwise XOR. -/
def execVxor (i : Issue) (vd vs1 vs2 : BitVec 5) (pg : BitVec 3) (wd : BitVec 2) (s : State) :
    Host.Outcome State Fault Refusal :=
  .next (issue i (.vint .xor vd vs1 vs2 pg wd) s)

/-- VMIN (R157): vmin writes the signed minimum per element. -/
def execVmin (i : Issue) (vd vs1 vs2 : BitVec 5) (pg : BitVec 3) (wd : BitVec 2) (s : State) :
    Host.Outcome State Fault Refusal :=
  .next (issue i (.vint .min vd vs1 vs2 pg wd) s)

/-- VMAX (R157): vmax writes the signed maximum per element. -/
def execVmax (i : Issue) (vd vs1 vs2 : BitVec 5) (pg : BitVec 3) (wd : BitVec 2) (s : State) :
    Host.Outcome State Fault Refusal :=
  .next (issue i (.vint .max vd vs1 vs2 pg wd) s)

/-- VMINU (R157): vminu writes the unsigned minimum per element. -/
def execVminu (i : Issue) (vd vs1 vs2 : BitVec 5) (pg : BitVec 3) (wd : BitVec 2) (s : State) :
    Host.Outcome State Fault Refusal :=
  .next (issue i (.vint .minu vd vs1 vs2 pg wd) s)

/-- VMAXU (R157): vmaxu writes the unsigned maximum per element. -/
def execVmaxu (i : Issue) (vd vs1 vs2 : BitVec 5) (pg : BitVec 3) (wd : BitVec 2) (s : State) :
    Host.Outcome State Fault Refusal :=
  .next (issue i (.vint .maxu vd vs1 vs2 pg wd) s)

/-- VSLL (R157): vsll shifts elements left by vector amounts. -/
def execVsll (i : Issue) (vd vs1 vs2 : BitVec 5) (pg : BitVec 3) (wd : BitVec 2) (s : State) :
    Host.Outcome State Fault Refusal :=
  .next (issue i (.vint .sll vd vs1 vs2 pg wd) s)

/-- VSRA (R157): vsra shifts elements right arithmetically by vector amounts. -/
def execVsra (i : Issue) (vd vs1 vs2 : BitVec 5) (pg : BitVec 3) (wd : BitVec 2) (s : State) :
    Host.Outcome State Fault Refusal :=
  .next (issue i (.vint .sra vd vs1 vs2 pg wd) s)

/-- VSRL (R157): vsrl shifts elements right logically by vector amounts. -/
def execVsrl (i : Issue) (vd vs1 vs2 : BitVec 5) (pg : BitVec 3) (wd : BitVec 2) (s : State) :
    Host.Outcome State Fault Refusal :=
  .next (issue i (.vint .srl vd vs1 vs2 pg wd) s)

/-- VADDI (R157): vaddi adds a sign-extended immediate to each element. -/
def execVaddi (i : Issue) (vd vs1 : BitVec 5) (pg : BitVec 3) (wd : BitVec 2) (imm : BitVec 6) (s : State) :
    Host.Outcome State Fault Refusal :=
  .next (issue i (.vimm .addi vd vs1 pg wd imm) s)

/-- VSLLI (R157): vslli shifts elements left by an immediate. -/
def execVslli (i : Issue) (vd vs1 : BitVec 5) (pg : BitVec 3) (wd : BitVec 2) (imm : BitVec 6) (s : State) :
    Host.Outcome State Fault Refusal :=
  .next (issue i (.vimm .slli vd vs1 pg wd imm) s)

/-- VSRAI (R157): vsrai shifts elements right arithmetically by an immediate. -/
def execVsrai (i : Issue) (vd vs1 : BitVec 5) (pg : BitVec 3) (wd : BitVec 2) (imm : BitVec 6) (s : State) :
    Host.Outcome State Fault Refusal :=
  .next (issue i (.vimm .srai vd vs1 pg wd imm) s)

/-- VSRLI (R157): vsrli shifts elements right logically by an immediate. -/
def execVsrli (i : Issue) (vd vs1 : BitVec 5) (pg : BitVec 3) (wd : BitVec 2) (imm : BitVec 6) (s : State) :
    Host.Outcome State Fault Refusal :=
  .next (issue i (.vimm .srli vd vs1 pg wd imm) s)

/-- VMOVI (R157): vmovi sets each active element to a sign-extended immediate. -/
def execVmovi (i : Issue) (vd : BitVec 5) (pg : BitVec 3) (wd : BitVec 2) (imm : BitVec 6) (s : State) :
    Host.Outcome State Fault Refusal :=
  .next (issue i (.vimm .movi vd 0 pg wd imm) s)

/-- VMOV (R108): The short vmov copies one vector register to another. -/
def execVmov (i : Issue) (vd vs1 : BitVec 4) (s : State) : Host.Outcome State Fault Refusal :=
  .next (issue i (.vun .mov (vd.setWidth 5) (vs1.setWidth 5) 0 0) s)

/-- VMULQ (R157): vmulq writes the saturated, convergently rounded fixed-point product. -/
def execVmulq (i : Issue) (vd vs1 vs2 : BitVec 5) (pg : BitVec 3) (wd : BitVec 2) (s : State) :
    Host.Outcome State Fault Refusal :=
  .next (issue i (.vint .mulq vd vs1 vs2 pg wd) s)

/-- VMULH (R157): vmulh writes the high half of the signed product. -/
def execVmulh (i : Issue) (vd vs1 vs2 : BitVec 5) (pg : BitVec 3) (wd : BitVec 2) (s : State) :
    Host.Outcome State Fault Refusal :=
  .next (issue i (.vint .mulh vd vs1 vs2 pg wd) s)

/-- VABS (R157): vabs writes the saturated absolute value. -/
def execVabs (i : Issue) (vd vs1 : BitVec 5) (pg : BitVec 3) (wd : BitVec 2) (s : State) :
    Host.Outcome State Fault Refusal :=
  .next (issue i (.vun .abs vd vs1 pg wd) s)

/-- VNEG (R157): vneg writes the saturated negation. -/
def execVneg (i : Issue) (vd vs1 : BitVec 5) (pg : BitVec 3) (wd : BitVec 2) (s : State) :
    Host.Outcome State Fault Refusal :=
  .next (issue i (.vun .neg vd vs1 pg wd) s)

/-- VNARROW (R157): vnarrow narrows accumulator elements by a rounded shift with signed saturation.
-/
def execVnarrow (i : Issue) (vd : BitVec 5) (va : BitVec 3) (sh : BitVec 5) (pg : BitVec 3) (wd : BitVec 2) (s : State) :
    Host.Outcome State Fault Refusal :=
  .next (issue i (.vnarrow .narrow vd va sh pg wd) s)

/-- VNARROWU (R157): vnarrowu narrows accumulator elements with unsigned saturation. -/
def execVnarrowu (i : Issue) (vd : BitVec 5) (va : BitVec 3) (sh : BitVec 5) (pg : BitVec 3) (wd : BitVec 2) (s : State) :
    Host.Outcome State Fault Refusal :=
  .next (issue i (.vnarrow .narrowu vd va sh pg wd) s)

/-- VNARROWD (R157): vnarrowd narrows with the shift taken from a data register. -/
def execVnarrowd (i : Issue) (vd : BitVec 5) (va : BitVec 3) (sh : BitVec 5) (pg : BitVec 3) (wd : BitVec 2) (s : State) :
    Host.Outcome State Fault Refusal :=
  .next (issue i (.vnarrow .narrowd vd va sh pg wd) s)

/-- VAVG (R157): vavg writes the rounded average of two elements. -/
def execVavg (i : Issue) (vd vs1 vs2 : BitVec 5) (pg : BitVec 3) (wd : BitVec 2) (s : State) :
    Host.Outcome State Fault Refusal :=
  .next (issue i (.vint .avg vd vs1 vs2 pg wd) s)

/-- VMAC_H (R158): vmac.h adds signed 16-bit products into accumulator elements. -/
def execVmacH (i : Issue) (va : BitVec 3) (vs1 vs2 : BitVec 5) (pg : BitVec 3) (s : State) :
    Host.Outcome State Fault Refusal :=
  .next (issue i (.vmac .h va vs1 vs2 pg) s)

/-- VMAC_HSU (R158): vmac.hsu adds signed-by-unsigned 16-bit products. -/
def execVmacHsu (i : Issue) (va : BitVec 3) (vs1 vs2 : BitVec 5) (pg : BitVec 3) (s : State) :
    Host.Outcome State Fault Refusal :=
  .next (issue i (.vmac .hsu va vs1 vs2 pg) s)

/-- VMAC_HUU (R158): vmac.huu adds unsigned 16-bit products. -/
def execVmacHuu (i : Issue) (va : BitVec 3) (vs1 vs2 : BitVec 5) (pg : BitVec 3) (s : State) :
    Host.Outcome State Fault Refusal :=
  .next (issue i (.vmac .huu va vs1 vs2 pg) s)

/-- VMSU_H (R158): vmsu.h subtracts signed 16-bit products. -/
def execVmsuH (i : Issue) (va : BitVec 3) (vs1 vs2 : BitVec 5) (pg : BitVec 3) (s : State) :
    Host.Outcome State Fault Refusal :=
  .next (issue i (.vmac .msuH va vs1 vs2 pg) s)

/-- VMAC_B (R158): vmac.b adds pairs of signed 8-bit products into accumulator elements. -/
def execVmacB (i : Issue) (va : BitVec 3) (vs1 vs2 : BitVec 5) (pg : BitVec 3) (s : State) :
    Host.Outcome State Fault Refusal :=
  .next (issue i (.vmac .b va vs1 vs2 pg) s)

/-- VMAC_BSU (R158): vmac.bsu adds pairs of signed-by-unsigned 8-bit products. -/
def execVmacBsu (i : Issue) (va : BitVec 3) (vs1 vs2 : BitVec 5) (pg : BitVec 3) (s : State) :
    Host.Outcome State Fault Refusal :=
  .next (issue i (.vmac .bsu va vs1 vs2 pg) s)

/-- VMAC_BUU (R158): vmac.buu adds pairs of unsigned 8-bit products. -/
def execVmacBuu (i : Issue) (va : BitVec 3) (vs1 vs2 : BitVec 5) (pg : BitVec 3) (s : State) :
    Host.Outcome State Fault Refusal :=
  .next (issue i (.vmac .buu va vs1 vs2 pg) s)

/-- VMSU_B (R158): vmsu.b subtracts pairs of signed 8-bit products. -/
def execVmsuB (i : Issue) (va : BitVec 3) (vs1 vs2 : BitVec 5) (pg : BitVec 3) (s : State) :
    Host.Outcome State Fault Refusal :=
  .next (issue i (.vmac .msuB va vs1 vs2 pg) s)

/-- VCLR_ACC (R158): vclr.acc clears accumulator elements. -/
def execVclrAcc (i : Issue) (va : BitVec 3) (pg : BitVec 3) (s : State) :
    Host.Outcome State Fault Refusal :=
  .next (issue i (.vacc .clr va 0 0 pg) s)

/-- VMOV_VA (R158): vmov.va loads accumulators with sign-extended elements shifted left. -/
def execVmovVa (i : Issue) (va : BitVec 3) (vs1 sh : BitVec 5) (pg : BitVec 3) (s : State) :
    Host.Outcome State Fault Refusal :=
  .next (issue i (.vacc .movVa va vs1 sh pg) s)

/-- VMOV_VAU (R158): vmov.vau loads accumulators with zero-extended elements shifted left. -/
def execVmovVau (i : Issue) (va : BitVec 3) (vs1 sh : BitVec 5) (pg : BitVec 3) (s : State) :
    Host.Outcome State Fault Refusal :=
  .next (issue i (.vacc .movVau va vs1 sh pg) s)

/-- VFADD (R165): vfadd adds FP32 or BF16 elements. -/
def execVfadd (i : Issue) (vd vs1 vs2 : BitVec 5) (pg : BitVec 3) (wd : BitVec 2) (s : State) :
    Host.Outcome State Fault Refusal :=
  .next (issue i (.vfp .add vd vs1 vs2 pg wd) s)

/-- VFSUB (R165): vfsub subtracts FP32 or BF16 elements. -/
def execVfsub (i : Issue) (vd vs1 vs2 : BitVec 5) (pg : BitVec 3) (wd : BitVec 2) (s : State) :
    Host.Outcome State Fault Refusal :=
  .next (issue i (.vfp .sub vd vs1 vs2 pg wd) s)

/-- VFMUL (R165): vfmul multiplies FP32 or BF16 elements. -/
def execVfmul (i : Issue) (vd vs1 vs2 : BitVec 5) (pg : BitVec 3) (wd : BitVec 2) (s : State) :
    Host.Outcome State Fault Refusal :=
  .next (issue i (.vfp .mul vd vs1 vs2 pg wd) s)

/-- VFMA (R165): vfma computes vd plus vs1 times vs2, fused. -/
def execVfma (i : Issue) (vd vs1 vs2 : BitVec 5) (pg : BitVec 3) (wd : BitVec 2) (s : State) :
    Host.Outcome State Fault Refusal :=
  .next (issue i (.vfp .fma vd vs1 vs2 pg wd) s)

/-- VFMS (R165): vfms computes vd minus vs1 times vs2, fused. -/
def execVfms (i : Issue) (vd vs1 vs2 : BitVec 5) (pg : BitVec 3) (wd : BitVec 2) (s : State) :
    Host.Outcome State Fault Refusal :=
  .next (issue i (.vfp .fms vd vs1 vs2 pg wd) s)

/-- VFMIN (R165): vfmin writes the floating minimum, ignoring a single NaN. -/
def execVfmin (i : Issue) (vd vs1 vs2 : BitVec 5) (pg : BitVec 3) (wd : BitVec 2) (s : State) :
    Host.Outcome State Fault Refusal :=
  .next (issue i (.vfp .min vd vs1 vs2 pg wd) s)

/-- VFMAX (R165): vfmax writes the floating maximum, ignoring a single NaN. -/
def execVfmax (i : Issue) (vd vs1 vs2 : BitVec 5) (pg : BitVec 3) (wd : BitVec 2) (s : State) :
    Host.Outcome State Fault Refusal :=
  .next (issue i (.vfp .max vd vs1 vs2 pg wd) s)

/-- VFABS (R165): vfabs writes the floating absolute value. -/
def execVfabs (i : Issue) (vd vs1 : BitVec 5) (pg : BitVec 3) (wd : BitVec 2) (s : State) :
    Host.Outcome State Fault Refusal :=
  .next (issue i (.vfp .abs vd vs1 0 pg wd) s)

/-- VFNEG (R165): vfneg writes the floating negation. -/
def execVfneg (i : Issue) (vd vs1 : BitVec 5) (pg : BitVec 3) (wd : BitVec 2) (s : State) :
    Host.Outcome State Fault Refusal :=
  .next (issue i (.vfp .neg vd vs1 0 pg wd) s)

/-- VSETL (R143): vsetl sets VTYPE and VL to the requested length capped at VLMAX and returns VL. -/
def execVsetl (i : Issue) (rd rs : BitVec 5) (sew g : BitVec 2) (s : State) :
    Host.Outcome State Fault Refusal :=
  .next (issue i (.vsetl rd rs sew g) s)

/-- VSETL_R (R143): vsetl.r restores VL and VTYPE from a word written by vgetl. -/
def execVsetlR (i : Issue) (rs : BitVec 5) (s : State) : Host.Outcome State Fault Refusal :=
  .next (issue i (.vsetlR rs) s)

/-- VGETL (R143): vgetl writes VL and the VTYPE codes to a data register. -/
def execVgetl (i : Issue) (rd : BitVec 5) (s : State) : Host.Outcome State Fault Refusal :=
  .next (issue i (.vgetl rd) s)

/-- VCMPEQ (R159): vcmpeq writes element equality to a predicate. -/
def execVcmpeq (i : Issue) (pd : BitVec 3) (vs1 vs2 : BitVec 5) (pg : BitVec 3) (wd : BitVec 2) (s : State) :
    Host.Outcome State Fault Refusal :=
  .next (issue i (.vcmp .eq pd vs1 vs2 pg wd) s)

/-- VCMPLT (R159): vcmplt writes signed element less-than to a predicate. -/
def execVcmplt (i : Issue) (pd : BitVec 3) (vs1 vs2 : BitVec 5) (pg : BitVec 3) (wd : BitVec 2) (s : State) :
    Host.Outcome State Fault Refusal :=
  .next (issue i (.vcmp .lt pd vs1 vs2 pg wd) s)

/-- VCMPLTU (R159): vcmpltu writes unsigned element less-than to a predicate. -/
def execVcmpltu (i : Issue) (pd : BitVec 3) (vs1 vs2 : BitVec 5) (pg : BitVec 3) (wd : BitVec 2) (s : State) :
    Host.Outcome State Fault Refusal :=
  .next (issue i (.vcmp .ltu pd vs1 vs2 pg wd) s)

/-- VCMPLE (R159): vcmple writes signed element less-or-equal to a predicate. -/
def execVcmple (i : Issue) (pd : BitVec 3) (vs1 vs2 : BitVec 5) (pg : BitVec 3) (wd : BitVec 2) (s : State) :
    Host.Outcome State Fault Refusal :=
  .next (issue i (.vcmp .le pd vs1 vs2 pg wd) s)

/-- VFCMPEQ (R159): vfcmpeq writes floating equality to a predicate, false on NaN. -/
def execVfcmpeq (i : Issue) (pd : BitVec 3) (vs1 vs2 : BitVec 5) (pg : BitVec 3) (wd : BitVec 2) (s : State) :
    Host.Outcome State Fault Refusal :=
  .next (issue i (.vcmp .feq pd vs1 vs2 pg wd) s)

/-- VFCMPLT (R159): vfcmplt writes floating less-than to a predicate, false on NaN. -/
def execVfcmplt (i : Issue) (pd : BitVec 3) (vs1 vs2 : BitVec 5) (pg : BitVec 3) (wd : BitVec 2) (s : State) :
    Host.Outcome State Fault Refusal :=
  .next (issue i (.vcmp .flt pd vs1 vs2 pg wd) s)

/-- PAND (R159): pand ANDs predicates over active bits. -/
def execPand (i : Issue) (pd ps1 ps2 pg : BitVec 3) (s : State) :
    Host.Outcome State Fault Refusal :=
  .next (issue i (.pred .and pd ps1 ps2 pg i.width) s)

/-- POR (R159): por ORs predicates over active bits. -/
def execPor (i : Issue) (pd ps1 ps2 pg : BitVec 3) (s : State) :
    Host.Outcome State Fault Refusal :=
  .next (issue i (.pred .or pd ps1 ps2 pg i.width) s)

/-- PXOR (R159): pxor XORs predicates over active bits. -/
def execPxor (i : Issue) (pd ps1 ps2 pg : BitVec 3) (s : State) :
    Host.Outcome State Fault Refusal :=
  .next (issue i (.pred .xor pd ps1 ps2 pg i.width) s)

/-- PNOT (R159): pnot inverts a predicate over active bits. -/
def execPnot (i : Issue) (pd ps1 pg : BitVec 3) (s : State) :
    Host.Outcome State Fault Refusal :=
  .next (issue i (.pred .not pd ps1 0 pg i.width) s)

/-- PANY (R159): pany sets every bit to the OR of the active bits. -/
def execPany (i : Issue) (pd ps1 pg : BitVec 3) (s : State) :
    Host.Outcome State Fault Refusal :=
  .next (issue i (.pred .any pd ps1 0 pg i.width) s)

/-- PALL (R159): pall sets every bit to the AND of the active bits. -/
def execPall (i : Issue) (pd ps1 pg : BitVec 3) (s : State) :
    Host.Outcome State Fault Refusal :=
  .next (issue i (.pred .all pd ps1 0 pg i.width) s)

/-- PCNT (R159): pcnt counts the active bits that are 1 into a data register. -/
def execPcnt (i : Issue) (rd : BitVec 5) (ps pg : BitVec 3) (s : State) :
    Host.Outcome State Fault Refusal :=
  .next (issue i (.pcnt rd ps pg i.width) s)

/-- VPERM (R160): vperm gathers elements of vs1 by indices in vs2. -/
def execVperm (i : Issue) (vd vs1 vs2 : BitVec 5) (pg : BitVec 3) (wd : BitVec 2) (s : State) :
    Host.Outcome State Fault Refusal :=
  .next (issue i (.vperm .perm vd vs1 vs2 pg wd) s)

/-- VSLIDEUP (R160): vslideup moves elements up by a register amount, filling with 0. -/
def execVslideup (i : Issue) (vd vs1 vs2 : BitVec 5) (pg : BitVec 3) (wd : BitVec 2) (s : State) :
    Host.Outcome State Fault Refusal :=
  .next (issue i (.vperm .slideup vd vs1 vs2 pg wd) s)

/-- VSLIDEDN (R160): vslidedn moves elements down by a register amount, filling with 0. -/
def execVslidedn (i : Issue) (vd vs1 vs2 : BitVec 5) (pg : BitVec 3) (wd : BitVec 2) (s : State) :
    Host.Outcome State Fault Refusal :=
  .next (issue i (.vperm .slidedn vd vs1 vs2 pg wd) s)

/-- VZIP_LO (R160): vzip.lo writes the low half of two interleaved vectors. -/
def execVzipLo (i : Issue) (vd vs1 vs2 : BitVec 5) (pg : BitVec 3) (wd : BitVec 2) (s : State) :
    Host.Outcome State Fault Refusal :=
  .next (issue i (.vperm .zipLo vd vs1 vs2 pg wd) s)

/-- VZIP_HI (R160): vzip.hi writes the high half of two interleaved vectors. -/
def execVzipHi (i : Issue) (vd vs1 vs2 : BitVec 5) (pg : BitVec 3) (wd : BitVec 2) (s : State) :
    Host.Outcome State Fault Refusal :=
  .next (issue i (.vperm .zipHi vd vs1 vs2 pg wd) s)

/-- VUNZIP_E (R160): vunzip.e writes the even elements of two concatenated vectors. -/
def execVunzipE (i : Issue) (vd vs1 vs2 : BitVec 5) (pg : BitVec 3) (wd : BitVec 2) (s : State) :
    Host.Outcome State Fault Refusal :=
  .next (issue i (.vperm .unzipE vd vs1 vs2 pg wd) s)

/-- VUNZIP_O (R160): vunzip.o writes the odd elements of two concatenated vectors. -/
def execVunzipO (i : Issue) (vd vs1 vs2 : BitVec 5) (pg : BitVec 3) (wd : BitVec 2) (s : State) :
    Host.Outcome State Fault Refusal :=
  .next (issue i (.vperm .unzipO vd vs1 vs2 pg wd) s)

/-- VREV (R160): vrev reverses the element order. -/
def execVrev (i : Issue) (vd vs1 : BitVec 5) (pg : BitVec 3) (wd : BitVec 2) (s : State) :
    Host.Outcome State Fault Refusal :=
  .next (issue i (.vperm .rev vd vs1 0 pg wd) s)

/-- VTRN (R160): vtrn transposes each complete 256-element block as 16 by 16. -/
def execVtrn (i : Issue) (vd vs1 : BitVec 5) (pg : BitVec 3) (wd : BitVec 2) (s : State) :
    Host.Outcome State Fault Refusal :=
  .next (issue i (.vperm .trn vd vs1 0 pg wd) s)

/-- VBCAST (R160): vbcast broadcasts the low bits of a data register. -/
def execVbcast (i : Issue) (vd vs1 : BitVec 5) (pg : BitVec 3) (wd : BitVec 2) (s : State) :
    Host.Outcome State Fault Refusal :=
  .next (issue i (.vperm .bcast vd vs1 0 pg wd) s)

/-- VREDSUM (R161): vredsum sums sign-extended active elements into a data register. -/
def execVredsum (i : Issue) (rd vs1 : BitVec 5) (pg : BitVec 3) (wd : BitVec 2) (s : State) :
    Host.Outcome State Fault Refusal :=
  .next (issue i (.vred .sum rd vs1 0 pg wd) s)

/-- VREDSUMU (R161): vredsumu sums zero-extended active elements. -/
def execVredsumu (i : Issue) (rd vs1 : BitVec 5) (pg : BitVec 3) (wd : BitVec 2) (s : State) :
    Host.Outcome State Fault Refusal :=
  .next (issue i (.vred .sumu rd vs1 0 pg wd) s)

/-- VREDMAX (R161): vredmax returns the signed maximum of active elements. -/
def execVredmax (i : Issue) (rd vs1 : BitVec 5) (pg : BitVec 3) (wd : BitVec 2) (s : State) :
    Host.Outcome State Fault Refusal :=
  .next (issue i (.vred .max rd vs1 0 pg wd) s)

/-- VREDMIN (R161): vredmin returns the signed minimum of active elements. -/
def execVredmin (i : Issue) (rd vs1 : BitVec 5) (pg : BitVec 3) (wd : BitVec 2) (s : State) :
    Host.Outcome State Fault Refusal :=
  .next (issue i (.vred .min rd vs1 0 pg wd) s)

/-- VMAXI (R161): vmaxi returns the signed maximum and its lowest index. -/
def execVmaxi (i : Issue) (rd vs1 rd2 : BitVec 5) (pg : BitVec 3) (wd : BitVec 2) (s : State) :
    Host.Outcome State Fault Refusal :=
  .next (issue i (.vred .maxi rd vs1 rd2 pg wd) s)

/-- VMINI (R161): vmini returns the signed minimum and its lowest index. -/
def execVmini (i : Issue) (rd vs1 rd2 : BitVec 5) (pg : BitVec 3) (wd : BitVec 2) (s : State) :
    Host.Outcome State Fault Refusal :=
  .next (issue i (.vred .mini rd vs1 rd2 pg wd) s)

/-- VBEXP (R167): vbexp returns the common redundant sign bits of active elements. -/
def execVbexp (i : Issue) (rd vs1 : BitVec 5) (pg : BitVec 3) (wd : BitVec 2) (s : State) :
    Host.Outcome State Fault Refusal :=
  .next (issue i (.vred .bexp rd vs1 0 pg wd) s)

/-- VBEXP_ACC (R167): vbexp.acc returns the block exponent of an accumulator group at 40 bits. -/
def execVbexpAcc (i : Issue) (rd : BitVec 5) (va : BitVec 3) (pg : BitVec 3) (s : State) :
    Host.Outcome State Fault Refusal :=
  .next (issue i (.vred .bexpAcc rd (va.setWidth 5) 0 pg 0) s)

/-- VFREDSUM (R166): vfredsum returns the fixed-order FP32 tree sum of active elements. -/
def execVfredsum (i : Issue) (rd vs1 : BitVec 5) (pg : BitVec 3) (wd : BitVec 2) (s : State) :
    Host.Outcome State Fault Refusal :=
  .next (issue i (.vred .fsum rd vs1 0 pg wd) s)

/-- VFMAXI (R161): vfmaxi returns the floating maximum and its lowest index, skipping NaNs. -/
def execVfmaxi (i : Issue) (rd vs1 rd2 : BitVec 5) (pg : BitVec 3) (wd : BitVec 2) (s : State) :
    Host.Outcome State Fault Refusal :=
  .next (issue i (.vred .fmaxi rd vs1 rd2 pg wd) s)

/-- VFMINI (R161): vfmini returns the floating minimum and its lowest index, skipping NaNs. -/
def execVfmini (i : Issue) (rd vs1 rd2 : BitVec 5) (pg : BitVec 3) (wd : BitVec 2) (s : State) :
    Host.Outcome State Fault Refusal :=
  .next (issue i (.vred .fmini rd vs1 rd2 pg wd) s)

/-- VCVT_S_W (R162): vcvt.s.w converts int32 to FP32. -/
def execVcvtSW (i : Issue) (vd vs1 : BitVec 5) (pg : BitVec 3) (s : State) :
    Host.Outcome State Fault Refusal :=
  .next (issue i (.vcvt .sW vd vs1 pg) s)

/-- VCVT_W_S (R162): vcvt.w.s converts FP32 to saturated int32. -/
def execVcvtWS (i : Issue) (vd vs1 : BitVec 5) (pg : BitVec 3) (s : State) :
    Host.Outcome State Fault Refusal :=
  .next (issue i (.vcvt .wS vd vs1 pg) s)

/-- VCVT_S_BF (R162): vcvt.s.bf converts BF16 to FP32 exactly. -/
def execVcvtSBf (i : Issue) (vd vs1 : BitVec 5) (pg : BitVec 3) (s : State) :
    Host.Outcome State Fault Refusal :=
  .next (issue i (.vcvt .sBf vd vs1 pg) s)

/-- VCVT_BF_S (R162): vcvt.bf.s converts FP32 to BF16. -/
def execVcvtBfS (i : Issue) (vd vs1 : BitVec 5) (pg : BitVec 3) (s : State) :
    Host.Outcome State Fault Refusal :=
  .next (issue i (.vcvt .bfS vd vs1 pg) s)

/-- VCVT_S_E4 (R162): vcvt.s.e4 converts E4M3 to FP32. -/
def execVcvtSE4 (i : Issue) (vd vs1 : BitVec 5) (pg : BitVec 3) (s : State) :
    Host.Outcome State Fault Refusal :=
  .next (issue i (.vcvt .sE4 vd vs1 pg) s)

/-- VCVT_S_E5 (R162): vcvt.s.e5 converts E5M2 to FP32. -/
def execVcvtSE5 (i : Issue) (vd vs1 : BitVec 5) (pg : BitVec 3) (s : State) :
    Host.Outcome State Fault Refusal :=
  .next (issue i (.vcvt .sE5 vd vs1 pg) s)

/-- VCVT_E4_S (R162): vcvt.e4.s converts FP32 to saturated E4M3. -/
def execVcvtE4S (i : Issue) (vd vs1 : BitVec 5) (pg : BitVec 3) (s : State) :
    Host.Outcome State Fault Refusal :=
  .next (issue i (.vcvt .e4S vd vs1 pg) s)

/-- VCVT_E5_S (R162): vcvt.e5.s converts FP32 to saturated E5M2. -/
def execVcvtE5S (i : Issue) (vd vs1 : BitVec 5) (pg : BitVec 3) (s : State) :
    Host.Outcome State Fault Refusal :=
  .next (issue i (.vcvt .e5S vd vs1 pg) s)

/-- VEXT (R162): vext extracts one element into a data register. -/
def execVext (i : Issue) (rd vs1 rs : BitVec 5) (pg : BitVec 3) (wd : BitVec 2) (s : State) :
    Host.Outcome State Fault Refusal :=
  .next (issue i (.vext rd vs1 rs pg wd) s)

/-- VINS (R162): vins inserts a data register value into one element. -/
def execVins (i : Issue) (vd rs1 rs2 : BitVec 5) (pg : BitVec 3) (wd : BitVec 2) (s : State) :
    Host.Outcome State Fault Refusal :=
  .next (issue i (.vins vd rs1 rs2 pg wd) s)

/-- VCVT_H_B (R162): vcvt.h.b sign-extends 8-bit elements to 16 bits. -/
def execVcvtHB (i : Issue) (vd vs1 : BitVec 5) (pg : BitVec 3) (s : State) :
    Host.Outcome State Fault Refusal :=
  .next (issue i (.vcvt .hB vd vs1 pg) s)

/-- VCVT_H_BU (R162): vcvt.h.bu zero-extends 8-bit elements to 16 bits. -/
def execVcvtHBu (i : Issue) (vd vs1 : BitVec 5) (pg : BitVec 3) (s : State) :
    Host.Outcome State Fault Refusal :=
  .next (issue i (.vcvt .hBu vd vs1 pg) s)

/-- VLUT (R169): vlut looks up each element's low byte in a context lookup table. -/
def execVlut (i : Issue) (t : BitVec 1) (vd vs1 : BitVec 5) (pg : BitVec 3) (wd : BitVec 2) (s : State) :
    Host.Outcome State Fault Refusal :=
  .next (issue i (.vlut false t vd vs1 pg wd) s)

/-- VLUT_I (R169): vlut.i interpolates linearly between neighbouring lookup-table entries. -/
def execVlutI (i : Issue) (t : BitVec 1) (vd vs1 : BitVec 5) (pg : BitVec 3) (wd : BitVec 2) (s : State) :
    Host.Outcome State Fault Refusal :=
  .next (issue i (.vlut true t vd vs1 pg wd) s)

/-- VLUTLD (R168): vlutld loads a lookup table from local scratchpad. -/
def execVlutld (i : Issue) (t : BitVec 1) (ab : BitVec 4) (off : VOff) (s : State) :
    Host.Outcome State Fault Refusal :=
  .next (issue i (.vlutMem false t ab off) s)

/-- VLUTST (R168): vlutst stores a lookup table to local scratchpad. -/
def execVlutst (i : Issue) (t : BitVec 1) (ab : BitVec 4) (off : VOff) (s : State) :
    Host.Outcome State Fault Refusal :=
  .next (issue i (.vlutMem true t ab off) s)

/-- VDWIN (R170): vdwin shifts a window register's B half into A and loads B from a vector register.
-/
def execVdwin (i : Issue) (wr : BitVec 3) (vs : BitVec 5) (s : State) :
    Host.Outcome State Fault Refusal :=
  .next (issue i (.vdwin wr vs) s)

/-- VDWMAC (R171): vdwmac accumulates one kernel row of a depthwise convolution into an accumulator
pair. -/
def execVdwmac (i : Issue) (va wr : BitVec 3) (v : BitVec 5) (k dil : BitVec 2) (c32 u z : Bool) (s : State) :
    Host.Outcome State Fault Refusal :=
  .next (issue i (.vdwmac va wr v k dil c32 u z) s)

/-- VLD (R172): A unit-stride vector load reads consecutive elements from local, remote or HBM
addresses. -/
def execVld (i : Issue) (v : BitVec 5) (ab : BitVec 4) (pg : BitVec 3) (off : VOff) (s : State) :
    Host.Outcome State Fault Refusal :=
  .next (issue i (.vmem .unit false v ab pg off) s)

/-- VST (R172): A unit-stride vector store writes consecutive elements. -/
def execVst (i : Issue) (v : BitVec 5) (ab : BitVec 4) (pg : BitVec 3) (off : VOff) (s : State) :
    Host.Outcome State Fault Refusal :=
  .next (issue i (.vmem .unit true v ab pg off) s)

/-- STRIDED_LOAD (R172): A strided vector load reads elements at a signed register stride. -/
def execStridedLoad (i : Issue) (v : BitVec 5) (ab : BitVec 4) (pg : BitVec 3) (rx : BitVec 5) (s : State) :
    Host.Outcome State Fault Refusal :=
  .next (issue i (.vmem .strided false v ab pg (.reg rx 0)) s)

/-- STRIDED_STORE (R172): A strided vector store writes elements at a signed register stride. -/
def execStridedStore (i : Issue) (v : BitVec 5) (ab : BitVec 4) (pg : BitVec 3) (rx : BitVec 5) (s : State) :
    Host.Outcome State Fault Refusal :=
  .next (issue i (.vmem .strided true v ab pg (.reg rx 0)) s)

/-- LOAD_2D (R172): A 2D vector load reads rows of L elements at a row stride. -/
def execLoad2d (i : Issue) (v : BitVec 5) (ab : BitVec 4) (pg : BitVec 3) (rx : BitVec 5) (s : State) :
    Host.Outcome State Fault Refusal :=
  .next (issue i (.vmem .twoD false v ab pg (.reg rx 0)) s)

/-- STORE_2D (R172): A 2D vector store writes rows of L elements at a row stride. -/
def execStore2d (i : Issue) (v : BitVec 5) (ab : BitVec 4) (pg : BitVec 3) (rx : BitVec 5) (s : State) :
    Host.Outcome State Fault Refusal :=
  .next (issue i (.vmem .twoD true v ab pg (.reg rx 0)) s)

/-- GATHER (R172): A gather loads elements at addresses given by an index group. -/
def execGather (i : Issue) (v : BitVec 5) (ab : BitVec 4) (pg : BitVec 3) (vrx : BitVec 5) (scale : BitVec 2) (s : State) :
    Host.Outcome State Fault Refusal :=
  .next (issue i (.vmem .indexed false v ab pg (.reg vrx scale)) s)

/-- SCATTER (R172): A scatter stores elements at addresses given by an index group. -/
def execScatter (i : Issue) (v : BitVec 5) (ab : BitVec 4) (pg : BitVec 3) (vrx : BitVec 5) (scale : BitVec 2) (s : State) :
    Host.Outcome State Fault Refusal :=
  .next (issue i (.vmem .indexed true v ab pg (.reg vrx scale)) s)

end Sys2Proof.Machine
end

