-- ==== Sys2Proof/Machine/Dispatch.lean ====
section
/-! DEFINITION. The meaning of every command: one arm per constructor of Instr. -/

namespace Sys2Proof.Machine

/-- The effect of a command on everything but the queue of pending commands. -/
def exec (i : Instr) (s : State) : Host.Outcome State Fault Refusal :=
  match i with
  | .registerWrite w bar4 addr size data => Sys2Proof.Machine.execRegisterWrite w bar4 addr size data s
  | .blkEnable w page => Sys2Proof.Machine.execBlkEnable w page s
  | .blkDisable w page => Sys2Proof.Machine.execBlkDisable w page s
  | .consistencyCheckDone page sub => Sys2Proof.Machine.execConsistencyCheckDone page sub s
  | .blkLock w page => Sys2Proof.Machine.execBlkLock w page s
  | .softReset w page => Sys2Proof.Machine.execSoftReset w page s
  | .irqStatusClear w page bits => Sys2Proof.Machine.execIrqStatusClear w page bits s
  | .irqForce w page bits => Sys2Proof.Machine.execIrqForce w page bits s
  | .woViolClear w page => Sys2Proof.Machine.execWoViolClear w page s
  | .counterLowRead w page off => Sys2Proof.Machine.execCounterLowRead w page off s
  | .counterWrite w page off size data inc => Sys2Proof.Machine.execCounterWrite w page off size data inc s
  | .snapTake w page => Sys2Proof.Machine.execSnapTake w page s
  | .snapRelease w page => Sys2Proof.Machine.execSnapRelease w page s
  | .chipSvcStateRead w => Sys2Proof.Machine.execChipSvcStateRead w s
  | .remoteRequest core => Sys2Proof.Machine.execRemoteRequest core s
  | .loadDataArrival core => Sys2Proof.Machine.execLoadDataArrival core s
  | .remoteAck core => Sys2Proof.Machine.execRemoteAck core s
  | .storeBufferDrain core => Sys2Proof.Machine.execStoreBufferDrain core s
  | .fetchLineReturn core ctx line => Sys2Proof.Machine.execFetchLineReturn core ctx line s
  | .jobAssign => Sys2Proof.Machine.execJobAssign s
  | .quantumExpiry core => Sys2Proof.Machine.execQuantumExpiry core s
  | .coreIrq core ctx => Sys2Proof.Machine.execCoreIrq core ctx s
  | .coreStop w tile req => Sys2Proof.Machine.execCoreStop w tile req s
  | .stopTaken core ctx => Sys2Proof.Machine.execStopTaken core ctx s
  | .coreCtxReset w tile ctx => Sys2Proof.Machine.execCoreCtxReset w tile ctx s
  | .nop b => Sys2Proof.Machine.execNop b s
  | .add b rd rs1 rs2 => Sys2Proof.Machine.execAdd b rd rs1 rs2 s
  | .sub b rd rs1 rs2 => Sys2Proof.Machine.execSub b rd rs1 rs2 s
  | .and b rd rs1 rs2 => Sys2Proof.Machine.execAnd b rd rs1 rs2 s
  | .or b rd rs1 rs2 => Sys2Proof.Machine.execOr b rd rs1 rs2 s
  | .xor b rd rs1 rs2 => Sys2Proof.Machine.execXor b rd rs1 rs2 s
  | .sll b rd rs1 rs2 => Sys2Proof.Machine.execSll b rd rs1 rs2 s
  | .srl b rd rs1 rs2 => Sys2Proof.Machine.execSrl b rd rs1 rs2 s
  | .sra b rd rs1 rs2 => Sys2Proof.Machine.execSra b rd rs1 rs2 s
  | .min b rd rs1 rs2 => Sys2Proof.Machine.execMin b rd rs1 rs2 s
  | .max b rd rs1 rs2 => Sys2Proof.Machine.execMax b rd rs1 rs2 s
  | .minu b rd rs1 rs2 => Sys2Proof.Machine.execMinu b rd rs1 rs2 s
  | .maxu b rd rs1 rs2 => Sys2Proof.Machine.execMaxu b rd rs1 rs2 s
  | .mov b rd rs => Sys2Proof.Machine.execMov b rd rs s
  | .mfp b rd p => Sys2Proof.Machine.execMfp b rd p s
  | .mtp b p rs => Sys2Proof.Machine.execMtp b p rs s
  | .addi b rd rs1 imm => Sys2Proof.Machine.execAddi b rd rs1 imm s
  | .andi b rd rs1 imm => Sys2Proof.Machine.execAndi b rd rs1 imm s
  | .ori b rd rs1 imm => Sys2Proof.Machine.execOri b rd rs1 imm s
  | .xori b rd rs1 imm => Sys2Proof.Machine.execXori b rd rs1 imm s
  | .slli b rd rs1 amount => Sys2Proof.Machine.execSlli b rd rs1 amount s
  | .srli b rd rs1 amount => Sys2Proof.Machine.execSrli b rd rs1 amount s
  | .srai b rd rs1 amount => Sys2Proof.Machine.execSrai b rd rs1 amount s
  | .sh b rd right amount => Sys2Proof.Machine.execSh b rd right amount s
  | .movi b rd imm => Sys2Proof.Machine.execMovi b rd imm s
  | .movhi b rd imm => Sys2Proof.Machine.execMovhi b rd imm s
  | .cmpeq b pd rs1 rs2 => Sys2Proof.Machine.execCmpeq b pd rs1 rs2 s
  | .cmpne b pd rs1 rs2 => Sys2Proof.Machine.execCmpne b pd rs1 rs2 s
  | .cmplt b pd rs1 rs2 => Sys2Proof.Machine.execCmplt b pd rs1 rs2 s
  | .cmpltu b pd rs1 rs2 => Sys2Proof.Machine.execCmpltu b pd rs1 rs2 s
  | .cmple b pd rs1 rs2 => Sys2Proof.Machine.execCmple b pd rs1 rs2 s
  | .cmpleu b pd rs1 rs2 => Sys2Proof.Machine.execCmpleu b pd rs1 rs2 s
  | .mul b rd rs1 rs2 => Sys2Proof.Machine.execMul b rd rs1 rs2 s
  | .mulh b rd rs1 rs2 => Sys2Proof.Machine.execMulh b rd rs1 rs2 s
  | .mulhu b rd rs1 rs2 => Sys2Proof.Machine.execMulhu b rd rs1 rs2 s
  | .mac b acc rs1 rs2 => Sys2Proof.Machine.execMac b acc rs1 rs2 s
  | .macu b acc rs1 rs2 => Sys2Proof.Machine.execMacu b acc rs1 rs2 s
  | .msu b acc rs1 rs2 => Sys2Proof.Machine.execMsu b acc rs1 rs2 s
  | .clrAcc b acc => Sys2Proof.Machine.execClrAcc b acc s
  | .movAccFromData b acc rs sh => Sys2Proof.Machine.execMovAccFromData b acc rs sh s
  | .movAcc b rd acc sh => Sys2Proof.Machine.execMovAcc b rd acc sh s
  | .movAccu b rd acc sh => Sys2Proof.Machine.execMovAccu b rd acc sh s
  | .adda b ad as1 src => Sys2Proof.Machine.execAdda b ad as1 src s
  | .suba b ad as1 rs => Sys2Proof.Machine.execSuba b ad as1 rs s
  | .mova b ad src => Sys2Proof.Machine.execMova b ad src s
  | .movd b rd as1 => Sys2Proof.Machine.execMovd b rd as1 s
  | .cmpaEq b pd as1 as2 => Sys2Proof.Machine.execCmpaEq b pd as1 as2 s
  | .cmpaLt b pd as1 as2 => Sys2Proof.Machine.execCmpaLt b pd as1 as2 s
  | .cmpaLe b pd as1 as2 => Sys2Proof.Machine.execCmpaLe b pd as1 as2 s
  | .ldBu b rd m => Sys2Proof.Machine.execLdBu b rd m s
  | .ldH b rd m => Sys2Proof.Machine.execLdH b rd m s
  | .ldW b rd m => Sys2Proof.Machine.execLdW b rd m s
  | .stB b rs m => Sys2Proof.Machine.execStB b rs m s
  | .stH b rs m => Sys2Proof.Machine.execStH b rs m s
  | .stW b rs m => Sys2Proof.Machine.execStW b rs m s
  | .ldPeek b size r m => Sys2Proof.Machine.execLdPeek b size r m s
  | .ldTake b size r m => Sys2Proof.Machine.execLdTake b size r m s
  | .stT b size r m => Sys2Proof.Machine.execStT b size r m s
  | .stPut b size r m => Sys2Proof.Machine.execStPut b size r m s
  | .tagWaitServe core slot => Sys2Proof.Machine.execTagWaitServe core slot s
  | .tagTimeout core who => Sys2Proof.Machine.execTagTimeout core who s
  | .tagCancelReply core ctx => Sys2Proof.Machine.execTagCancelReply core ctx s
  | .remoteRetryResend core => Sys2Proof.Machine.execRemoteRetryResend core s
  | .br b p neg soff => Sys2Proof.Machine.execBr b p neg soff s
  | .call b p neg soff => Sys2Proof.Machine.execCall b p neg soff s
  | .ret b => Sys2Proof.Machine.execRet b s
  | .loop b k count endOff => Sys2Proof.Machine.execLoop b k count endOff s
  | .yield b => Sys2Proof.Machine.execYield b s
  | .fenceSp b => Sys2Proof.Machine.execFenceSp b s
  | .fenceRm b => Sys2Proof.Machine.execFenceRm b s
  | .ifl b => Sys2Proof.Machine.execIfl b s
  | .ctxEnd b => Sys2Proof.Machine.execCtxEnd b s
  | .inp b rd m => Sys2Proof.Machine.execIn b rd m s
  | .out b rs m => Sys2Proof.Machine.execOut b rs m s
  | .outP b rs io => Sys2Proof.Machine.execOutP b rs io s
  | .mfsr b rd sr => Sys2Proof.Machine.execMfsr b rd sr s
  | .mtsr b sr rs => Sys2Proof.Machine.execMtsr b sr rs s
  | .eret b => Sys2Proof.Machine.execEret b s
  | .ctxReset b => Sys2Proof.Machine.execCtxReset b s
  | .irqOn b => Sys2Proof.Machine.execIrqOn b s
  | .irqOff b => Sys2Proof.Machine.execIrqOff b s
  | .tagmode b rs operand => Sys2Proof.Machine.execTagmode b rs operand s
  | .spadTregWrite b rs region high => Sys2Proof.Machine.execSpadTregWrite b rs region high s
  | .spadMbxWrite b rs mbx high => Sys2Proof.Machine.execSpadMbxWrite b rs mbx high s
  | .crCntWrite b rs mbx => Sys2Proof.Machine.execCrCntWrite b rs mbx s
  | .crget b d m => Sys2Proof.Machine.execCrget b d m s
  | .crput b d m => Sys2Proof.Machine.execCrput b d m s
  | .creditOpRequest core => Sys2Proof.Machine.execCreditOpRequest core s
  | .syncAdd b d ab off => Sys2Proof.Machine.execSyncAdd b d ab off s
  | .syncSet b d ab off => Sys2Proof.Machine.execSyncSet b d ab off s
  | .syncCas b d ab off => Sys2Proof.Machine.execSyncCas b d ab off s
  | .syncWait b d ab off => Sys2Proof.Machine.execSyncWait b d ab off s
  | .syncRd b d ab off => Sys2Proof.Machine.execSyncRd b d ab off s
  | .syncBankOp bank => Sys2Proof.Machine.execSyncBankOp bank s
  | .syncReply core ctx => Sys2Proof.Machine.execSyncReply core ctx s
  | .syncTimeout core ctx => Sys2Proof.Machine.execSyncTimeout core ctx s
  | .vadd b vd vs1 vs2 pg wd => Sys2Proof.Machine.execVadd b vd vs1 vs2 pg wd s
  | .vsub b vd vs1 vs2 pg wd => Sys2Proof.Machine.execVsub b vd vs1 vs2 pg wd s
  | .vadds b vd vs1 vs2 pg wd => Sys2Proof.Machine.execVadds b vd vs1 vs2 pg wd s
  | .vaddus b vd vs1 vs2 pg wd => Sys2Proof.Machine.execVaddus b vd vs1 vs2 pg wd s
  | .vsubs b vd vs1 vs2 pg wd => Sys2Proof.Machine.execVsubs b vd vs1 vs2 pg wd s
  | .vsubus b vd vs1 vs2 pg wd => Sys2Proof.Machine.execVsubus b vd vs1 vs2 pg wd s
  | .vand b vd vs1 vs2 pg wd => Sys2Proof.Machine.execVand b vd vs1 vs2 pg wd s
  | .vor b vd vs1 vs2 pg wd => Sys2Proof.Machine.execVor b vd vs1 vs2 pg wd s
  | .vxor b vd vs1 vs2 pg wd => Sys2Proof.Machine.execVxor b vd vs1 vs2 pg wd s
  | .vmin b vd vs1 vs2 pg wd => Sys2Proof.Machine.execVmin b vd vs1 vs2 pg wd s
  | .vmax b vd vs1 vs2 pg wd => Sys2Proof.Machine.execVmax b vd vs1 vs2 pg wd s
  | .vminu b vd vs1 vs2 pg wd => Sys2Proof.Machine.execVminu b vd vs1 vs2 pg wd s
  | .vmaxu b vd vs1 vs2 pg wd => Sys2Proof.Machine.execVmaxu b vd vs1 vs2 pg wd s
  | .vsll b vd vs1 vs2 pg wd => Sys2Proof.Machine.execVsll b vd vs1 vs2 pg wd s
  | .vsra b vd vs1 vs2 pg wd => Sys2Proof.Machine.execVsra b vd vs1 vs2 pg wd s
  | .vsrl b vd vs1 vs2 pg wd => Sys2Proof.Machine.execVsrl b vd vs1 vs2 pg wd s
  | .vaddi b vd vs1 pg wd imm => Sys2Proof.Machine.execVaddi b vd vs1 pg wd imm s
  | .vslli b vd vs1 pg wd imm => Sys2Proof.Machine.execVslli b vd vs1 pg wd imm s
  | .vsrai b vd vs1 pg wd imm => Sys2Proof.Machine.execVsrai b vd vs1 pg wd imm s
  | .vsrli b vd vs1 pg wd imm => Sys2Proof.Machine.execVsrli b vd vs1 pg wd imm s
  | .vmovi b vd pg wd imm => Sys2Proof.Machine.execVmovi b vd pg wd imm s
  | .vmov b vd vs1 => Sys2Proof.Machine.execVmov b vd vs1 s
  | .vmulq b vd vs1 vs2 pg wd => Sys2Proof.Machine.execVmulq b vd vs1 vs2 pg wd s
  | .vmulh b vd vs1 vs2 pg wd => Sys2Proof.Machine.execVmulh b vd vs1 vs2 pg wd s
  | .vabs b vd vs1 pg wd => Sys2Proof.Machine.execVabs b vd vs1 pg wd s
  | .vneg b vd vs1 pg wd => Sys2Proof.Machine.execVneg b vd vs1 pg wd s
  | .vnarrow b vd va sh pg wd => Sys2Proof.Machine.execVnarrow b vd va sh pg wd s
  | .vnarrowu b vd va sh pg wd => Sys2Proof.Machine.execVnarrowu b vd va sh pg wd s
  | .vnarrowd b vd va sh pg wd => Sys2Proof.Machine.execVnarrowd b vd va sh pg wd s
  | .vavg b vd vs1 vs2 pg wd => Sys2Proof.Machine.execVavg b vd vs1 vs2 pg wd s
  | .vmacH b va vs1 vs2 pg => Sys2Proof.Machine.execVmacH b va vs1 vs2 pg s
  | .vmacHsu b va vs1 vs2 pg => Sys2Proof.Machine.execVmacHsu b va vs1 vs2 pg s
  | .vmacHuu b va vs1 vs2 pg => Sys2Proof.Machine.execVmacHuu b va vs1 vs2 pg s
  | .vmsuH b va vs1 vs2 pg => Sys2Proof.Machine.execVmsuH b va vs1 vs2 pg s
  | .vmacB b va vs1 vs2 pg => Sys2Proof.Machine.execVmacB b va vs1 vs2 pg s
  | .vmacBsu b va vs1 vs2 pg => Sys2Proof.Machine.execVmacBsu b va vs1 vs2 pg s
  | .vmacBuu b va vs1 vs2 pg => Sys2Proof.Machine.execVmacBuu b va vs1 vs2 pg s
  | .vmsuB b va vs1 vs2 pg => Sys2Proof.Machine.execVmsuB b va vs1 vs2 pg s
  | .vclrAcc b va pg => Sys2Proof.Machine.execVclrAcc b va pg s
  | .vmovVa b va vs1 sh pg => Sys2Proof.Machine.execVmovVa b va vs1 sh pg s
  | .vmovVau b va vs1 sh pg => Sys2Proof.Machine.execVmovVau b va vs1 sh pg s
  | .vfadd b vd vs1 vs2 pg wd => Sys2Proof.Machine.execVfadd b vd vs1 vs2 pg wd s
  | .vfsub b vd vs1 vs2 pg wd => Sys2Proof.Machine.execVfsub b vd vs1 vs2 pg wd s
  | .vfmul b vd vs1 vs2 pg wd => Sys2Proof.Machine.execVfmul b vd vs1 vs2 pg wd s
  | .vfma b vd vs1 vs2 pg wd => Sys2Proof.Machine.execVfma b vd vs1 vs2 pg wd s
  | .vfms b vd vs1 vs2 pg wd => Sys2Proof.Machine.execVfms b vd vs1 vs2 pg wd s
  | .vfmin b vd vs1 vs2 pg wd => Sys2Proof.Machine.execVfmin b vd vs1 vs2 pg wd s
  | .vfmax b vd vs1 vs2 pg wd => Sys2Proof.Machine.execVfmax b vd vs1 vs2 pg wd s
  | .vfabs b vd vs1 pg wd => Sys2Proof.Machine.execVfabs b vd vs1 pg wd s
  | .vfneg b vd vs1 pg wd => Sys2Proof.Machine.execVfneg b vd vs1 pg wd s
  | .vsetl b rd rs sew g => Sys2Proof.Machine.execVsetl b rd rs sew g s
  | .vsetlR b rs => Sys2Proof.Machine.execVsetlR b rs s
  | .vgetl b rd => Sys2Proof.Machine.execVgetl b rd s
  | .vcmpeq b pd vs1 vs2 pg wd => Sys2Proof.Machine.execVcmpeq b pd vs1 vs2 pg wd s
  | .vcmplt b pd vs1 vs2 pg wd => Sys2Proof.Machine.execVcmplt b pd vs1 vs2 pg wd s
  | .vcmpltu b pd vs1 vs2 pg wd => Sys2Proof.Machine.execVcmpltu b pd vs1 vs2 pg wd s
  | .vcmple b pd vs1 vs2 pg wd => Sys2Proof.Machine.execVcmple b pd vs1 vs2 pg wd s
  | .vfcmpeq b pd vs1 vs2 pg wd => Sys2Proof.Machine.execVfcmpeq b pd vs1 vs2 pg wd s
  | .vfcmplt b pd vs1 vs2 pg wd => Sys2Proof.Machine.execVfcmplt b pd vs1 vs2 pg wd s
  | .pand b pd ps1 ps2 pg => Sys2Proof.Machine.execPand b pd ps1 ps2 pg s
  | .por b pd ps1 ps2 pg => Sys2Proof.Machine.execPor b pd ps1 ps2 pg s
  | .pxor b pd ps1 ps2 pg => Sys2Proof.Machine.execPxor b pd ps1 ps2 pg s
  | .pnot b pd ps1 pg => Sys2Proof.Machine.execPnot b pd ps1 pg s
  | .pany b pd ps1 pg => Sys2Proof.Machine.execPany b pd ps1 pg s
  | .pall b pd ps1 pg => Sys2Proof.Machine.execPall b pd ps1 pg s
  | .pcnt b rd ps pg => Sys2Proof.Machine.execPcnt b rd ps pg s
  | .vperm b vd vs1 vs2 pg wd => Sys2Proof.Machine.execVperm b vd vs1 vs2 pg wd s
  | .vslideup b vd vs1 vs2 pg wd => Sys2Proof.Machine.execVslideup b vd vs1 vs2 pg wd s
  | .vslidedn b vd vs1 vs2 pg wd => Sys2Proof.Machine.execVslidedn b vd vs1 vs2 pg wd s
  | .vzipLo b vd vs1 vs2 pg wd => Sys2Proof.Machine.execVzipLo b vd vs1 vs2 pg wd s
  | .vzipHi b vd vs1 vs2 pg wd => Sys2Proof.Machine.execVzipHi b vd vs1 vs2 pg wd s
  | .vunzipE b vd vs1 vs2 pg wd => Sys2Proof.Machine.execVunzipE b vd vs1 vs2 pg wd s
  | .vunzipO b vd vs1 vs2 pg wd => Sys2Proof.Machine.execVunzipO b vd vs1 vs2 pg wd s
  | .vrev b vd vs1 pg wd => Sys2Proof.Machine.execVrev b vd vs1 pg wd s
  | .vtrn b vd vs1 pg wd => Sys2Proof.Machine.execVtrn b vd vs1 pg wd s
  | .vbcast b vd vs1 pg wd => Sys2Proof.Machine.execVbcast b vd vs1 pg wd s
  | .vredsum b rd vs1 pg wd => Sys2Proof.Machine.execVredsum b rd vs1 pg wd s
  | .vredsumu b rd vs1 pg wd => Sys2Proof.Machine.execVredsumu b rd vs1 pg wd s
  | .vredmax b rd vs1 pg wd => Sys2Proof.Machine.execVredmax b rd vs1 pg wd s
  | .vredmin b rd vs1 pg wd => Sys2Proof.Machine.execVredmin b rd vs1 pg wd s
  | .vmaxi b rd vs1 rd2 pg wd => Sys2Proof.Machine.execVmaxi b rd vs1 rd2 pg wd s
  | .vmini b rd vs1 rd2 pg wd => Sys2Proof.Machine.execVmini b rd vs1 rd2 pg wd s
  | .vbexp b rd vs1 pg wd => Sys2Proof.Machine.execVbexp b rd vs1 pg wd s
  | .vbexpAcc b rd va pg => Sys2Proof.Machine.execVbexpAcc b rd va pg s
  | .vfredsum b rd vs1 pg wd => Sys2Proof.Machine.execVfredsum b rd vs1 pg wd s
  | .vfmaxi b rd vs1 rd2 pg wd => Sys2Proof.Machine.execVfmaxi b rd vs1 rd2 pg wd s
  | .vfmini b rd vs1 rd2 pg wd => Sys2Proof.Machine.execVfmini b rd vs1 rd2 pg wd s
  | .vcvtSW b vd vs1 pg => Sys2Proof.Machine.execVcvtSW b vd vs1 pg s
  | .vcvtWS b vd vs1 pg => Sys2Proof.Machine.execVcvtWS b vd vs1 pg s
  | .vcvtSBf b vd vs1 pg => Sys2Proof.Machine.execVcvtSBf b vd vs1 pg s
  | .vcvtBfS b vd vs1 pg => Sys2Proof.Machine.execVcvtBfS b vd vs1 pg s
  | .vcvtSE4 b vd vs1 pg => Sys2Proof.Machine.execVcvtSE4 b vd vs1 pg s
  | .vcvtSE5 b vd vs1 pg => Sys2Proof.Machine.execVcvtSE5 b vd vs1 pg s
  | .vcvtE4S b vd vs1 pg => Sys2Proof.Machine.execVcvtE4S b vd vs1 pg s
  | .vcvtE5S b vd vs1 pg => Sys2Proof.Machine.execVcvtE5S b vd vs1 pg s
  | .vext b rd vs1 rs pg wd => Sys2Proof.Machine.execVext b rd vs1 rs pg wd s
  | .vins b vd rs1 rs2 pg wd => Sys2Proof.Machine.execVins b vd rs1 rs2 pg wd s
  | .vcvtHB b vd vs1 pg => Sys2Proof.Machine.execVcvtHB b vd vs1 pg s
  | .vcvtHBu b vd vs1 pg => Sys2Proof.Machine.execVcvtHBu b vd vs1 pg s
  | .vlut b t vd vs1 pg wd => Sys2Proof.Machine.execVlut b t vd vs1 pg wd s
  | .vlutI b t vd vs1 pg wd => Sys2Proof.Machine.execVlutI b t vd vs1 pg wd s
  | .vlutld b t ab off => Sys2Proof.Machine.execVlutld b t ab off s
  | .vlutst b t ab off => Sys2Proof.Machine.execVlutst b t ab off s
  | .vdwin b wr vs => Sys2Proof.Machine.execVdwin b wr vs s
  | .vdwmac b va wr v k dil c32 u z => Sys2Proof.Machine.execVdwmac b va wr v k dil c32 u z s
  | .vld b v ab pg off => Sys2Proof.Machine.execVld b v ab pg off s
  | .vst b v ab pg off => Sys2Proof.Machine.execVst b v ab pg off s
  | .stridedLoad b v ab pg rx => Sys2Proof.Machine.execStridedLoad b v ab pg rx s
  | .stridedStore b v ab pg rx => Sys2Proof.Machine.execStridedStore b v ab pg rx s
  | .load2d b v ab pg rx => Sys2Proof.Machine.execLoad2d b v ab pg rx s
  | .store2d b v ab pg rx => Sys2Proof.Machine.execStore2d b v ab pg rx s
  | .gather b v ab pg vrx scale => Sys2Proof.Machine.execGather b v ab pg vrx scale s
  | .scatter b v ab pg vrx scale => Sys2Proof.Machine.execScatter b v ab pg vrx scale s
  | .mjob b d m => Sys2Proof.Machine.execMjob b d m s
  | .matrixJobStart core => Sys2Proof.Machine.execMatrixJobStart core s
  | .matrixFeedDone core => Sys2Proof.Machine.execMatrixFeedDone core s
  | .matrixEpilogue core => Sys2Proof.Machine.execMatrixEpilogue core s
  | .matrixJobComplete core => Sys2Proof.Machine.execMatrixJobComplete core s
  | .mqAbort b rs => Sys2Proof.Machine.execMqAbort b rs s
  | .trkDataRead b rd => Sys2Proof.Machine.execTrkDataRead b rd s
  | .trkDataWrite b rs => Sys2Proof.Machine.execTrkDataWrite b rs s
  | .trkStep b rs => Sys2Proof.Machine.execTrkStep b rs s
  | .trkReset b rs => Sys2Proof.Machine.execTrkReset b rs s
  | .sjob b d m => Sys2Proof.Machine.execSjob b d m s
  | .stripeActivate core stream => Sys2Proof.Machine.execStripeActivate core stream s
  | .stripeTrigTimeout core stream => Sys2Proof.Machine.execStripeTrigTimeout core stream s
  | .sqTrig b rs => Sys2Proof.Machine.execSqTrig b rs s
  | .sqAbort b rs => Sys2Proof.Machine.execSqAbort b rs s
  | .wind core stream => Sys2Proof.Machine.execWind core stream s
  | .stripeComplete core stream => Sys2Proof.Machine.execStripeComplete core stream s
  | .eccWriteBack tile addr => Sys2Proof.Machine.execEccWriteBack tile addr s
  | .watchHalving tile => Sys2Proof.Machine.execWatchHalving tile s
  | .spadRmapGo w tile data => Sys2Proof.Machine.execSpadRmapGo w tile data s
  | .remapDone tile => Sys2Proof.Machine.execRemapDone tile s
  | .spadClear w tile => Sys2Proof.Machine.execSpadClear w tile s
  | .clearDone tile => Sys2Proof.Machine.execClearDone tile s
  | .dma b d m => Sys2Proof.Machine.execDma b d m s
  | .dmac b d m => Sys2Proof.Machine.execDmac b d m s
  | .dmaStart b rs ch => Sys2Proof.Machine.execDmaStart b rs ch s
  | .dmaDisable b rs ch => Sys2Proof.Machine.execDmaDisable b rs ch s
  | .dmaKill w tile kill => Sys2Proof.Machine.execDmaKill w tile kill s
  | .dmaRing b rs ch => Sys2Proof.Machine.execDmaRing b rs ch s
  | .dmaSelect core => Sys2Proof.Machine.execDmaSelect core s
  | .dmaWriteAck core ch => Sys2Proof.Machine.execDmaWriteAck core ch s
  | .dmaReadbackDone core => Sys2Proof.Machine.execDmaReadbackDone core s
  | .dmaLinkReread core ch => Sys2Proof.Machine.execDmaLinkReread core ch s
  | .dmaHalfPoint core => Sys2Proof.Machine.execDmaHalfPoint core s
  | .dmaWriteTimeout core ch => Sys2Proof.Machine.execDmaWriteTimeout core ch s
  | .dmaDrainEnd core ch => Sys2Proof.Machine.execDmaDrainEnd core ch s
  | .doorbell w fn k value => Sys2Proof.Machine.execDoorbell w fn k value s
  | .ringCommit w ring => Sys2Proof.Machine.execRingCommit w ring s
  | .ringRun w ring run => Sys2Proof.Machine.execRingRun w ring run s
  | .ringCancel w ring => Sys2Proof.Machine.execRingCancel w ring s
  | .ringRestart w ring => Sys2Proof.Machine.execRingRestart w ring s
  | .descFetch => Sys2Proof.Machine.execDescFetch s
  | .descArrival => Sys2Proof.Machine.execDescArrival s
  | .descShed => Sys2Proof.Machine.execDescShed s
  | .jobExpired entry => Sys2Proof.Machine.execJobExpired entry s
  | .waitTimeout entry => Sys2Proof.Machine.execWaitTimeout entry s
  | .gatePoll entry => Sys2Proof.Machine.execGatePoll entry s
  | .ageWatermark ring => Sys2Proof.Machine.execAgeWatermark ring s
  | .syncValueWrite w obj size high data => Sys2Proof.Machine.execSyncValueWrite w obj size high data s
  | .syncAddvWrite w obj size high data => Sys2Proof.Machine.execSyncAddvWrite w obj size high data s
  | .syncCasGo w objPage obj => Sys2Proof.Machine.execSyncCasGo w objPage obj s
  | .syncCommit w => Sys2Proof.Machine.execSyncCommit w s
  | .hbmRequest part ch => Sys2Proof.Machine.execHbmRequest part ch s
  | .datCommit w => Sys2Proof.Machine.execDatCommit w s
  | .datRsvCommit w part => Sys2Proof.Machine.execDatRsvCommit w part s
  | .datInv w fn all => Sys2Proof.Machine.execDatInv w fn all s
  | .datInvDone => Sys2Proof.Machine.execDatInvDone s
  | .hbmRefresh part ch => Sys2Proof.Machine.execHbmRefresh part ch s
  | .patrolScrub part ch => Sys2Proof.Machine.execPatrolScrub part ch s
  | .bar2Read fn off len => Sys2Proof.Machine.execBar2Read fn off len s
  | .bar2Write fn off data => Sys2Proof.Machine.execBar2Write fn off data s
  | .configRequest fn req => Sys2Proof.Machine.execConfigRequest fn req s
  | .configReady => Sys2Proof.Machine.execConfigReady s
  | .msixUnmask fn vec => Sys2Proof.Machine.execMsixUnmask fn vec s
  | .flr fn => Sys2Proof.Machine.execFlr fn s
  | .pf0Flr => Sys2Proof.Machine.execPf0Flr s
  | .flrDone fn => Sys2Proof.Machine.execFlrDone fn s
  | .hostLost => Sys2Proof.Machine.execHostLost s
  | .hostReturn => Sys2Proof.Machine.execHostReturn s
  | .perstN => Sys2Proof.Machine.execPerstN s
  | .peerDetected port lanes => Sys2Proof.Machine.execPeerDetected port lanes s
  | .peerTrained port x8 => Sys2Proof.Machine.execPeerTrained port x8 s
  | .peerIdent port peer => Sys2Proof.Machine.execPeerIdent port peer s
  | .peerKeyExchange port kx => Sys2Proof.Machine.execPeerKeyExchange port kx s
  | .peerRetrain w port => Sys2Proof.Machine.execPeerRetrain w port s
  | .peerLinkSilence port => Sys2Proof.Machine.execPeerLinkSilence port s
  | .peerRedetect port => Sys2Proof.Machine.execPeerRedetect port s
  | .flitReceive port flit => Sys2Proof.Machine.execFlitReceive port flit s
  | .flitReplayTimeout port => Sys2Proof.Machine.execFlitReplayTimeout port s
  | .keyRollover port kx => Sys2Proof.Machine.execKeyRollover port kx s
  | .timeExchange port t1 t2 t3 t4 => Sys2Proof.Machine.execTimeExchange port t1 t2 t3 t4 s
  | .timeLockLost => Sys2Proof.Machine.execTimeLockLost s
  | .peerCommit w => Sys2Proof.Machine.execPeerCommit w s
  | .pqCommit w queue => Sys2Proof.Machine.execPqCommit w queue s
  | .pqRun w queue run => Sys2Proof.Machine.execPqRun w queue run s
  | .pqRestart w queue => Sys2Proof.Machine.execPqRestart w queue s
  | .peerDescFetch queue => Sys2Proof.Machine.execPeerDescFetch queue s
  | .peerRequest port tfunc op => Sys2Proof.Machine.execPeerRequest port tfunc op s
  | .peerDescComplete queue answer => Sys2Proof.Machine.execPeerDescComplete queue answer s
  | .peerXferTimeout queue => Sys2Proof.Machine.execPeerXferTimeout queue s
  | .retryResend core => Sys2Proof.Machine.execRetryResend core s
  | .getNonce => Sys2Proof.Machine.execGetNonce s
  | .claim key sig => Sys2Proof.Machine.execClaim key sig s
  | .release sig => Sys2Proof.Machine.execRelease sig s
  | .assignTenant key saggar sig => Sys2Proof.Machine.execAssignTenant key saggar sig s
  | .endTenancy sig => Sys2Proof.Machine.execEndTenancy sig s
  | .debugUnlock sig => Sys2Proof.Machine.execDebugUnlock sig s
  | .getState path => Sys2Proof.Machine.execGetState path s
  | .setBounce fn regions => Sys2Proof.Machine.execSetBounce fn regions s
  | .keyLoad slot fmask eph iv wrapped tag => Sys2Proof.Machine.execKeyLoad slot fmask eph iv wrapped tag s
  | .keyClear slot => Sys2Proof.Machine.execKeyClear slot s
  | .tenantDumpRead part off => Sys2Proof.Machine.execTenantDumpRead part off s
  | .getCertificate path slot => Sys2Proof.Machine.execGetCertificate path slot s
  | .claimWindowClose => Sys2Proof.Machine.execClaimWindowClose s
  | .wedgingZeroDone => Sys2Proof.Machine.execWedgingZeroDone s
  | .wedgingVerifyDone failed => Sys2Proof.Machine.execWedgingVerifyDone failed s
  | .powerOn peerId mfgTest => Sys2Proof.Machine.execPowerOn peerId mfgTest s
  | .pwrOkFall => Sys2Proof.Machine.execPwrOkFall s
  | .bootComplete badIslands badChannels => Sys2Proof.Machine.execBootComplete badIslands badChannels s
  | .trialTimeout => Sys2Proof.Machine.execTrialTimeout s
  | .mgmtWatchdogExpiry => Sys2Proof.Machine.execMgmtWatchdogExpiry s
  | .getInfo w => Sys2Proof.Machine.execGetInfo w s
  | .fwWrite w => Sys2Proof.Machine.execFwWrite w s
  | .fwCommit w => Sys2Proof.Machine.execFwCommit w s
  | .fwCancel w => Sys2Proof.Machine.execFwCancel w s
  | .logRead w => Sys2Proof.Machine.execLogRead w s
  | .dumpRead w => Sys2Proof.Machine.execDumpRead w s
  | .mbDone => Sys2Proof.Machine.execMbDone s
  | .clockCalibration island => Sys2Proof.Machine.execClockCalibration island s
  | .refLost => Sys2Proof.Machine.execRefLost s
  | .supplyDroop island => Sys2Proof.Machine.execSupplyDroop island s
  | .powerMeasure milliwatts => Sys2Proof.Machine.execPowerMeasure milliwatts s
  | .powerLimiterTick => Sys2Proof.Machine.execPowerLimiterTick s
  | .tempSample island temp => Sys2Proof.Machine.execTempSample island temp s
  | .thermalThrottleTick tile => Sys2Proof.Machine.execThermalThrottleTick tile s
  | .hbmTempSample part degrees => Sys2Proof.Machine.execHbmTempSample part degrees s
  | .regulatorFault rail => Sys2Proof.Machine.execRegulatorFault rail s
  | .tedCap island flags => Sys2Proof.Machine.execTedCap island flags s
  | .firingInterval => Sys2Proof.Machine.execFiringInterval s
  | .firingRequest w => Sys2Proof.Machine.execFiringRequest w s
  | .firingGate tile => Sys2Proof.Machine.execFiringGate tile s
  | .forcedGating island => Sys2Proof.Machine.execForcedGating island s
  | .islandSweepDone island cprlim0 cprlim1 age => Sys2Proof.Machine.execIslandSweepDone island cprlim0 cprlim1 age s
  | .railSettled rail => Sys2Proof.Machine.execRailSettled rail s
  | .bistGo w => Sys2Proof.Machine.execBistGo w s
  | .bistAbort w => Sys2Proof.Machine.execBistAbort w s
  | .bistDone misr rows failing => Sys2Proof.Machine.execBistDone misr rows failing s
  | .castlingCopy spare => Sys2Proof.Machine.execCastlingCopy spare s
  | .castlingComplete spare => Sys2Proof.Machine.execCastlingComplete spare s
  | .castlingCopyTimeout spare => Sys2Proof.Machine.execCastlingCopyTimeout spare s
  | .checkTimer core ctx => Sys2Proof.Machine.execCheckTimer core ctx s
  | .engineStall core engine => Sys2Proof.Machine.execEngineStall core engine s
  | .hangDeclaration core who => Sys2Proof.Machine.execHangDeclaration core who s
  | .partRecover w part => Sys2Proof.Machine.execPartRecover w part s
  | .partOffline w part => Sys2Proof.Machine.execPartOffline w part s
  | .partOnline w part => Sys2Proof.Machine.execPartOnline w part s
  | .dumpAck w part => Sys2Proof.Machine.execDumpAck w part s
  | .recoveryStepDone part => Sys2Proof.Machine.execRecoveryStepDone part s
  | .recoveryComplete part lostChannels => Sys2Proof.Machine.execRecoveryComplete part lostChannels s
  | .logFlush severe => Sys2Proof.Machine.execLogFlush severe s
  | .logAck w seq => Sys2Proof.Machine.execLogAck w seq s
  | .perstNDeassert peerId mfgTest => Sys2Proof.Machine.execPerstNDeassert peerId mfgTest s
  | .dmaReadReturn core => Sys2Proof.Machine.execDmaReadReturn core s
  | .creditOpReply core ctx => Sys2Proof.Machine.execCreditOpReply core ctx s
  | .peerLaneLoss port => Sys2Proof.Machine.execPeerLaneLoss port s
  | .referenceRestored => Sys2Proof.Machine.execReferenceRestored s
  | .supplyDroopEnd island => Sys2Proof.Machine.execSupplyDroopEnd island s
  | .firingSkipRetry tile => Sys2Proof.Machine.execFiringSkipRetry tile s
  | .spdmSessionEstablish path requester => Sys2Proof.Machine.execSpdmSessionEstablish path requester s

end Sys2Proof.Machine
end

