-- ==== Sys2Proof/Machine/Step.lean ====
section
/-! DEFINITION. One step of the block: the first waiting command takes effect; with none waiting, time
moves on. -/

namespace Sys2Proof.Machine

/-- The command at the front of the queue takes effect. On an empty queue one nanosecond passes (DESIGN
CHOICE, log entry 1), which the check timers and the engine watches count (R526, R527). -/
def step (s : State) : Host.Outcome State Fault Refusal :=
  match s.pending with
  | [] => .next (s.runTimers s.tickBy).tick
  | c :: rest => exec c { s with pending := rest }

/-- The command that a word of the opcode table spells, put at the front of the queue. -/
def State.withFetchWord (s : State) (nbits w : Nat) : State :=
  match decodeTableWord nbits w with
  | none => s
  | some c => { s with pending := c :: s.pending }

end Sys2Proof.Machine
end

