-- ==== Sys2Proof/Safety.lean ====
section
/-! DEFINITION. The terms in which statements about the machine are made: a bundle that stands ready, what
a retired bundle leaves unchanged, and the memories' canonical form. -/

namespace Sys2Proof.Machine

/-- The operation `o`, alone in its bundle, stands at context `c`, which runs on the core that `b` names:
nothing that R78, R81, R110 to R113, R132, R135, R137 or R183 puts before an operation holds it back, and the
core has room for what it may send (R130, R298). -/
structure Stands (b : Issue) (o : Op) (s : State) (c : CtxId) : Prop where
  alone : b.mate = none ∧ b.rest = []
  runs : (s.core (s.tileOf b.core)).running = some c
  moves : s.frozen (s.tileOf b.core) = false
  unstopped : (s.ctx (s.tileOf b.core) c).stopReq = false
  inStore : (s.ctx (s.tileOf b.core) c).pc.toNat < 2 ^ 20
  oneLine : (s.ctx (s.tileOf b.core) c).pc.toNat % 64 ≤ 60
  legal : Op.legal o = true ∧ groupsOk (s.ctx (s.tileOf b.core) c).g o = true
  level : Op.privileged o = true → (s.ctx (s.tileOf b.core) c).priv = true
  noFault : (s.ctx (s.tileOf b.core) c).fault = none
  noLoad : (s.core (s.tileOf b.core)).pendingLoad c
    (Op.reads (s.ctx (s.tileOf b.core) c).g o ++ Op.writes (s.ctx (s.tileOf b.core) c).g o) = none
  noAcquire : (Op.accesses o && (s.core (s.tileOf b.core)).acquiring c) = false
  noGroupFault : groupFault (s.tileOf b.core) c (s.ctx (s.tileOf b.core) c)
    (Op.reads (s.ctx (s.tileOf b.core) c).g o) = []
  clean : poisonRes (s.tileOf b.core) c (s.ctx (s.tileOf b.core) c)
    (Op.reads (s.ctx (s.tileOf b.core) c).g o) = []
  fresh : (s.ctx (s.tileOf b.core) c).resuming = false ∧ (s.ctx (s.tileOf b.core) c).done = []
  sent : (s.ctx (s.tileOf b.core) c).sending = []
  unheld : (s.ctx (s.tileOf b.core) c).held = none
  room : (s.core (s.tileOf b.core)).sb.length ≤ 15 ∧ (s.core (s.tileOf b.core)).outstanding < 32

/-- It stands ready, and its bundle is not the last of an active loop's body (R121). -/
structure Ready (b : Issue) (o : Op) (s : State) (c : CtxId) : Prop extends Stands b o s c where
  inBody : (s.ctx (s.tileOf b.core) c).endLoop
    ((s.ctx (s.tileOf b.core) c).pc.setWidth 20) = none

/-- What counting on tile `t` may change (R53, R69, R138, R429): counters of the tile's own pages and of the PCIe page
with their overflow bits, interrupt bits that are set there, and MSI-X messages sent or left pending. Every other page
is as before, and so is the rest of the endpoint. -/
structure OnlyCounts (s s' : State) (t : Tile) : Prop where
  page : ∀ P, ∃ cs ovf bits, s'.page P =
    { s.page P with counters := cs, ovf := ovf, irqStatus := (s.page P).irqStatus ||| bits }
  other : ∀ P, P ∉ (tilePages t).map pageNo → P ≠ pageNo .pcie → s'.page P = s.page P
  host : ∃ cond pba new, s'.host =
      { s.host with cond := cond, pba := pba, sent := new ++ s.host.sent } ∧
    ∀ m ∈ new, ∃ f v, m = Sent.msix f v

/-- What a retired bundle of context `c` on tile `t` leaves as it was: every other core, every other
context, the core's memories, buffers and engines, and the rest of the machine but for what counting may change. -/
def Elsewhere (s s' : State) (t : Tile) (c : CtxId) : Prop :=
  s' = { s with cores := s'.cores, pages := s'.pages, host := s'.host } ∧
  OnlyCounts s s' t ∧
  (∀ u, u ≠ t → s'.core u = s.core u) ∧
  (∀ d, d ≠ c → s'.ctx t d = s.ctx t d) ∧
  ∃ q btb resume tm, s'.core t =
    { s.core t with ctxs := (s'.core t).ctxs, quantum := q, btb := btb, resume := resume, timers := tm }

/-- The bundle has retired: context `c` holds `y`, but for the address of its next bundle, the cycle
it took, and the record of uncorrectable registers, which a write ends (R80, R81, R138, R317). -/
def Retired (b : Issue) (s s' : State) (c : CtxId) (next : Word) (y : Ctx) : Prop :=
  ∃ poison, s'.ctx (s.tileOf b.core) c =
    { y with pc := next, cycles := y.cycles + 1, done := [], fault := none, poison := poison }

/-- The bundle of one word has retired with the register effect `y` and no other (R80). -/
def Does (i : Instr) (b : Issue) (s : State) (c : CtxId) (y : Ctx) : Prop :=
  ∃ s', exec i s = .next s' ∧
    Retired b s s' c ((s.ctx (s.tileOf b.core) c).pc + 4) y ∧ Elsewhere s s' (s.tileOf b.core) c

/-- The operation raises an exception and has no other effect: with EXL clear, context `c` enters its
handler with registers `y`, the cycle of its bundle counted (R83, R100, R136). -/
def Raises (i : Instr) (b : Issue) (s : State) (c : CtxId) (code : Byte) (eaddr : Word) (y : Ctx) :
    Prop :=
  ∃ s', exec i s = .next s' ∧
    s'.ctx (s.tileOf b.core) c =
      Ctx.enter { y with cycles := y.cycles + 1 } code eaddr false ((s.ctx (s.tileOf b.core) c).pc.setWidth 20) ∧
    Elsewhere s s' (s.tileOf b.core) c

/-- The operation waits: context `c` stays where it is, and nothing but a counter of stall cycles moves. -/
def Waits (i : Instr) (b : Issue) (s : State) (c : CtxId) : Prop :=
  ∃ s', exec i s = .next s' ∧ s'.ctx (s.tileOf b.core) c = s.ctx (s.tileOf b.core) c ∧
    Elsewhere s s' (s.tileOf b.core) c

/-- Every memory of the machine is in canonical form: HBM, the scratchpads of every core, and their marks
and tags. -/
def State.memoryWf (s : State) : Bool :=
  Tab.wf 0 s.hbm.mem && Tab.wf false s.hbm.marks &&
    s.cores.toList.all fun k => Tab.wf 0 k.mem && Tab.wf false k.marks && Tab.wf false k.tags

end Sys2Proof.Machine
end

