-- ==== Sys2Proof/WellFormed.lean ====
section
/-! DEFINITION. Well-formed commands: the bundle that an instruction row names, and what the operands of a
row must be for the row to be one the specification describes. -/

namespace Sys2Proof

open Sys2Proof.Machine

/-- The bundle's further words: at most three, of which the last and no other has E = 1 (R104, R110). -/
def Issue.ok (b : Issue) : Bool :=
  decide (b.rest.length ≤ 3) && b.rest.dropLast.all (fun w => !bit w 31) &&
    (match b.rest.getLast? with
      | some w => bit w 31
      | none => true)

/-- The bundle and the first operation that an instruction row names; none for an access, a message or an
event. -/
def Instr.bundle : Instr → Option (Issue × Op)
  | .registerWrite _ _ _ _ _ => none
  | .blkEnable _ _ => none
  | .blkDisable _ _ => none
  | .consistencyCheckDone _ _ => none
  | .blkLock _ _ => none
  | .softReset _ _ => none
  | .irqStatusClear _ _ _ => none
  | .irqForce _ _ _ => none
  | .woViolClear _ _ => none
  | .counterLowRead _ _ _ => none
  | .counterWrite _ _ _ _ _ _ => none
  | .snapTake _ _ => none
  | .snapRelease _ _ => none
  | .chipSvcStateRead _ => none
  | .remoteRequest _ => none
  | .loadDataArrival _ => none
  | .remoteAck _ => none
  | .storeBufferDrain _ => none
  | .fetchLineReturn _ _ _ => none
  | .jobAssign => none
  | .quantumExpiry _ => none
  | .coreIrq _ _ => none
  | .coreStop _ _ _ => none
  | .stopTaken _ _ => none
  | .coreCtxReset _ _ _ => none
  | .nop b => some (b, .nop)
  | .add b rd rs1 rs2 => some (b, .alu .add rd rs1 rs2)
  | .sub b rd rs1 rs2 => some (b, .alu .sub rd rs1 rs2)
  | .and b rd rs1 rs2 => some (b, .alu .and rd rs1 rs2)
  | .or b rd rs1 rs2 => some (b, .alu .or rd rs1 rs2)
  | .xor b rd rs1 rs2 => some (b, .alu .xor rd rs1 rs2)
  | .sll b rd rs1 rs2 => some (b, .alu .sll rd rs1 rs2)
  | .srl b rd rs1 rs2 => some (b, .alu .srl rd rs1 rs2)
  | .sra b rd rs1 rs2 => some (b, .alu .sra rd rs1 rs2)
  | .min b rd rs1 rs2 => some (b, .alu .min rd rs1 rs2)
  | .max b rd rs1 rs2 => some (b, .alu .max rd rs1 rs2)
  | .minu b rd rs1 rs2 => some (b, .alu .minu rd rs1 rs2)
  | .maxu b rd rs1 rs2 => some (b, .alu .maxu rd rs1 rs2)
  | .mov b rd rs => some (b, .mov rd rs)
  | .mfp b rd p => some (b, .mfp rd p)
  | .mtp b p rs => some (b, .mtp p rs)
  | .addi b rd rs1 imm => some (b, .aluImm .addi rd rs1 imm)
  | .andi b rd rs1 imm => some (b, .aluImm .andi rd rs1 imm)
  | .ori b rd rs1 imm => some (b, .aluImm .ori rd rs1 imm)
  | .xori b rd rs1 imm => some (b, .aluImm .xori rd rs1 imm)
  | .slli b rd rs1 amount => some (b, .aluImm .slli rd rs1 (amount.setWidth 14))
  | .srli b rd rs1 amount => some (b, .aluImm .srli rd rs1 (amount.setWidth 14))
  | .srai b rd rs1 amount => some (b, .aluImm .srai rd rs1 (amount.setWidth 14))
  | .sh b rd right amount =>
      some (b, .aluImm (if right then .srai else .slli) (rd.setWidth 5) (rd.setWidth 5) (amount.setWidth 14))
  | .movi b rd imm => some (b, .movi rd imm)
  | .movhi b rd imm => some (b, .movhi rd imm)
  | .cmpeq b pd rs1 rs2 => some (b, .cmp .eq pd rs1 rs2)
  | .cmpne b pd rs1 rs2 => some (b, .cmp .ne pd rs1 rs2)
  | .cmplt b pd rs1 rs2 => some (b, .cmp .lt pd rs1 rs2)
  | .cmpltu b pd rs1 rs2 => some (b, .cmp .ltu pd rs1 rs2)
  | .cmple b pd rs1 rs2 => some (b, .cmp .le pd rs1 rs2)
  | .cmpleu b pd rs1 rs2 => some (b, .cmp .leu pd rs1 rs2)
  | .mul b rd rs1 rs2 => some (b, .mul .mul rd rs1 rs2)
  | .mulh b rd rs1 rs2 => some (b, .mul .mulh rd rs1 rs2)
  | .mulhu b rd rs1 rs2 => some (b, .mul .mulhu rd rs1 rs2)
  | .mac b acc rs1 rs2 => some (b, .mac .mac acc rs1 rs2)
  | .macu b acc rs1 rs2 => some (b, .mac .macu acc rs1 rs2)
  | .msu b acc rs1 rs2 => some (b, .mac .msu acc rs1 rs2)
  | .clrAcc b acc => some (b, .clrAcc acc)
  | .movAccFromData b acc rs amount => some (b, .movAccFrom acc rs amount)
  | .movAcc b rd acc amount => some (b, .movAcc false rd acc amount)
  | .movAccu b rd acc amount => some (b, .movAcc true rd acc amount)
  | .adda b ad as1 src =>
      some (b, (match src with | .inl rs => .adda ad as1 rs | .inr imm => .addaImm ad as1 imm))
  | .suba b ad as1 rs => some (b, .suba ad as1 rs)
  | .mova b ad src =>
      some (b, (match src with | .inl rs => .movaD ad rs | .inr as1 => .movaA ad as1))
  | .movd b rd as1 => some (b, .movd rd as1)
  | .cmpaEq b pd as1 as2 => some (b, .cmpa .eq pd as1 as2)
  | .cmpaLt b pd as1 as2 => some (b, .cmpa .lt pd as1 as2)
  | .cmpaLe b pd as1 as2 => some (b, .cmpa .le pd as1 as2)
  | .ldBu b rd m => some (b, .load .byte rd m)
  | .ldH b rd m => some (b, .load .half rd m)
  | .ldW b rd m => some (b, .load .word rd m)
  | .stB b rs m => some (b, .store .byte rs m)
  | .stH b rs m => some (b, .store .half rs m)
  | .stW b rs m => some (b, .store .word rs m)
  | .ldPeek b size r m => some (b, .tagged .peek size r m)
  | .ldTake b size r m => some (b, .tagged .take size r m)
  | .stT b size r m => some (b, .tagged .stT size r m)
  | .stPut b size r m => some (b, .tagged .put size r m)
  | .tagWaitServe _ _ => none
  | .tagTimeout _ _ => none
  | .tagCancelReply _ _ => none
  | .remoteRetryResend _ => none
  | .br b p neg soff => some (b, .br p neg soff)
  | .call b p neg soff => some (b, .call p neg soff)
  | .ret b => some (b, .ret)
  | .loop b k count endOff => some (b, .loop k count endOff)
  | .yield b => some (b, .yield)
  | .fenceSp b => some (b, .fenceSp)
  | .fenceRm b => some (b, .fenceRm)
  | .ifl b => some (b, .ifl)
  | .ctxEnd b => some (b, .ctxEnd)
  | .inp b rd m => some (b, .inp rd m)
  | .out b rs m => some (b, .out rs m)
  | .outP b rs io => some (b, .outp rs io)
  | .mfsr b rd sr => some (b, .mfsr rd sr)
  | .mtsr b sr rs => some (b, .mtsr sr rs)
  | .eret b => some (b, .eret)
  | .ctxReset b => some (b, .ctxReset)
  | .irqOn b => some (b, .irqOn)
  | .irqOff b => some (b, .irqOff)
  | .tagmode b rs operand => some (b, .tagmode rs operand)
  | .spadTregWrite b rs region high =>
      some (b, .outp rs (0x900 + 8 * region.setWidth 12 + b2v 12 high * 4))
  | .spadMbxWrite b rs mbx high =>
      some (b, .outp rs (0xA00 + 8 * mbx.setWidth 12 + b2v 12 high * 4))
  | .crCntWrite b rs mbx => some (b, .outAt rs (0x400 + 4 * mbx.setWidth 20))
  | .crget b d m => some (b, .crget d m)
  | .crput b d m => some (b, .crput d m)
  | .creditOpRequest _ => none
  | .syncAdd b d ab off => some (b, .sync .add d ab off)
  | .syncSet b d ab off => some (b, .sync .set d ab off)
  | .syncCas b d ab off => some (b, .sync .cas d ab off)
  | .syncWait b d ab off => some (b, .sync .wait d ab off)
  | .syncRd b d ab off => some (b, .sync .rd d ab off)
  | .syncBankOp _ => none
  | .syncReply _ _ => none
  | .syncTimeout _ _ => none
  | .vadd b vd vs1 vs2 pg wd => some (b, .vint .add vd vs1 vs2 pg wd)
  | .vsub b vd vs1 vs2 pg wd => some (b, .vint .sub vd vs1 vs2 pg wd)
  | .vadds b vd vs1 vs2 pg wd => some (b, .vint .adds vd vs1 vs2 pg wd)
  | .vaddus b vd vs1 vs2 pg wd => some (b, .vint .addus vd vs1 vs2 pg wd)
  | .vsubs b vd vs1 vs2 pg wd => some (b, .vint .subs vd vs1 vs2 pg wd)
  | .vsubus b vd vs1 vs2 pg wd => some (b, .vint .subus vd vs1 vs2 pg wd)
  | .vand b vd vs1 vs2 pg wd => some (b, .vint .and vd vs1 vs2 pg wd)
  | .vor b vd vs1 vs2 pg wd => some (b, .vint .or vd vs1 vs2 pg wd)
  | .vxor b vd vs1 vs2 pg wd => some (b, .vint .xor vd vs1 vs2 pg wd)
  | .vmin b vd vs1 vs2 pg wd => some (b, .vint .min vd vs1 vs2 pg wd)
  | .vmax b vd vs1 vs2 pg wd => some (b, .vint .max vd vs1 vs2 pg wd)
  | .vminu b vd vs1 vs2 pg wd => some (b, .vint .minu vd vs1 vs2 pg wd)
  | .vmaxu b vd vs1 vs2 pg wd => some (b, .vint .maxu vd vs1 vs2 pg wd)
  | .vsll b vd vs1 vs2 pg wd => some (b, .vint .sll vd vs1 vs2 pg wd)
  | .vsra b vd vs1 vs2 pg wd => some (b, .vint .sra vd vs1 vs2 pg wd)
  | .vsrl b vd vs1 vs2 pg wd => some (b, .vint .srl vd vs1 vs2 pg wd)
  | .vaddi b vd vs1 pg wd imm => some (b, .vimm .addi vd vs1 pg wd imm)
  | .vslli b vd vs1 pg wd imm => some (b, .vimm .slli vd vs1 pg wd imm)
  | .vsrai b vd vs1 pg wd imm => some (b, .vimm .srai vd vs1 pg wd imm)
  | .vsrli b vd vs1 pg wd imm => some (b, .vimm .srli vd vs1 pg wd imm)
  | .vmovi b vd pg wd imm => some (b, .vimm .movi vd 0 pg wd imm)
  | .vmov b vd vs1 => some (b, .vun .mov (vd.setWidth 5) (vs1.setWidth 5) 0 0)
  | .vmulq b vd vs1 vs2 pg wd => some (b, .vint .mulq vd vs1 vs2 pg wd)
  | .vmulh b vd vs1 vs2 pg wd => some (b, .vint .mulh vd vs1 vs2 pg wd)
  | .vabs b vd vs1 pg wd => some (b, .vun .abs vd vs1 pg wd)
  | .vneg b vd vs1 pg wd => some (b, .vun .neg vd vs1 pg wd)
  | .vnarrow b vd va amount pg wd => some (b, .vnarrow .narrow vd va amount pg wd)
  | .vnarrowu b vd va amount pg wd => some (b, .vnarrow .narrowu vd va amount pg wd)
  | .vnarrowd b vd va amount pg wd => some (b, .vnarrow .narrowd vd va amount pg wd)
  | .vavg b vd vs1 vs2 pg wd => some (b, .vint .avg vd vs1 vs2 pg wd)
  | .vmacH b va vs1 vs2 pg => some (b, .vmac .h va vs1 vs2 pg)
  | .vmacHsu b va vs1 vs2 pg => some (b, .vmac .hsu va vs1 vs2 pg)
  | .vmacHuu b va vs1 vs2 pg => some (b, .vmac .huu va vs1 vs2 pg)
  | .vmsuH b va vs1 vs2 pg => some (b, .vmac .msuH va vs1 vs2 pg)
  | .vmacB b va vs1 vs2 pg => some (b, .vmac .b va vs1 vs2 pg)
  | .vmacBsu b va vs1 vs2 pg => some (b, .vmac .bsu va vs1 vs2 pg)
  | .vmacBuu b va vs1 vs2 pg => some (b, .vmac .buu va vs1 vs2 pg)
  | .vmsuB b va vs1 vs2 pg => some (b, .vmac .msuB va vs1 vs2 pg)
  | .vclrAcc b va pg => some (b, .vacc .clr va 0 0 pg)
  | .vmovVa b va vs1 amount pg => some (b, .vacc .movVa va vs1 amount pg)
  | .vmovVau b va vs1 amount pg => some (b, .vacc .movVau va vs1 amount pg)
  | .vfadd b vd vs1 vs2 pg wd => some (b, .vfp .add vd vs1 vs2 pg wd)
  | .vfsub b vd vs1 vs2 pg wd => some (b, .vfp .sub vd vs1 vs2 pg wd)
  | .vfmul b vd vs1 vs2 pg wd => some (b, .vfp .mul vd vs1 vs2 pg wd)
  | .vfma b vd vs1 vs2 pg wd => some (b, .vfp .fma vd vs1 vs2 pg wd)
  | .vfms b vd vs1 vs2 pg wd => some (b, .vfp .fms vd vs1 vs2 pg wd)
  | .vfmin b vd vs1 vs2 pg wd => some (b, .vfp .min vd vs1 vs2 pg wd)
  | .vfmax b vd vs1 vs2 pg wd => some (b, .vfp .max vd vs1 vs2 pg wd)
  | .vfabs b vd vs1 pg wd => some (b, .vfp .abs vd vs1 0 pg wd)
  | .vfneg b vd vs1 pg wd => some (b, .vfp .neg vd vs1 0 pg wd)
  | .vsetl b rd rs sew g => some (b, .vsetl rd rs sew g)
  | .vsetlR b rs => some (b, .vsetlR rs)
  | .vgetl b rd => some (b, .vgetl rd)
  | .vcmpeq b pd vs1 vs2 pg wd => some (b, .vcmp .eq pd vs1 vs2 pg wd)
  | .vcmplt b pd vs1 vs2 pg wd => some (b, .vcmp .lt pd vs1 vs2 pg wd)
  | .vcmpltu b pd vs1 vs2 pg wd => some (b, .vcmp .ltu pd vs1 vs2 pg wd)
  | .vcmple b pd vs1 vs2 pg wd => some (b, .vcmp .le pd vs1 vs2 pg wd)
  | .vfcmpeq b pd vs1 vs2 pg wd => some (b, .vcmp .feq pd vs1 vs2 pg wd)
  | .vfcmplt b pd vs1 vs2 pg wd => some (b, .vcmp .flt pd vs1 vs2 pg wd)
  | .pand b pd ps1 ps2 pg => some (b, .pred .and pd ps1 ps2 pg b.width)
  | .por b pd ps1 ps2 pg => some (b, .pred .or pd ps1 ps2 pg b.width)
  | .pxor b pd ps1 ps2 pg => some (b, .pred .xor pd ps1 ps2 pg b.width)
  | .pnot b pd ps1 pg => some (b, .pred .not pd ps1 0 pg b.width)
  | .pany b pd ps1 pg => some (b, .pred .any pd ps1 0 pg b.width)
  | .pall b pd ps1 pg => some (b, .pred .all pd ps1 0 pg b.width)
  | .pcnt b rd ps pg => some (b, .pcnt rd ps pg b.width)
  | .vperm b vd vs1 vs2 pg wd => some (b, .vperm .perm vd vs1 vs2 pg wd)
  | .vslideup b vd vs1 vs2 pg wd => some (b, .vperm .slideup vd vs1 vs2 pg wd)
  | .vslidedn b vd vs1 vs2 pg wd => some (b, .vperm .slidedn vd vs1 vs2 pg wd)
  | .vzipLo b vd vs1 vs2 pg wd => some (b, .vperm .zipLo vd vs1 vs2 pg wd)
  | .vzipHi b vd vs1 vs2 pg wd => some (b, .vperm .zipHi vd vs1 vs2 pg wd)
  | .vunzipE b vd vs1 vs2 pg wd => some (b, .vperm .unzipE vd vs1 vs2 pg wd)
  | .vunzipO b vd vs1 vs2 pg wd => some (b, .vperm .unzipO vd vs1 vs2 pg wd)
  | .vrev b vd vs1 pg wd => some (b, .vperm .rev vd vs1 0 pg wd)
  | .vtrn b vd vs1 pg wd => some (b, .vperm .trn vd vs1 0 pg wd)
  | .vbcast b vd vs1 pg wd => some (b, .vperm .bcast vd vs1 0 pg wd)
  | .vredsum b rd vs1 pg wd => some (b, .vred .sum rd vs1 0 pg wd)
  | .vredsumu b rd vs1 pg wd => some (b, .vred .sumu rd vs1 0 pg wd)
  | .vredmax b rd vs1 pg wd => some (b, .vred .max rd vs1 0 pg wd)
  | .vredmin b rd vs1 pg wd => some (b, .vred .min rd vs1 0 pg wd)
  | .vmaxi b rd vs1 rd2 pg wd => some (b, .vred .maxi rd vs1 rd2 pg wd)
  | .vmini b rd vs1 rd2 pg wd => some (b, .vred .mini rd vs1 rd2 pg wd)
  | .vbexp b rd vs1 pg wd => some (b, .vred .bexp rd vs1 0 pg wd)
  | .vbexpAcc b rd va pg => some (b, .vred .bexpAcc rd (va.setWidth 5) 0 pg 0)
  | .vfredsum b rd vs1 pg wd => some (b, .vred .fsum rd vs1 0 pg wd)
  | .vfmaxi b rd vs1 rd2 pg wd => some (b, .vred .fmaxi rd vs1 rd2 pg wd)
  | .vfmini b rd vs1 rd2 pg wd => some (b, .vred .fmini rd vs1 rd2 pg wd)
  | .vcvtSW b vd vs1 pg => some (b, .vcvt .sW vd vs1 pg)
  | .vcvtWS b vd vs1 pg => some (b, .vcvt .wS vd vs1 pg)
  | .vcvtSBf b vd vs1 pg => some (b, .vcvt .sBf vd vs1 pg)
  | .vcvtBfS b vd vs1 pg => some (b, .vcvt .bfS vd vs1 pg)
  | .vcvtSE4 b vd vs1 pg => some (b, .vcvt .sE4 vd vs1 pg)
  | .vcvtSE5 b vd vs1 pg => some (b, .vcvt .sE5 vd vs1 pg)
  | .vcvtE4S b vd vs1 pg => some (b, .vcvt .e4S vd vs1 pg)
  | .vcvtE5S b vd vs1 pg => some (b, .vcvt .e5S vd vs1 pg)
  | .vext b rd vs1 rs pg wd => some (b, .vext rd vs1 rs pg wd)
  | .vins b vd rs1 rs2 pg wd => some (b, .vins vd rs1 rs2 pg wd)
  | .vcvtHB b vd vs1 pg => some (b, .vcvt .hB vd vs1 pg)
  | .vcvtHBu b vd vs1 pg => some (b, .vcvt .hBu vd vs1 pg)
  | .vlut b t vd vs1 pg wd => some (b, .vlut false t vd vs1 pg wd)
  | .vlutI b t vd vs1 pg wd => some (b, .vlut true t vd vs1 pg wd)
  | .vlutld b t ab off => some (b, .vlutMem false t ab off)
  | .vlutst b t ab off => some (b, .vlutMem true t ab off)
  | .vdwin b wr vs => some (b, .vdwin wr vs)
  | .vdwmac b va wr v k dil c32 u z => some (b, .vdwmac va wr v k dil c32 u z)
  | .vld b v ab pg off => some (b, .vmem .unit false v ab pg off)
  | .vst b v ab pg off => some (b, .vmem .unit true v ab pg off)
  | .stridedLoad b v ab pg rx => some (b, .vmem .strided false v ab pg (.reg rx 0))
  | .stridedStore b v ab pg rx => some (b, .vmem .strided true v ab pg (.reg rx 0))
  | .load2d b v ab pg rx => some (b, .vmem .twoD false v ab pg (.reg rx 0))
  | .store2d b v ab pg rx => some (b, .vmem .twoD true v ab pg (.reg rx 0))
  | .gather b v ab pg vrx scale => some (b, .vmem .indexed false v ab pg (.reg vrx scale))
  | .scatter b v ab pg vrx scale => some (b, .vmem .indexed true v ab pg (.reg vrx scale))
  | .mjob b d m => some (b, .mjob d m)
  | .matrixJobStart _ => none
  | .matrixFeedDone _ => none
  | .matrixEpilogue _ => none
  | .matrixJobComplete _ => none
  | .mqAbort b rs => some (b, .outAt rs 0x20C)
  | .trkDataRead b rd => some (b, .inAt rd 0xF04)
  | .trkDataWrite b rs => some (b, .outp rs 0xF04)
  | .trkStep b rs => some (b, .outp rs 0xF08)
  | .trkReset b rs => some (b, .outp rs 0xF0C)
  | .sjob b d m => some (b, .sjob d m)
  | .stripeActivate _ _ => none
  | .stripeTrigTimeout _ _ => none
  | .sqTrig b rs => some (b, .outAt rs 0x21C)
  | .sqAbort b rs => some (b, .outAt rs 0x21C)
  | .wind _ _ => none
  | .stripeComplete _ _ => none
  | .eccWriteBack _ _ => none
  | .watchHalving _ => none
  | .spadRmapGo _ _ _ => none
  | .remapDone _ => none
  | .spadClear _ _ => none
  | .clearDone _ => none
  | .dma b d m => some (b, .dma d m)
  | .dmac b d m => some (b, .dmac d m)
  | .dmaStart b rs ch => some (b, .outAt rs (BitVec.ofNat 20 (0x118 + 0x20 * ch.val)))
  | .dmaDisable b rs ch => some (b, .outAt rs (BitVec.ofNat 20 (0x118 + 0x20 * ch.val)))
  | .dmaKill _ _ _ => none
  | .dmaRing b rs ch => some (b, .outAt rs (BitVec.ofNat 20 (0x118 + 0x20 * ch.val)))
  | .dmaSelect _ => none
  | .dmaWriteAck _ _ => none
  | .dmaReadbackDone _ => none
  | .dmaLinkReread _ _ => none
  | .dmaHalfPoint _ => none
  | .dmaWriteTimeout _ _ => none
  | .dmaDrainEnd _ _ => none
  | .doorbell _ _ _ _ => none
  | .ringCommit _ _ => none
  | .ringRun _ _ _ => none
  | .ringCancel _ _ => none
  | .ringRestart _ _ => none
  | .descFetch => none
  | .descArrival => none
  | .descShed => none
  | .jobExpired _ => none
  | .waitTimeout _ => none
  | .gatePoll _ => none
  | .ageWatermark _ => none
  | .syncValueWrite _ _ _ _ _ => none
  | .syncAddvWrite _ _ _ _ _ => none
  | .syncCasGo _ _ _ => none
  | .syncCommit _ => none
  | .hbmRequest _ _ => none
  | .datCommit _ => none
  | .datRsvCommit _ _ => none
  | .datInv _ _ _ => none
  | .datInvDone => none
  | .hbmRefresh _ _ => none
  | .patrolScrub _ _ => none
  | .bar2Read _ _ _ => none
  | .bar2Write _ _ _ => none
  | .configRequest _ _ => none
  | .configReady => none
  | .msixUnmask _ _ => none
  | .flr _ => none
  | .pf0Flr => none
  | .flrDone _ => none
  | .hostLost => none
  | .hostReturn => none
  | .perstN => none
  | .peerDetected _ _ => none
  | .peerTrained _ _ => none
  | .peerIdent _ _ => none
  | .peerKeyExchange _ _ => none
  | .peerRetrain _ _ => none
  | .peerLinkSilence _ => none
  | .peerRedetect _ => none
  | .flitReceive _ _ => none
  | .flitReplayTimeout _ => none
  | .keyRollover _ _ => none
  | .timeExchange _ _ _ _ _ => none
  | .timeLockLost => none
  | .peerCommit _ => none
  | .pqCommit _ _ => none
  | .pqRun _ _ _ => none
  | .pqRestart _ _ => none
  | .peerDescFetch _ => none
  | .peerRequest _ _ _ => none
  | .peerDescComplete _ _ => none
  | .peerXferTimeout _ => none
  | .retryResend _ => none
  | .getNonce => none
  | .claim _ _ => none
  | .release _ => none
  | .assignTenant _ _ _ => none
  | .endTenancy _ => none
  | .debugUnlock _ => none
  | .getState _ => none
  | .setBounce _ _ => none
  | .keyLoad _ _ _ _ _ _ => none
  | .keyClear _ => none
  | .tenantDumpRead _ _ => none
  | .getCertificate _ _ => none
  | .claimWindowClose => none
  | .wedgingZeroDone => none
  | .wedgingVerifyDone _ => none
  | .powerOn _ _ => none
  | .pwrOkFall => none
  | .bootComplete _ _ => none
  | .trialTimeout => none
  | .mgmtWatchdogExpiry => none
  | .getInfo _ => none
  | .fwWrite _ => none
  | .fwCommit _ => none
  | .fwCancel _ => none
  | .logRead _ => none
  | .dumpRead _ => none
  | .mbDone => none
  | .clockCalibration _ => none
  | .refLost => none
  | .supplyDroop _ => none
  | .powerMeasure _ => none
  | .powerLimiterTick => none
  | .tempSample _ _ => none
  | .thermalThrottleTick _ => none
  | .hbmTempSample _ _ => none
  | .regulatorFault _ => none
  | .tedCap _ _ => none
  | .firingInterval => none
  | .firingRequest _ => none
  | .firingGate _ => none
  | .forcedGating _ => none
  | .islandSweepDone _ _ _ _ => none
  | .railSettled _ => none
  | .bistGo _ => none
  | .bistAbort _ => none
  | .bistDone _ _ _ => none
  | .castlingCopy _ => none
  | .castlingComplete _ => none
  | .castlingCopyTimeout _ => none
  | .checkTimer _ _ => none
  | .engineStall _ _ => none
  | .hangDeclaration _ _ => none
  | .partRecover _ _ => none
  | .partOffline _ _ => none
  | .partOnline _ _ => none
  | .dumpAck _ _ => none
  | .recoveryStepDone _ => none
  | .recoveryComplete _ _ => none
  | .logFlush _ => none
  | .logAck _ _ => none
  | .perstNDeassert _ _ => none
  | .dmaReadReturn _ => none
  | .creditOpReply _ _ => none
  | .peerLaneLoss _ => none
  | .referenceRestored => none
  | .supplyDroopEnd _ => none
  | .firingSkipRetry _ => none
  | .spdmSessionEstablish _ _ => none

/-- The operands of a row that is no instruction: a BAR2 write carries 1 to 512 bytes
(R422) and a BAR2 read asks for 1 to 4,096 (PRESUMED, PCI Express). -/
def Instr.fieldsOk : Instr → Bool
  | .registerWrite _ _ _ _ _ => true
  | .blkEnable _ _ => true
  | .blkDisable _ _ => true
  | .consistencyCheckDone _ _ => true
  | .blkLock _ _ => true
  | .softReset _ _ => true
  | .irqStatusClear _ _ _ => true
  | .irqForce _ _ _ => true
  | .woViolClear _ _ => true
  | .counterLowRead _ _ _ => true
  | .counterWrite _ _ _ _ _ _ => true
  | .snapTake _ _ => true
  | .snapRelease _ _ => true
  | .chipSvcStateRead _ => true
  | .remoteRequest _ => true
  | .loadDataArrival _ => true
  | .remoteAck _ => true
  | .storeBufferDrain _ => true
  | .fetchLineReturn _ _ _ => true
  | .jobAssign => true
  | .quantumExpiry _ => true
  | .coreIrq _ _ => true
  | .coreStop _ _ _ => true
  | .stopTaken _ _ => true
  | .coreCtxReset _ _ _ => true
  | .nop _ => true
  | .add _ _ _ _ => true
  | .sub _ _ _ _ => true
  | .and _ _ _ _ => true
  | .or _ _ _ _ => true
  | .xor _ _ _ _ => true
  | .sll _ _ _ _ => true
  | .srl _ _ _ _ => true
  | .sra _ _ _ _ => true
  | .min _ _ _ _ => true
  | .max _ _ _ _ => true
  | .minu _ _ _ _ => true
  | .maxu _ _ _ _ => true
  | .mov _ _ _ => true
  | .mfp _ _ _ => true
  | .mtp _ _ _ => true
  | .addi _ _ _ _ => true
  | .andi _ _ _ _ => true
  | .ori _ _ _ _ => true
  | .xori _ _ _ _ => true
  | .slli _ _ _ _ => true
  | .srli _ _ _ _ => true
  | .srai _ _ _ _ => true
  | .sh _ _ _ _ => true
  | .movi _ _ _ => true
  | .movhi _ _ _ => true
  | .cmpeq _ _ _ _ => true
  | .cmpne _ _ _ _ => true
  | .cmplt _ _ _ _ => true
  | .cmpltu _ _ _ _ => true
  | .cmple _ _ _ _ => true
  | .cmpleu _ _ _ _ => true
  | .mul _ _ _ _ => true
  | .mulh _ _ _ _ => true
  | .mulhu _ _ _ _ => true
  | .mac _ _ _ _ => true
  | .macu _ _ _ _ => true
  | .msu _ _ _ _ => true
  | .clrAcc _ _ => true
  | .movAccFromData _ _ _ _ => true
  | .movAcc _ _ _ _ => true
  | .movAccu _ _ _ _ => true
  | .adda _ _ _ _ => true
  | .suba _ _ _ _ => true
  | .mova _ _ _ => true
  | .movd _ _ _ => true
  | .cmpaEq _ _ _ _ => true
  | .cmpaLt _ _ _ _ => true
  | .cmpaLe _ _ _ _ => true
  | .ldBu _ _ _ => true
  | .ldH _ _ _ => true
  | .ldW _ _ _ => true
  | .stB _ _ _ => true
  | .stH _ _ _ => true
  | .stW _ _ _ => true
  | .ldPeek _ _ _ _ => true
  | .ldTake _ _ _ _ => true
  | .stT _ _ _ _ => true
  | .stPut _ _ _ _ => true
  | .tagWaitServe _ _ => true
  | .tagTimeout _ _ => true
  | .tagCancelReply _ _ => true
  | .remoteRetryResend _ => true
  | .br _ _ _ _ => true
  | .call _ _ _ _ => true
  | .ret _ => true
  | .loop _ _ _ _ => true
  | .yield _ => true
  | .fenceSp _ => true
  | .fenceRm _ => true
  | .ifl _ => true
  | .ctxEnd _ => true
  | .inp _ _ _ => true
  | .out _ _ _ => true
  | .outP _ _ _ => true
  | .mfsr _ _ _ => true
  | .mtsr _ _ _ => true
  | .eret _ => true
  | .ctxReset _ => true
  | .irqOn _ => true
  | .irqOff _ => true
  | .tagmode _ _ _ => true
  | .spadTregWrite _ _ _ _ => true
  | .spadMbxWrite _ _ _ _ => true
  | .crCntWrite _ _ _ => true
  | .crget _ _ _ => true
  | .crput _ _ _ => true
  | .creditOpRequest _ => true
  | .syncAdd _ _ _ _ => true
  | .syncSet _ _ _ _ => true
  | .syncCas _ _ _ _ => true
  | .syncWait _ _ _ _ => true
  | .syncRd _ _ _ _ => true
  | .syncBankOp _ => true
  | .syncReply _ _ => true
  | .syncTimeout _ _ => true
  | .vadd _ _ _ _ _ _ => true
  | .vsub _ _ _ _ _ _ => true
  | .vadds _ _ _ _ _ _ => true
  | .vaddus _ _ _ _ _ _ => true
  | .vsubs _ _ _ _ _ _ => true
  | .vsubus _ _ _ _ _ _ => true
  | .vand _ _ _ _ _ _ => true
  | .vor _ _ _ _ _ _ => true
  | .vxor _ _ _ _ _ _ => true
  | .vmin _ _ _ _ _ _ => true
  | .vmax _ _ _ _ _ _ => true
  | .vminu _ _ _ _ _ _ => true
  | .vmaxu _ _ _ _ _ _ => true
  | .vsll _ _ _ _ _ _ => true
  | .vsra _ _ _ _ _ _ => true
  | .vsrl _ _ _ _ _ _ => true
  | .vaddi _ _ _ _ _ _ => true
  | .vslli _ _ _ _ _ _ => true
  | .vsrai _ _ _ _ _ _ => true
  | .vsrli _ _ _ _ _ _ => true
  | .vmovi _ _ _ _ _ => true
  | .vmov _ _ _ => true
  | .vmulq _ _ _ _ _ _ => true
  | .vmulh _ _ _ _ _ _ => true
  | .vabs _ _ _ _ _ => true
  | .vneg _ _ _ _ _ => true
  | .vnarrow _ _ _ _ _ _ => true
  | .vnarrowu _ _ _ _ _ _ => true
  | .vnarrowd _ _ _ _ _ _ => true
  | .vavg _ _ _ _ _ _ => true
  | .vmacH _ _ _ _ _ => true
  | .vmacHsu _ _ _ _ _ => true
  | .vmacHuu _ _ _ _ _ => true
  | .vmsuH _ _ _ _ _ => true
  | .vmacB _ _ _ _ _ => true
  | .vmacBsu _ _ _ _ _ => true
  | .vmacBuu _ _ _ _ _ => true
  | .vmsuB _ _ _ _ _ => true
  | .vclrAcc _ _ _ => true
  | .vmovVa _ _ _ _ _ => true
  | .vmovVau _ _ _ _ _ => true
  | .vfadd _ _ _ _ _ _ => true
  | .vfsub _ _ _ _ _ _ => true
  | .vfmul _ _ _ _ _ _ => true
  | .vfma _ _ _ _ _ _ => true
  | .vfms _ _ _ _ _ _ => true
  | .vfmin _ _ _ _ _ _ => true
  | .vfmax _ _ _ _ _ _ => true
  | .vfabs _ _ _ _ _ => true
  | .vfneg _ _ _ _ _ => true
  | .vsetl _ _ _ _ _ => true
  | .vsetlR _ _ => true
  | .vgetl _ _ => true
  | .vcmpeq _ _ _ _ _ _ => true
  | .vcmplt _ _ _ _ _ _ => true
  | .vcmpltu _ _ _ _ _ _ => true
  | .vcmple _ _ _ _ _ _ => true
  | .vfcmpeq _ _ _ _ _ _ => true
  | .vfcmplt _ _ _ _ _ _ => true
  | .pand _ _ _ _ _ => true
  | .por _ _ _ _ _ => true
  | .pxor _ _ _ _ _ => true
  | .pnot _ _ _ _ => true
  | .pany _ _ _ _ => true
  | .pall _ _ _ _ => true
  | .pcnt _ _ _ _ => true
  | .vperm _ _ _ _ _ _ => true
  | .vslideup _ _ _ _ _ _ => true
  | .vslidedn _ _ _ _ _ _ => true
  | .vzipLo _ _ _ _ _ _ => true
  | .vzipHi _ _ _ _ _ _ => true
  | .vunzipE _ _ _ _ _ _ => true
  | .vunzipO _ _ _ _ _ _ => true
  | .vrev _ _ _ _ _ => true
  | .vtrn _ _ _ _ _ => true
  | .vbcast _ _ _ _ _ => true
  | .vredsum _ _ _ _ _ => true
  | .vredsumu _ _ _ _ _ => true
  | .vredmax _ _ _ _ _ => true
  | .vredmin _ _ _ _ _ => true
  | .vmaxi _ _ _ _ _ _ => true
  | .vmini _ _ _ _ _ _ => true
  | .vbexp _ _ _ _ _ => true
  | .vbexpAcc _ _ _ _ => true
  | .vfredsum _ _ _ _ _ => true
  | .vfmaxi _ _ _ _ _ _ => true
  | .vfmini _ _ _ _ _ _ => true
  | .vcvtSW _ _ _ _ => true
  | .vcvtWS _ _ _ _ => true
  | .vcvtSBf _ _ _ _ => true
  | .vcvtBfS _ _ _ _ => true
  | .vcvtSE4 _ _ _ _ => true
  | .vcvtSE5 _ _ _ _ => true
  | .vcvtE4S _ _ _ _ => true
  | .vcvtE5S _ _ _ _ => true
  | .vext _ _ _ _ _ _ => true
  | .vins _ _ _ _ _ _ => true
  | .vcvtHB _ _ _ _ => true
  | .vcvtHBu _ _ _ _ => true
  | .vlut _ _ _ _ _ _ => true
  | .vlutI _ _ _ _ _ _ => true
  | .vlutld _ _ _ _ => true
  | .vlutst _ _ _ _ => true
  | .vdwin _ _ _ => true
  | .vdwmac _ _ _ _ _ _ _ _ _ => true
  | .vld _ _ _ _ _ => true
  | .vst _ _ _ _ _ => true
  | .stridedLoad _ _ _ _ _ => true
  | .stridedStore _ _ _ _ _ => true
  | .load2d _ _ _ _ _ => true
  | .store2d _ _ _ _ _ => true
  | .gather _ _ _ _ _ _ => true
  | .scatter _ _ _ _ _ _ => true
  | .mjob _ _ _ => true
  | .matrixJobStart _ => true
  | .matrixFeedDone _ => true
  | .matrixEpilogue _ => true
  | .matrixJobComplete _ => true
  | .mqAbort _ _ => true
  | .trkDataRead _ _ => true
  | .trkDataWrite _ _ => true
  | .trkStep _ _ => true
  | .trkReset _ _ => true
  | .sjob _ _ _ => true
  | .stripeActivate _ _ => true
  | .stripeTrigTimeout _ _ => true
  | .sqTrig _ _ => true
  | .sqAbort _ _ => true
  | .wind _ _ => true
  | .stripeComplete _ _ => true
  | .eccWriteBack _ _ => true
  | .watchHalving _ => true
  | .spadRmapGo _ _ _ => true
  | .remapDone _ => true
  | .spadClear _ _ => true
  | .clearDone _ => true
  | .dma _ _ _ => true
  | .dmac _ _ _ => true
  | .dmaStart _ _ _ => true
  | .dmaDisable _ _ _ => true
  | .dmaKill _ _ _ => true
  | .dmaRing _ _ _ => true
  | .dmaSelect _ => true
  | .dmaWriteAck _ _ => true
  | .dmaReadbackDone _ => true
  | .dmaLinkReread _ _ => true
  | .dmaHalfPoint _ => true
  | .dmaWriteTimeout _ _ => true
  | .dmaDrainEnd _ _ => true
  | .doorbell _ _ _ _ => true
  | .ringCommit _ _ => true
  | .ringRun _ _ _ => true
  | .ringCancel _ _ => true
  | .ringRestart _ _ => true
  | .descFetch => true
  | .descArrival => true
  | .descShed => true
  | .jobExpired _ => true
  | .waitTimeout _ => true
  | .gatePoll _ => true
  | .ageWatermark _ => true
  | .syncValueWrite _ _ _ _ _ => true
  | .syncAddvWrite _ _ _ _ _ => true
  | .syncCasGo _ _ _ => true
  | .syncCommit _ => true
  | .hbmRequest _ _ => true
  | .datCommit _ => true
  | .datRsvCommit _ _ => true
  | .datInv _ _ _ => true
  | .datInvDone => true
  | .hbmRefresh _ _ => true
  | .patrolScrub _ _ => true
  | .bar2Read _ _ len => len != 0 && decide (len.toNat ≤ 4096)
  | .bar2Write _ _ data => !data.isEmpty && decide (data.length ≤ 512)
  | .configRequest _ _ => true
  | .configReady => true
  | .msixUnmask _ _ => true
  | .flr _ => true
  | .pf0Flr => true
  | .flrDone _ => true
  | .hostLost => true
  | .hostReturn => true
  | .perstN => true
  | .peerDetected _ _ => true
  | .peerTrained _ _ => true
  | .peerIdent _ _ => true
  | .peerKeyExchange _ _ => true
  | .peerRetrain _ _ => true
  | .peerLinkSilence _ => true
  | .peerRedetect _ => true
  | .flitReceive _ _ => true
  | .flitReplayTimeout _ => true
  | .keyRollover _ _ => true
  | .timeExchange _ _ _ _ _ => true
  | .timeLockLost => true
  | .peerCommit _ => true
  | .pqCommit _ _ => true
  | .pqRun _ _ _ => true
  | .pqRestart _ _ => true
  | .peerDescFetch _ => true
  | .peerRequest _ _ _ => true
  | .peerDescComplete _ _ => true
  | .peerXferTimeout _ => true
  | .retryResend _ => true
  | .getNonce => true
  | .claim _ _ => true
  | .release _ => true
  | .assignTenant _ _ _ => true
  | .endTenancy _ => true
  | .debugUnlock _ => true
  | .getState _ => true
  | .setBounce _ _ => true
  | .keyLoad _ _ _ _ _ _ => true
  | .keyClear _ => true
  | .tenantDumpRead _ _ => true
  | .getCertificate _ _ => true
  | .claimWindowClose => true
  | .wedgingZeroDone => true
  | .wedgingVerifyDone _ => true
  | .powerOn _ _ => true
  | .pwrOkFall => true
  | .bootComplete _ _ => true
  | .trialTimeout => true
  | .mgmtWatchdogExpiry => true
  | .getInfo _ => true
  | .fwWrite _ => true
  | .fwCommit _ => true
  | .fwCancel _ => true
  | .logRead _ => true
  | .dumpRead _ => true
  | .mbDone => true
  | .clockCalibration _ => true
  | .refLost => true
  | .supplyDroop _ => true
  | .powerMeasure _ => true
  | .powerLimiterTick => true
  | .tempSample _ _ => true
  | .thermalThrottleTick _ => true
  | .hbmTempSample _ _ => true
  | .regulatorFault _ => true
  | .tedCap _ _ => true
  | .firingInterval => true
  | .firingRequest _ => true
  | .firingGate _ => true
  | .forcedGating _ => true
  | .islandSweepDone _ _ _ _ => true
  | .railSettled _ => true
  | .bistGo _ => true
  | .bistAbort _ => true
  | .bistDone _ _ _ => true
  | .castlingCopy _ => true
  | .castlingComplete _ => true
  | .castlingCopyTimeout _ => true
  | .checkTimer _ _ => true
  | .engineStall _ _ => true
  | .hangDeclaration _ _ => true
  | .partRecover _ _ => true
  | .partOffline _ _ => true
  | .partOnline _ _ => true
  | .dumpAck _ _ => true
  | .recoveryStepDone _ => true
  | .recoveryComplete _ _ => true
  | .logFlush _ => true
  | .logAck _ _ => true
  | .perstNDeassert _ _ => true
  | .dmaReadReturn _ => true
  | .creditOpReply _ _ => true
  | .peerLaneLoss _ => true
  | .referenceRestored => true
  | .supplyDroopEnd _ => true
  | .firingSkipRetry _ => true
  | .spdmSessionEstablish _ _ => true

/-- A well-formed command: an instruction row names a defined operation in a bundle that ends within four
words, and the operands of any other row are in range. -/
def Instr.wellFormed (c : Instr) : Bool :=
  c.fieldsOk &&
    match c.bundle with
    | some (b, o) => b.ok && Op.legal o && (b.mate.isNone || Op.shortForm o)
    | none => true

end Sys2Proof
end

