-- ==== Sys2Proof/Certificates/Slice0/Obligations.lean ====
section
/-! DEFINITION. The statements about the machine, for the provers. -/

open Sys2Proof Sys2Proof.Machine

/-! ### The scalar rows of a bundle -/

/-- R563, R568: the register rows write one data register with their result, and nothing else. -/
def Obligations.ScalarRegisterRows : Prop :=
  ∀ (b : Issue) (s : State) (c : CtxId) (rd rs1 rs2 : BitVec 5) (p : BitVec 3) (as1 : BitVec 4),
    let x := s.ctx (s.tileOf b.core) c
    let u := x.rd rs1
    let v := x.rd rs2
    let n := v.toNat % 32
    (Ready b (.alu .add rd rs1 rs2) s c →
      Does (.add b rd rs1 rs2) b s c (x.setD rd (BitVec.ofNat 32 (u.toNat + v.toNat)))) ∧
    (Ready b (.alu .sub rd rs1 rs2) s c →
      Does (.sub b rd rs1 rs2) b s c (x.setD rd (BitVec.ofInt 32 (u.toInt - v.toInt)))) ∧
    (Ready b (.alu .and rd rs1 rs2) s c → Does (.and b rd rs1 rs2) b s c (x.setD rd (u &&& v))) ∧
    (Ready b (.alu .or rd rs1 rs2) s c → Does (.or b rd rs1 rs2) b s c (x.setD rd (u ||| v))) ∧
    (Ready b (.alu .xor rd rs1 rs2) s c → Does (.xor b rd rs1 rs2) b s c (x.setD rd (u ^^^ v))) ∧
    (Ready b (.alu .sll rd rs1 rs2) s c →
      Does (.sll b rd rs1 rs2) b s c (x.setD rd (BitVec.ofNat 32 (u.toNat * 2 ^ n)))) ∧
    (Ready b (.alu .srl rd rs1 rs2) s c →
      Does (.srl b rd rs1 rs2) b s c (x.setD rd (BitVec.ofNat 32 (u.toNat / 2 ^ n)))) ∧
    (Ready b (.alu .sra rd rs1 rs2) s c →
      Does (.sra b rd rs1 rs2) b s c (x.setD rd (BitVec.ofInt 32 (u.toInt / 2 ^ n)))) ∧
    (Ready b (.alu .min rd rs1 rs2) s c →
      Does (.min b rd rs1 rs2) b s c (x.setD rd (BitVec.ofInt 32 (Min.min u.toInt v.toInt)))) ∧
    (Ready b (.alu .max rd rs1 rs2) s c →
      Does (.max b rd rs1 rs2) b s c (x.setD rd (BitVec.ofInt 32 (Max.max u.toInt v.toInt)))) ∧
    (Ready b (.alu .minu rd rs1 rs2) s c →
      Does (.minu b rd rs1 rs2) b s c (x.setD rd (BitVec.ofNat 32 (Min.min u.toNat v.toNat)))) ∧
    (Ready b (.alu .maxu rd rs1 rs2) s c →
      Does (.maxu b rd rs1 rs2) b s c (x.setD rd (BitVec.ofNat 32 (Max.max u.toNat v.toNat)))) ∧
    (Ready b (.mov rd rs1) s c → Does (.mov b rd rs1) b s c (x.setD rd u)) ∧
    (Ready b (.mfp rd p) s c →
      Does (.mfp b rd p) b s c (x.setD rd (if bit (x.rp p) 0 then 1 else 0))) ∧
    (Ready b (.movd rd as1) s c → Does (.movd b rd as1) b s c (x.setD rd (x.ra as1)))

/-- R564, R566, R108: the immediate rows and the short shift write one data register with their result,
and nothing else. -/
def Obligations.ScalarImmediateRows : Prop :=
  ∀ (b : Issue) (s : State) (c : CtxId) (rd rs1 n : BitVec 5) (imm : BitVec 14) (imm18 : BitVec 18)
      (r : BitVec 4),
    let x := s.ctx (s.tileOf b.core) c
    let u := x.rd rs1
    let sext : Word := BitVec.ofInt 32 imm.toInt
    let zext : Word := BitVec.ofNat 32 imm.toNat
    let sh (right : Bool) : Op := .aluImm (if right then .srai else .slli) (r.setWidth 5) (r.setWidth 5)
      (n.setWidth 14)
    (Ready b (.aluImm .addi rd rs1 imm) s c →
      Does (.addi b rd rs1 imm) b s c (x.setD rd (BitVec.ofInt 32 (u.toInt + imm.toInt)))) ∧
    (Ready b (.aluImm .andi rd rs1 imm) s c →
      Does (.andi b rd rs1 imm) b s c (x.setD rd (u &&& sext))) ∧
    (Ready b (.aluImm .ori rd rs1 imm) s c → Does (.ori b rd rs1 imm) b s c (x.setD rd (u ||| zext))) ∧
    (Ready b (.aluImm .xori rd rs1 imm) s c →
      Does (.xori b rd rs1 imm) b s c (x.setD rd (u ^^^ zext))) ∧
    (Ready b (.aluImm .slli rd rs1 (n.setWidth 14)) s c →
      Does (.slli b rd rs1 n) b s c (x.setD rd (BitVec.ofNat 32 (u.toNat * 2 ^ n.toNat)))) ∧
    (Ready b (.aluImm .srli rd rs1 (n.setWidth 14)) s c →
      Does (.srli b rd rs1 n) b s c (x.setD rd (BitVec.ofNat 32 (u.toNat / 2 ^ n.toNat)))) ∧
    (Ready b (.aluImm .srai rd rs1 (n.setWidth 14)) s c →
      Does (.srai b rd rs1 n) b s c (x.setD rd (BitVec.ofInt 32 (u.toInt / 2 ^ n.toNat)))) ∧
    (Ready b (sh false) s c → Does (.sh b r false n) b s c
      (x.setD (r.setWidth 5) (BitVec.ofNat 32 ((x.rd (r.setWidth 5)).toNat * 2 ^ n.toNat)))) ∧
    (Ready b (sh true) s c → Does (.sh b r true n) b s c
      (x.setD (r.setWidth 5) (BitVec.ofInt 32 ((x.rd (r.setWidth 5)).toInt / 2 ^ n.toNat)))) ∧
    (Ready b (.movi rd imm18) s c →
      Does (.movi b rd imm18) b s c (x.setD rd (BitVec.ofInt 32 imm18.toInt))) ∧
    (Ready b (.movhi rd imm) s c →
      Does (.movhi b rd imm) b s c (x.setD rd (imm ++ (x.rd rd).extractLsb' 0 18)))

/-- R565, R568, R563, R148, R86: the compares and `mtp` fill all 2,048 bits of a predicate with their truth
value, and nothing else; a write of p0 is ignored and p0 reads as all ones. -/
def Obligations.PredicateRows : Prop :=
  ∀ (b : Issue) (s : State) (c : CtxId) (pd : BitVec 3) (rs1 rs2 : BitVec 5) (as1 as2 : BitVec 4),
    let x := s.ctx (s.tileOf b.core) c
    let u := x.rd rs1
    let v := x.rd rs2
    let m := x.ra as1
    let n := x.ra as2
    let truth (q : Prop) [Decidable q] : Ctx :=
      if pd = 0 then x
      else { x with p := x.p.set pd.toNat (if q then BitVec.allOnes 2048 else 0) pd.isLt }
    x.rp 0 = BitVec.allOnes 2048 ∧
    (Ready b (.cmp .eq pd rs1 rs2) s c → Does (.cmpeq b pd rs1 rs2) b s c (truth (u = v))) ∧
    (Ready b (.cmp .ne pd rs1 rs2) s c → Does (.cmpne b pd rs1 rs2) b s c (truth (u ≠ v))) ∧
    (Ready b (.cmp .lt pd rs1 rs2) s c →
      Does (.cmplt b pd rs1 rs2) b s c (truth (u.toInt < v.toInt))) ∧
    (Ready b (.cmp .ltu pd rs1 rs2) s c →
      Does (.cmpltu b pd rs1 rs2) b s c (truth (u.toNat < v.toNat))) ∧
    (Ready b (.cmp .le pd rs1 rs2) s c →
      Does (.cmple b pd rs1 rs2) b s c (truth (u.toInt ≤ v.toInt))) ∧
    (Ready b (.cmp .leu pd rs1 rs2) s c →
      Does (.cmpleu b pd rs1 rs2) b s c (truth (u.toNat ≤ v.toNat))) ∧
    (Ready b (.cmpa .eq pd as1 as2) s c → Does (.cmpaEq b pd as1 as2) b s c (truth (m = n))) ∧
    (Ready b (.cmpa .lt pd as1 as2) s c →
      Does (.cmpaLt b pd as1 as2) b s c (truth (m.toNat < n.toNat))) ∧
    (Ready b (.cmpa .le pd as1 as2) s c →
      Does (.cmpaLe b pd as1 as2) b s c (truth (m.toNat ≤ n.toNat))) ∧
    (Ready b (.mtp pd rs1) s c → Does (.mtp b pd rs1) b s c (truth (u.getLsbD 0 = true)))

/-- R567, R163: the multiplies write a data register and the multiply-accumulates an accumulator, modulo
2^40; `mov.acc` and `mov.accu` round and saturate. Nothing else changes. -/
def Obligations.MultiplyRows : Prop :=
  ∀ (b : Issue) (s : State) (c : CtxId) (rd rs1 rs2 n : BitVec 5) (k : BitVec 3),
    let x := s.ctx (s.tileOf b.core) c
    let u := x.rd rs1
    let v := x.rd rs2
    let acc := x.racc k
    (Ready b (.mul .mul rd rs1 rs2) s c →
      Does (.mul b rd rs1 rs2) b s c (x.setD rd (BitVec.ofNat 32 (u.toNat * v.toNat)))) ∧
    (Ready b (.mul .mulh rd rs1 rs2) s c → Does (.mulh b rd rs1 rs2) b s c
      (x.setD rd ((u.signExtend 64 * v.signExtend 64).extractLsb' 32 32))) ∧
    (Ready b (.mul .mulhu rd rs1 rs2) s c → Does (.mulhu b rd rs1 rs2) b s c
      (x.setD rd ((u.setWidth 64 * v.setWidth 64).extractLsb' 32 32))) ∧
    (Ready b (.mac .mac k rs1 rs2) s c → Does (.mac b k rs1 rs2) b s c
      (x.setAcc k (acc + u.signExtend 40 * v.signExtend 40))) ∧
    (Ready b (.mac .macu k rs1 rs2) s c → Does (.macu b k rs1 rs2) b s c
      (x.setAcc k (acc + u.setWidth 40 * v.setWidth 40))) ∧
    (Ready b (.mac .msu k rs1 rs2) s c → Does (.msu b k rs1 rs2) b s c
      (x.setAcc k (acc - u.signExtend 40 * v.signExtend 40))) ∧
    (Ready b (.clrAcc k) s c → Does (.clrAcc b k) b s c (x.setAcc k 0)) ∧
    (Ready b (.movAccFrom k rs1 n) s c → Does (.movAccFromData b k rs1 n) b s c
      (x.setAcc k (BitVec.ofInt 40 (u.toInt * 2 ^ n.toNat)))) ∧
    (Ready b (.movAcc false rd k n) s c → Does (.movAcc b rd k n) b s c
      (x.setD rd (satS 32 (cround acc.toInt n.toNat)))) ∧
    (Ready b (.movAcc true rd k n) s c → Does (.movAccu b rd k n) b s c
      (x.setD rd (satU 32 (cround acc.toInt n.toNat))))

/-- R568: the address rows write one address register with their result, modulo 2^32, and nothing
else. -/
def Obligations.AddressRows : Prop :=
  ∀ (b : Issue) (s : State) (c : CtxId) (ad as1 : BitVec 4) (rs : BitVec 5) (imm : BitVec 14),
    let x := s.ctx (s.tileOf b.core) c
    let u := x.ra as1
    let v := x.rd rs
    (Ready b (.adda ad as1 rs) s c →
      Does (.adda b ad as1 (.inl rs)) b s c (x.setA ad (BitVec.ofNat 32 (u.toNat + v.toNat)))) ∧
    (Ready b (.addaImm ad as1 imm) s c →
      Does (.adda b ad as1 (.inr imm)) b s c (x.setA ad (BitVec.ofInt 32 (u.toInt + imm.toInt)))) ∧
    (Ready b (.suba ad as1 rs) s c →
      Does (.suba b ad as1 rs) b s c (x.setA ad (BitVec.ofInt 32 (u.toInt - v.toInt)))) ∧
    (Ready b (.movaD ad rs) s c → Does (.mova b ad (.inl rs)) b s c (x.setA ad v)) ∧
    (Ready b (.movaA ad as1) s c → Does (.mova b ad (.inr as1)) b s c (x.setA ad u))

/-! ### Scalar memory accesses -/

/-- The row of a scalar load, by width. -/
def Claims.ld (size : MemSize) (b : Issue) (rd : BitVec 5) (m : MemAddr) : Instr :=
  match size with
  | .byte => .ldBu b rd m
  | .half => .ldH b rd m
  | .word => .ldW b rd m

/-- The row of a scalar store, by width. -/
def Claims.st (size : MemSize) (b : Issue) (rs : BitVec 5) (m : MemAddr) : Instr :=
  match size with
  | .byte => .stB b rs m
  | .half => .stH b rs m
  | .word => .stW b rs m

/-- R101: the address that each addressing mode uses, and the base update it makes. -/
def Obligations.AddressingModes : Prop :=
  ∀ (x : Ctx) (ab : BitVec 4) (off : BitVec 12) (dx : BitVec 5) (size : MemSize),
    let base := x.ra ab
    let idx := x.rd dx
    let sx : Word := BitVec.ofInt 32 off.toInt
    let zx : Word := BitVec.ofNat 32 off.toNat
    let n := MemSize.bytes size
    x.lm ⟨0, ab, off, dx⟩ size = (base + sx, none) ∧
    x.lm ⟨1, ab, off, dx⟩ size = (base + idx, none) ∧
    x.lm ⟨4, ab, off, dx⟩ size = (base, some (base + sx)) ∧
    x.lm ⟨5, ab, off, dx⟩ size = (base, some (base + idx)) ∧
    x.lm ⟨6, ab, off, dx⟩ size = (base - zx, some (base - zx)) ∧
    x.lm ⟨7, ab, off, dx⟩ size = (base + BitVec.ofNat 32 (idx.toNat * n), none)

/-- R569, R103, R131: a load from the core's own scratchpad writes its register with what the store buffer
holds of all its bytes, or with what the banks hold where the buffer holds none of them, extended as its
row says, and updates its base; nothing else changes. Where the buffer holds some of the bytes, the load
waits. -/
def Obligations.LocalLoadRows : Prop :=
  ∀ (size : MemSize) (b : Issue) (s : State) (c : CtxId) (rd : BitVec 5) (m : MemAddr) (a : Nat),
    let t := s.tileOf b.core
    let k := s.core t
    let x := s.ctx t c
    let n := MemSize.bytes size
    let at_ := (x.lm m size).1
    let held (i : Nat) := k.sbByte (a + i)
    let value (bs : List Byte) : Word := match size with
      | .byte => (leVal 8 bs).setWidth 32
      | .half => (leVal 16 bs).signExtend 32
      | .word => leVal 32 bs
    Ready b (.load size rd m) s c → at_.toNat % n = 0 → target b.core at_ = some (.loc a) →
    k.paused a (s.rmapBank t) = false →
      ((∀ i, i < n → held i = none) → (∀ i, i < n → k.marked (a + i) = false) →
        Does (Claims.ld size b rd m) b s c ((x.upd m.ab (x.lm m size).2).setD rd
          (value ((List.range n).map fun i => Tab.get 0 k.mem (a + i))))) ∧
      (∀ bs : List Byte, bs.length = n → (∀ i, i < n → held i = some (bs.getD i 0)) →
        Does (Claims.ld size b rd m) b s c
          ((x.upd m.ab (x.lm m size).2).setD rd (value bs))) ∧
      ((∃ i, i < n ∧ held i ≠ none) → (∃ i, i < n ∧ held i = none) →
        Waits (Claims.ld size b rd m) b s c)

/-- R130, R569: a store to the core's own scratchpad enters the low bytes of its register into the store
buffer and updates its base. Every other address finds in the buffer what it found before, and the memories
and everything else are as they were. -/
def Obligations.LocalStoreRows : Prop :=
  ∀ (size : MemSize) (b : Issue) (s : State) (c : CtxId) (rs : BitVec 5) (m : MemAddr) (a : Nat),
    let t := s.tileOf b.core
    let x := s.ctx t c
    let n := MemSize.bytes size
    let at_ := (x.lm m size).1
    Ready b (.store size rs m) s c → at_.toNat % n = 0 → target b.core at_ = some (.loc a) →
    (s.core t).paused a (s.rmapBank t) = false →
      ∃ s', exec (Claims.st size b rs m) s = .next s' ∧
        Retired b s s' c (x.pc + 4) (x.upd m.ab (x.lm m size).2) ∧
        (∀ i, i < n → (s'.core t).sbByte (a + i) = some ((x.rd rs).extractLsb' (8 * i) 8)) ∧
        (∀ a', a' < a ∨ a + n ≤ a' → (s'.core t).sbByte a' = (s.core t).sbByte a') ∧
        (∃ q btb resume tm, s'.core t = { s.core t with
          ctxs := (s'.core t).ctxs, sb := (s'.core t).sb, quantum := q, btb := btb, resume := resume, timers := tm }) ∧
        (∀ u, u ≠ t → s'.core u = s.core u) ∧ (∀ d, d ≠ c → s'.ctx t d = s.ctx t d) ∧
        s' = { s with cores := s'.cores, pages := s'.pages, host := s'.host } ∧ OnlyCounts s s' t

/-- R92, R93, R133: a load or store of another core's scratchpad puts one request on the mesh behind those
sent before, updates its base, and leaves every memory as it is; a load enters its load record, a store is
counted until it is acknowledged. -/
def Obligations.RemoteAccessRows : Prop :=
  ∀ (size : MemSize) (b : Issue) (s : State) (c : CtxId) (r : BitVec 5) (m : MemAddr) (n : LCore)
      (a : Nat),
    let t := s.tileOf b.core
    let k := s.core t
    let x := s.ctx t c
    let len := MemSize.bytes size
    let at_ := (x.lm m size).1
    let y := x.upd m.ab (x.lm m size).2
    at_.toNat % len = 0 → target b.core at_ = some (.remote n a) →
      (Ready b (.load size r m) s c → ∃ s', exec (Claims.ld size b r m) s = .next s' ∧
        Retired b s s' c (x.pc + 4) y ∧
        s'.board = { s.board with mesh := s.board.mesh ++
          [⟨b.core, .ctx c, x.func, n, .read k.loadId 0 a len []⟩] } ∧
        (s'.core t).loads = k.loads ++
          [⟨k.loadId, c, .data r size, [(0, false)], x.pc.setWidth 20, at_, none⟩] ∧
        (∀ u, (s'.core u).mem = (s.core u).mem ∧ (s'.core u).sb = (s.core u).sb) ∧
        s' = { s with cores := s'.cores, pages := s'.pages, host := s'.host, board := s'.board }) ∧
      (Ready b (.store size r m) s c → ∃ s', exec (Claims.st size b r m) s = .next s' ∧
        Retired b s s' c (x.pc + 4) { y with stores := x.stores + 1 } ∧
        s'.board = { s.board with mesh := s.board.mesh ++
          [⟨b.core, .ctx c, x.func, n, .write a
            ((List.range len).map fun i => some ((x.rd r).extractLsb' (8 * i) 8)) at_⟩] } ∧
        (∀ u, (s'.core u).mem = (s.core u).mem ∧ (s'.core u).sb = (s.core u).sb ∧
          (s'.core u).loads = (s.core u).loads) ∧
        s' = { s with cores := s'.cores, pages := s'.pages, host := s'.host, board := s'.board })

/-- R94, R95, R135: an HBM load or store goes through its window and its partition's translation unit. What
the unit translates is queued at the memory; a load it refuses raises HBM_XLATE, and a store it refuses
becomes the context's deferred fault. A window with EN 0 raises DADDR. No memory changes. -/
def Obligations.HbmAccessRows : Prop :=
  ∀ (size : MemSize) (b : Issue) (s : State) (c : CtxId) (r : BitVec 5) (m : MemAddr) (w : Fin 8)
      (off : Nat),
    let t := s.tileOf b.core
    let x := s.ctx t c
    let len := MemSize.bytes size
    let at_ := (x.lm m size).1
    let y := x.upd m.ab (x.lm m size).2
    let kept (s' : State) : Prop := s'.hbm.mem = s.hbm.mem ∧ s'.board = s.board ∧
      ∀ u, (s'.core u).mem = (s.core u).mem ∧ (s'.core u).sb = (s.core u).sb
    at_.toNat % len = 0 → target b.core at_ = some (.hbm w off) →
      (x.windowDva w off = none → x.exl = false →
        (Ready b (.load size r m) s c → Raises (Claims.ld size b r m) b s c 0x05 at_ y) ∧
        (Ready b (.store size r m) s c → Raises (Claims.st size b r m) b s c 0x05 at_ y)) ∧
      (∀ dva dpa, x.windowDva w off = some dva →
        (Ready b (.load size r m) s c →
          (s.xlate (s.tilePart t) x.func dva .core false 0).1 = .ok dpa →
          ∃ s' part, exec (Claims.ld size b r m) s = .next s' ∧
            Retired b s s' c (x.pc + 4) y ∧ kept s' ∧
            s'.hbm.queue = s.hbm.queue ++
              [⟨.load b.core c (s.core t).loadId 0, x.func, dpa, len, none, part, false⟩] ∧
            (s'.core t).loads = (s.core t).loads ++
              [⟨(s.core t).loadId, c, .data r size, [(0, true)], x.pc.setWidth 20, at_, none⟩]) ∧
        (Ready b (.store size r m) s c →
          (s.xlate (s.tilePart t) x.func dva .core true 0).1 = .ok dpa →
          ∃ s' part, exec (Claims.st size b r m) s = .next s' ∧
            Retired b s s' c (x.pc + 4) { y with stores := x.stores + 1 } ∧ kept s' ∧
            s'.hbm.queue = s.hbm.queue ++ [⟨.store b.core c, x.func, dpa, len,
              some ((List.range len).map fun i => some ((x.rd r).extractLsb' (8 * i) 8)), part,
              false⟩])) ∧
      (∀ dva cause, x.windowDva w off = some dva →
        (Ready b (.load size r m) s c → x.exl = false →
          (s.xlate (s.tilePart t) x.func dva .core false 0).1 = .refused cause →
          ∃ s', exec (Claims.ld size b r m) s = .next s' ∧
            s'.ctx t c = Ctx.enter { y with cycles := y.cycles + 1 } 0x0D at_ false (x.pc.setWidth 20) ∧ kept s' ∧
            s'.hbm.queue = s.hbm.queue) ∧
        (Ready b (.store size r m) s c → x.deferred = none →
          (s.xlate (s.tilePart t) x.func dva .core true 0).1 = .refused cause →
          ∃ s', exec (Claims.st size b r m) s = .next s' ∧
            Retired b s s' c (x.pc + 4) { y with deferred := some ⟨0x0D, at_, none⟩ } ∧ kept s' ∧
            s'.hbm.queue = s.hbm.queue))

/-- R103, R95: a scalar access whose address is not a multiple of its width raises DALIGN, and one that
R91 maps nowhere raises DADDR; the base is updated all the same (R102), and no memory and no buffer
changes.
That an access both misaligned and unmapped raises DALIGN is the model's reading (log entry 18, DEDUCED). -/
def Obligations.ScalarAccessTraps : Prop :=
  ∀ (size : MemSize) (b : Issue) (s : State) (c : CtxId) (r : BitVec 5) (m : MemAddr),
    let x := s.ctx (s.tileOf b.core) c
    let at_ := (x.lm m size).1
    let y := x.upd m.ab (x.lm m size).2
    x.exl = false →
      (at_.toNat % MemSize.bytes size ≠ 0 →
        (Ready b (.load size r m) s c → Raises (Claims.ld size b r m) b s c 0x06 at_ y) ∧
        (Ready b (.store size r m) s c → Raises (Claims.st size b r m) b s c 0x06 at_ y)) ∧
      (at_.toNat % MemSize.bytes size = 0 → target b.core at_ = none →
        (Ready b (.load size r m) s c → Raises (Claims.ld size b r m) b s c 0x05 at_ y) ∧
        (Ready b (.store size r m) s c → Raises (Claims.st size b r m) b s c 0x05 at_ y))

/-- The row of a tagged access. -/
def Claims.tag (fn : TagFn) (b : Issue) (size : MemSize) (r : BitVec 5) (m : TagAddr) : Instr :=
  match fn with
  | .peek => .ldPeek b size r m
  | .take => .ldTake b size r m
  | .stT => .stT b size r m
  | .put => .stPut b size r m

/-- R131, R301 to R303: a tagged access of the core's own scratchpad is performed at once where its slot allows
it and no waiter that its slot lets pass comes first. A load writes its register, zero-extended, with what the
store buffer holds of all its bytes or else with what the bank holds; `ld.take` leaves its slot EMPTY. A store
writes the bank; `st.put` leaves its slot FULL. Every other byte and every other tag stays. Where the slot does not
allow it the context is BLOCKED with code 3 behind those that wait, and no register, byte or tag changes. A load
some of whose bytes the buffer holds waits.
That an access which waits is sent again, and that waiters pass in the order in which they began, is the
model's (log entries 11, DESIGN CHOICE, and 37, DEDUCED). -/
def Obligations.TaggedRows : Prop :=
  ∀ (fn : TagFn) (size : MemSize) (b : Issue) (s : State) (c : CtxId) (r : BitVec 5) (m : TagAddr)
      (a : Nat),
    let t := s.tileOf b.core
    let k := s.core t
    let x := s.ctx t c
    let n := MemSize.bytes size
    let q := x.tm m size
    let y := x.upd m.ab q.2
    let slot := slotOf a
    let store := fn = .stT ∨ fn = .put
    Ready b (.tagged fn size r m) s c → q.1.toNat % n = 0 → target b.core q.1 = some (.loc a) →
    k.paused a (s.rmapBank t) = false → x.deferred = none → k.marked a = false →
    (store → k.sbOwn c = false) →
      (¬ store → (∃ i, i < n ∧ k.sbByte (a + i) ≠ none) → (∃ i, i < n ∧ k.sbByte (a + i) = none) →
        Waits (Claims.tag fn b size r m) b s c) ∧
      ((k.tagged slot = true → (k.full slot = true ↔ ¬ store)) → k.contested b.core slot = false →
        ∀ bs : List Byte, bs.length = n →
        (¬ store → (∀ i, i < n → k.sbByte (a + i) = none) ∧ bs = k.bytes a n ∨
          ∀ i, i < n → k.sbByte (a + i) = some (bs.getD i 0)) →
        ∃ s', exec (Claims.tag fn b size r m) s = .next s' ∧
          Retired b s s' c (x.pc + 4) (if store then y else
            y.setD r (BitVec.ofNat 32 (ofLe bs))) ∧
          (store → ∀ i, i < n → (s'.core t).byte (a + i) = (x.rd r).extractLsb' (8 * i) 8) ∧
          (∀ a', ¬ store ∨ a' < a ∨ a + n ≤ a' → (s'.core t).byte a' = k.byte a') ∧
          (∀ p, (s'.core t).full p = if p = slot ∧ k.tagged slot = true then
              (match fn with
                | .peek | .stT => k.full p
                | .take => false
                | .put => true)
            else k.full p) ∧
          (s'.core t).sb = k.sb ∧ s'.hbm = s.hbm ∧ s'.board = s.board ∧
          ∀ u, u ≠ t → s'.core u = s.core u) ∧
      (k.tagged slot = true → (k.full slot = true ↔ store) ∨ k.contested b.core slot = true →
        (¬ store → ∀ i, i < n → k.sbByte (a + i) = none) →
        ∃ s' acc, exec (Claims.tag fn b size r m) s = .next s' ∧
          s'.ctx t c = { x with run := .blocked, block := 3, wait := .tag 0 acc s.time } ∧
          (s'.core t).waiters = k.waiters.filter (fun w => w != (b.core, .ctx c)) ++ [(b.core, .ctx c)] ∧
          (s'.core t).mem = k.mem ∧ (s'.core t).tags = k.tags ∧ (s'.core t).sb = k.sb ∧
          s'.hbm = s.hbm ∧ s'.board = s.board ∧ ∀ u, u ≠ t → s'.core u = s.core u)

/-! ### Control, IO and system rows -/

/-- R109, R118 to R120, R123, R570: `br`, `call`, `ret` and `loop` complete, with every operand. A branch whose
condition holds goes to its word-offset target and leaves the loops that target lies outside; `call` also writes the
next bundle's address to a14; where the condition fails the next bundle follows. `ret` goes to a14. `loop` with a
body of at least 2 bundles and a count of at most 65,535 writes its set: a count above 0 arms it and the next bundle
follows, a count of 0 leaves it clear and goes to the bundle after the one at the body's end. A larger count, or a shorter
body, raises LOOP, with no effect.
That a count of 0 writes the set and leaves LOOPACT clear, and that `ret` counts as a taken branch, is the
model's reading (log entry 18, DEDUCED). -/
def Obligations.BranchRows : Prop :=
  ∀ (b : Issue) (s : State) (c : CtxId) (p : BitVec 3) (neg : Bool) (soff : BitVec 20) (k : BitVec 2)
      (count : LoopCount) (endOff : BitVec 17),
    let t := s.tileOf b.core
    let x := s.ctx t c
    let target : Word := x.pc + BitVec.ofInt 32 (4 * soff.toInt)
    let taken : Bool := bit (x.rp p) 0 ^^ neg
    let n : Nat := match count with
      | .imm v => v.toNat
      | .reg d => (x.rd d).toNat
    let le : Word := x.pc + 4 * endOff.setWidth 32
    (Ready b (.br p neg soff) s c → ∃ s', exec (.br b p neg soff) s = .next s' ∧ Elsewhere s s' t c ∧
      Retired b s s' c (if taken then target else x.pc + 4) (if taken then x.leaveLoops target else x)) ∧
    (Ready b (.call p neg soff) s c → ∃ s', exec (.call b p neg soff) s = .next s' ∧ Elsewhere s s' t c ∧
      Retired b s s' c (if taken then target else x.pc + 4) (if taken then x.setA 14 (x.pc + 4) else x)) ∧
    (Ready b .ret s c → ∃ s', exec (.ret b) s = .next s' ∧ Elsewhere s s' t c ∧
      Retired b s s' c (x.ra 14) (x.leaveLoops (x.ra 14))) ∧
    (Ready b (.loop k count endOff) s c → 2 ≤ endOff.toNat → n ≤ 65535 →
      ∃ s', exec (.loop b k count endOff) s = .next s' ∧ Elsewhere s s' t c ∧
        Retired b s s' c (if n = 0 then le + BitVec.ofNat 32 (4 * s.bundleLen t le.toNat) else x.pc + 4)
          { x.setLoopAct k.toNat (decide (n ≠ 0)) with
            loops := x.loops.set k.toNat
              ⟨(x.pc + 4).setWidth 20, le.setWidth 20, BitVec.ofNat 16 n⟩ k.isLt }) ∧
    (Ready b (.loop k count endOff) s c → 65535 < n ∨ endOff.toNat ≤ 1 → x.exl = false →
      Raises (.loop b k count endOff) b s c 0x0B 0 x)

/-- R121: at the last bundle of a body, the highest active set that ends there decides: with a count
above 1 it counts down and the next bundle is the body's first; with the last count used up its LOOPACT
clears and, where no other active set ends there, the next bundle follows in line.
That the next lower set is looked at in the same step is the model's reading (log entry 18, DEDUCED). -/
def Obligations.LoopEnd : Prop :=
  ∀ (b : Issue) (s : State) (c : CtxId) (k : Fin 4),
    let t := s.tileOf b.core
    let x := s.ctx t c
    let l := x.loops.get k
    let ends (j : Fin 4) : Prop := x.loopAct j.val = true ∧ (x.loops.get j).le = x.pc.setWidth 20
    Stands b .nop s c → x.overlap = false → ends k → (∀ j, k < j → ¬ ends j) →
      (1 < l.lc.toNat → ∃ s', exec (.nop b) s = .next s' ∧ Elsewhere s s' t c ∧
        Retired b s s' c (l.ls.setWidth 32)
          { x with loops := x.loops.set k.val { l with lc := BitVec.ofNat 16 (l.lc.toNat - 1) } k.isLt }) ∧
      (l.lc.toNat ≤ 1 → (∀ j, j < k → ¬ ends j) → ∃ s', exec (.nop b) s = .next s' ∧
        Elsewhere s s' t c ∧ Retired b s s' c (x.pc + 4) (x.setLoopAct k.val false))

/-- R77, R78, R108, R128, R132, R135: `nop` does nothing. `yield` makes its context READY and the next
READY one in turn RUNNING. `fence.sp` waits until the store buffer is empty and `fence.rm` until the
context's remote and HBM stores are acknowledged; then each goes on. `ifl` empties the fetch buffer, the
BTB and the other contexts' resume lines. -/
def Obligations.ControlRows : Prop :=
  ∀ (b : Issue) (s : State) (c : CtxId),
    let t := s.tileOf b.core
    let x := s.ctx t c
    let k := s.core t
    (Ready b .nop s c → Does (.nop b) b s c x) ∧
    (Ready b .fenceSp s c → (k.sb = [] → Does (.fenceSp b) b s c x) ∧
      (k.sb ≠ [] → Waits (.fenceSp b) b s c)) ∧
    (Ready b .fenceRm s c → x.deferred = none → (x.stores = 0 → Does (.fenceRm b) b s c x) ∧
      (x.stores ≠ 0 → Waits (.fenceRm b) b s c)) ∧
    (Ready b .ifl s c → ∃ s', exec (.ifl b) s = .next s' ∧ Retired b s s' c (x.pc + 4) x ∧
      (s'.core t).fetchBuf = [] ∧ (s'.core t).btb = [] ∧
      (∀ d, d ≠ c → (s'.core t).resume.get d = none) ∧ (s'.core t).mem = k.mem ∧
      (∀ d, d ≠ c → s'.ctx t d = s.ctx t d) ∧ (∀ u, u ≠ t → s'.core u = s.core u)) ∧
    (Ready b .yield s c → (∀ d, d ≠ c → (s.ctx t d).run ≠ .ready ∧ (s.ctx t d).run ≠ .running) →
      ∃ s', exec (.yield b) s = .next s' ∧ (s'.ctx t c).run = .running ∧
        (s'.ctx t c).pc = x.pc + 4 ∧ ∀ d, d ≠ c → s'.ctx t d = s.ctx t d) ∧
    (Ready b .yield s c → (∀ d, d ≠ c → (s.ctx t d).run ≠ .running) → k.last = c →
      ∀ d, d = c + 1 → (s.ctx t d).run = .ready →
      ∃ s', exec (.yield b) s = .next s' ∧ (s'.ctx t c).run = .ready ∧
        (s'.ctx t c).pc = x.pc + 4 ∧ s'.ctx t d = { s.ctx t d with run := .running } ∧
        ∀ e, e ≠ c → e ≠ d → s'.ctx t e = s.ctx t e)

/-- R88, R89, R571: `mfsr` reads each system register into its data register, and nothing else. -/
def Obligations.SystemRegisterReads : Prop :=
  ∀ (b : Issue) (s : State) (c : CtxId) (rd : BitVec 5),
    let x := s.ctx (s.tileOf b.core) c
    let l := x.loops.get x.lsel.toFin
    let reads (sr : BitVec 5) (v : Word) : Prop :=
      Ready b (.mfsr rd sr) s c → Does (.mfsr b rd sr) b s c (x.setD rd v)
    reads 0 (BitVec.ofNat 32 (c.val + 4 * b.core.val + 128 * x.func.val)) ∧
    reads 1 x.status ∧ reads 2 (x.epc.setWidth 32) ∧ reads 3 (x.ecause.setWidth 32) ∧
    reads 4 x.eaddr ∧ reads 5 (x.excbase.setWidth 32) ∧ reads 6 (x.jobentry.setWidth 32) ∧
    reads 7 x.kstack ∧ reads 8 x.velem ∧ reads 9 (l.ls.setWidth 32) ∧ reads 10 (l.le.setWidth 32) ∧
    reads 11 (l.lc.setWidth 32) ∧ reads 12 (x.lsel.setWidth 32) ∧
    ∀ sr : BitVec 5, 13 ≤ sr.toNat → reads sr 0

/-- R88, R571: `mtsr` writes each system register that is writable, at its width, and nothing else;
CTXID keeps its value. That STATUS.PRIV keeps its value is the model's reading (log entry 3). -/
def Obligations.SystemRegisterWrites : Prop :=
  ∀ (b : Issue) (s : State) (c : CtxId) (rs : BitVec 5),
    let x := s.ctx (s.tileOf b.core) c
    let v := x.rd rs
    let writes (sr : BitVec 5) (y : Ctx) : Prop :=
      Ready b (.mtsr sr rs) s c → Does (.mtsr b sr rs) b s c y
    let set (f : LoopSet → LoopSet) : Ctx :=
      { x with loops := x.loops.set x.lsel.toNat (f (x.loops.get x.lsel.toFin)) x.lsel.isLt }
    writes 0 x ∧ writes 2 { x with epc := v.setWidth 20 } ∧ writes 3 { x with ecause := v.setWidth 9 } ∧
    writes 4 { x with eaddr := v } ∧ writes 7 { x with kstack := v } ∧
    writes 5 { x with excbase := BitVec.ofNat 20 (v.toNat / 64 * 64) } ∧
    writes 6 { x with jobentry := BitVec.ofNat 20 (v.toNat / 64 * 64) } ∧
    writes 12 { x with lsel := v.setWidth 2 } ∧
    writes 8 { x with velem := v &&& 0x00FF7FFF } ∧
    ((set fun l => { l with ls := v.setWidth 20 }).endLoop (x.pc.setWidth 20) = none →
      writes 9 (set fun l => { l with ls := v.setWidth 20 })) ∧
    ((set fun l => { l with le := v.setWidth 20 }).endLoop (x.pc.setWidth 20) = none →
      writes 10 (set fun l => { l with le := v.setWidth 20 })) ∧
    ((set fun l => { l with lc := v.setWidth 16 }).endLoop (x.pc.setWidth 20) = none →
      writes 11 (set fun l => { l with lc := v.setWidth 16 })) ∧
    (let y := { x with status := (v &&& 0xFE) ||| (x.status &&& 1) }
     y.endLoop (x.pc.setWidth 20) = none → writes 1 y)

/-- R84, R181, R571, R572: `irq.on` and `irq.off` set and clear STATUS.IE. `eret` restores PRIV from
PPRIV, clears EXL and goes to EPC, and arms a vector access that may be resumed. `ctx.reset` clears the registers that R572 lists and keeps a15 and the
other system registers. -/
def Claims.systemLevel : Prop :=
  ∀ (b : Issue) (s : State) (c : CtxId),
    let t := s.tileOf b.core
    let x := s.ctx t c
    (Ready b .irqOn s c → Does (.irqOn b) b s c { x with status := x.status ||| 8 }) ∧
    (Ready b .irqOff s c → Does (.irqOff b) b s c { x with status := x.status &&& ~~~(8 : Word) }) ∧
    (Ready b .eret s c → x.deferred = none →
      ∃ s' y, exec (.eret b) s = .next s' ∧ Elsewhere s s' t c ∧
        Retired b s s' c (x.epc.setWidth 32)
          { x with
            status := y
            resuming := x.velem.getLsbD 12 && x.velem.getLsbD 13
            velem := if x.velem.getLsbD 12 && !x.velem.getLsbD 13 then
              x.velem &&& ~~~(0x1000 : Word) else x.velem } ∧
        y.getLsbD 0 = x.status.getLsbD 1 ∧ y.getLsbD 2 = false ∧
        ∀ i, i ≠ 0 → i ≠ 2 → y.getLsbD i = x.status.getLsbD i) ∧
    (Ready b .ctxReset s c → ∃ s' y, exec (.ctxReset b) s = .next s' ∧ Elsewhere s s' t c ∧
      Retired b s s' c (x.pc + 4) y ∧
      (∀ r, y.ra r = if r = 15 then x.ra 15 else 0) ∧ (∀ r, y.rd r = 0) ∧ (∀ r, y.racc r = 0) ∧
      (∀ r, y.vreg r = 0) ∧ (∀ r, y.vareg r = 0) ∧ (∀ r, r ≠ 0 → y.rp r = 0) ∧
      (∀ k, y.loops.get k = {} ∧ y.loopAct k.val = false) ∧ (∀ r, y.wr.get r = 0) ∧
      (∀ k i, y.lutAt k i = 0) ∧ (∀ w, y.hbmWin.get w = 0) ∧ y.velem = 0 ∧ y.trkLatch = [] ∧
      y.vl = 0 ∧ y.sew = 0 ∧ y.grp = 0 ∧ y.epc = x.epc ∧ y.ecause = x.ecause ∧ y.eaddr = x.eaddr ∧
      y.excbase = x.excbase ∧ y.jobentry = x.jobentry ∧ y.kstack = x.kstack ∧ y.func = x.func ∧
      y.priv = x.priv ∧ y.exl = x.exl ∧ y.ie = x.ie)

/-- R306, R300: `tagmode` on a tag region. Mode 0 makes its slots raw. Modes 1 and 2 make a region that
lies in one memory and meets no other tagged region tagged, every slot of it EMPTY or FULL. It waits while
the store buffer holds a store of its context; every other slot keeps its tag, and the memories stay. -/
def Claims.tagmode : Prop :=
  ∀ (b : Issue) (s : State) (c : CtxId) (rs : BitVec 5) (mode : BitVec 14),
    let t := s.tileOf b.core
    let k := s.core t
    let x := s.ctx t c
    let i := (x.rd rs).toNat % 16
    let g := k.treg i
    let inside (p : Nat) : Prop := g.first.toNat ≤ p ∧ p < g.first.toNat + g.count.toNat
    Ready b (.tagmode rs mode) s c →
      (k.sbOwn c = true → Waits (.tagmode b rs mode) b s c) ∧
      (k.sbOwn c = false →
        (mode = 0 → ∃ s', exec (.tagmode b rs mode) s = .next s' ∧ Retired b s s' c (x.pc + 4) x ∧
          (s'.core t).treg i = { g with tagged := false } ∧ (s'.core t).tags = k.tags ∧
          (s'.core t).mem = k.mem) ∧
        (mode = 1 ∨ mode = 2 → k.tagCode i = 0 →
          ∃ s', exec (.tagmode b rs mode) s = .next s' ∧ Retired b s s' c (x.pc + 4) x ∧
            (s'.core t).treg i = { g with tagged := true } ∧
            (∀ p, (s'.core t).full p = if inside p then decide (mode = 2) else k.full p) ∧
            (s'.core t).mem = k.mem) ∧
        (mode = 1 ∨ mode = 2 → k.tagCode i ≠ 0 →
          ∃ s', exec (.tagmode b rs mode) s = .next s' ∧ Retired b s s' c (x.pc + 4) x ∧
            (s'.core t).setup = k.tagCode i ∧ (s'.core t).tregs = k.tregs ∧
            (s'.core t).tags = k.tags))

/-- R84, R181, R300, R306, R571, R572: the rows of the system family that write no general register:
`irq.on`, `irq.off`, `eret`, `ctx.reset` and `tagmode`.
That a `tagmode` which waits keeps its address and is sent again is the model's choice of form (log entry 11). -/
def Obligations.SystemRows : Prop := Claims.systemLevel ∧ Claims.tagmode

/-- R107, R88, R136: a privileged instruction at user level raises PRIV and has no other effect, whatever
its operands; so `out` raises it at an address of the privileged half of the IO space (R98). -/
def Obligations.PrivilegedAtUserLevel : Prop :=
  ∀ (b : Issue) (s : State) (c : CtxId) (rd rs sr : BitVec 5) (io : BitVec 12) (mode : BitVec 14),
    let x := s.ctx (s.tileOf b.core) c
    -- the operation would stand ready at system level
    let stands (o : Op) : Prop :=
      Stands b o (s.modCtx (s.tileOf b.core) c fun y => { y with status := y.status ||| 1 }) c
    x.priv = false → x.exl = false → mode.toNat ≤ 2 →
      (stands (.outp rs io) → Raises (.outP b rs io) b s c 0x03 0 x) ∧
      (stands (.mfsr rd sr) → Raises (.mfsr b rd sr) b s c 0x03 0 x) ∧
      (stands (.mtsr sr rs) → Raises (.mtsr b sr rs) b s c 0x03 0 x) ∧
      (stands (.tagmode rs mode) → Raises (.tagmode b rs mode) b s c 0x03 0 x) ∧
      (stands .eret → Raises (.eret b) b s c 0x03 0 x) ∧
      (stands .ctxReset → Raises (.ctxReset b) b s c 0x03 0 x) ∧
      (stands .irqOn → Raises (.irqOn b) b s c 0x03 0 x) ∧
      (stands .irqOff → Raises (.irqOff b) b s c 0x03 0 x) ∧
      (∀ m : MemAddr, Stands b (.out rs m) s c → 0x800 ≤ (x.lm m .word).1.toNat →
        (x.lm m .word).1.toNat < 0x1000 → Raises (.out b rs m) b s c 0x03 0 x)

/-- R83, R85: taking an exception with EXL clear saves the bundle's address in EPC, the cause in ECAUSE and
the address in EADDR, saves PRIV in PPRIV, sets PRIV and EXL, and goes to EXCBASE. With EXL set the
context is HALTED, records cause and address, and raises its interrupt bit on the CORE page.
That EXL alone decides, whatever PRIV holds, is the model's reading (log entry 20, DEDUCED). -/
def Obligations.ExceptionEntry : Prop :=
  (∀ (x : Ctx) (code : Byte) (eaddr : Word) (deferred : Bool) (epc : BitVec 20),
    let y := x.enter code eaddr deferred epc
    y.epc = epc ∧ y.ecause.toNat = code.toNat + (if deferred then 256 else 0) ∧ y.eaddr = eaddr ∧
    y.ppriv = x.priv ∧ y.priv = true ∧ y.exl = true ∧ y.ie = x.ie ∧ (∀ k, k < 4 → y.loopAct k = x.loopAct k) ∧
    y.pc = x.excbase.setWidth 32 ∧ y.a = x.a ∧ y.d = x.d ∧ y.loops = x.loops) ∧
  (∀ (s : State) (t : Tile) (c : CtxId) (code : Byte) (eaddr : Word) (deferred : Bool) (epc : BitVec 20),
    let s' := s.takeExc t c code eaddr deferred epc
    ((s.ctx t c).exl = false → s'.ctx t c = (s.ctx t c).enter code eaddr deferred epc) ∧
    ((s.ctx t c).exl = true → (s'.ctx t c).run = .halted ∧ (s'.ctx t c).d = (s.ctx t c).d ∧
      (s'.ctx t c).excCause.toNat = code.toNat + (if deferred then 256 else 0) + 512 ∧
      (s'.ctx t c).excAddr = eaddr ∧
      (s'.page (pageNo (.core t.val))).irqStatus.getLsbD c.val = true) ∧
    ∀ d, d ≠ c → s'.ctx t d = s.ctx t d)

/-! ### IO, engine registers, credits and synchronisation -/

/-- The bundle of one word has retired with register effect `y`; besides, the machine is `r`. -/
def Claims.leaves (i : Instr) (b : Issue) (s : State) (c : CtxId) (y : Ctx) (r : State) : Prop :=
  ∃ s', exec i s = .next s' ∧
    Retired b s s' c ((s.ctx (s.tileOf b.core) c).pc + 4) y ∧ Elsewhere r s' (s.tileOf b.core) c

/-- The same where the effect is one on the core: it is `k` besides the context. -/
def Claims.leavesCore (i : Instr) (b : Issue) (s : State) (c : CtxId) (y : Ctx) (k : Core) : Prop :=
  Claims.leaves i b s c y (s.modCore (s.tileOf b.core) fun _ => k)

/-- R97, R99, R309, R197, R273, R571: `in` reads the register at its IO address into its data register;
CTX_TIME_LO latches CTX_TIME_HI. An address with no register, or no multiple of 4, raises IOSPACE. Nothing
else changes. -/
def Obligations.IoReadRows : Prop :=
  ∀ (b : Issue) (s : State) (c : CtxId) (rd : BitVec 5) (m : MemAddr),
    let k := s.core (s.tileOf b.core)
    let x := s.ctx (s.tileOf b.core) c
    let at_ := (x.lm m .word).1
    let reads (a : Nat) (v : Word) : Prop :=
      at_.toNat = a → Ready b (.inp rd m) s c → Does (.inp b rd m) b s c (x.setD rd v)
    (at_.toNat = 0 → Ready b (.inp rd m) s c → Does (.inp b rd m) b s c
      (Ctx.setD { x with timeHi := s.time.extractLsb' 32 32 } rd (s.time.extractLsb' 0 32))) ∧
    reads 0x04 x.timeHi ∧ reads 0x08 x.jobSeq ∧ reads 0x0C x.cycles ∧
    (∀ ch : Fin 8, let h := k.dma.get ch
      reads (0x100 + 32 * ch) h.src ∧ reads (0x104 + 32 * ch) h.dst ∧
      reads (0x108 + 32 * ch) (h.xcnt.setWidth 32) ∧ reads (0x10C + 32 * ch) (h.ycnt.setWidth 32) ∧
      reads (0x110 + 32 * ch) h.sstride ∧ reads (0x114 + 32 * ch) h.dstride ∧
      reads (0x118 + 32 * ch) h.ctrlWord ∧ reads (0x11C + 32 * ch) h.link) ∧
    (k.mtx.queue.length ≤ 8 → ∃ v : Word, reads 0x200 v ∧ v.toNat = k.mtx.queue.length +
      (if ∃ j ∈ k.mtx.queue, j.stage = .feeding then 16 else 0) +
      (if ∃ j ∈ k.mtx.queue, j.stage = .output then 32 else 0) + 65536 * k.mtx.doneSeq.toNat) ∧
    reads 0x204 (k.mtx.next.setWidth 32) ∧
    reads 0x208 ((k.mtx.errStatus ++ k.mtx.errSeq).setWidth 32) ∧ reads 0x20C 0 ∧
    (k.str.queue.length ≤ 8 → ∃ v : Word, reads 0x210 v ∧ v.toNat % 16 = k.str.queue.length ∧
      v.extractLsb' 16 16 = k.str.doneSeq) ∧
    reads 0x214 (k.str.next.setWidth 32) ∧
    reads 0x218 (BitVec.ofNat 32 (k.str.errSeq.toNat + 65536 * k.str.errStatus.toNat +
      2 ^ 24 * k.str.errStream.val)) ∧
    reads 0x21C (BitVec.ofNat 32 (16 * k.str.tstream.val)) ∧
    (∀ i : Fin 64, reads (0x400 + 4 * i) ((k.mb i).grant ++ (k.mb i).credit)) ∧
    (∀ w : Fin 8, reads (0x800 + 8 * w) ((x.hbmWin.get w).extractLsb' 0 32) ∧
      reads (0x804 + 8 * w) ((x.hbmWin.get w).extractLsb' 32 32)) ∧
    (∀ i : Fin 16, reads (0x900 + 8 * i) ((k.treg i).first.setWidth 32) ∧
      reads (0x904 + 8 * i) (BitVec.ofNat 32 ((k.treg i).count.toNat +
        if (k.treg i).tagged then 2 ^ 31 else 0))) ∧
    reads 0x980 (k.setup.setWidth 32) ∧
    (∀ i : Fin 64, reads (0xA00 + 8 * i) ((k.mb i).base.setWidth 32) ∧
      reads (0xA04 + 8 * i) (BitVec.ofNat 32 ((k.mb i).size.toNat + 2 ^ 16 * (k.mb i).sender.toNat +
        2 ^ 22 * (k.mb i).func.toNat + if (k.mb i).en then 2 ^ 31 else 0))) ∧
    reads 0xF00 x.trkSel ∧ reads 0xF08 0 ∧ reads 0xF0C 0 ∧
    (at_.toNat % 4 ≠ 0 ∨ (0x10 ≤ at_.toNat ∧ at_.toNat < 0x100) ∨
        (0x220 ≤ at_.toNat ∧ at_.toNat < 0x400) ∨ (0x500 ≤ at_.toNat ∧ at_.toNat < 0x800) ∨
        (0x840 ≤ at_.toNat ∧ at_.toNat < 0x900) ∨ (0x984 ≤ at_.toNat ∧ at_.toNat < 0xA00) ∨
        (0xC00 ≤ at_.toNat ∧ at_.toNat < 0xF00) ∨ 0xF10 ≤ at_.toNat →
      x.exl = false → Ready b (.inp rd m) s c → Raises (.inp b rd m) b s c 0x07 at_ x)

/-- R94, R97, R98, R307 to R309, R571: `out` and `out.p` write one register of the IO space: a read-only
one keeps its value, an HBM window and TRK_SEL are the context's, a credit word takes CREDIT while its
mailbox is enabled, a tag region takes its bounds unless it is tagged, a mailbox takes words that pass its
checks and else only the set-up status. `out` at 0x800 to 0xFFF raises PRIV, `out.p` below 0x800 IOSPACE.
That a write of a read-only register changes nothing and raises nothing is the model's reading (log
entry 24, DEDUCED). -/
def Obligations.IoWriteRows : Prop :=
  ∀ (b : Issue) (s : State) (c : CtxId) (rs : BitVec 5) (m : MemAddr) (io : BitVec 12),
    let t := s.tileOf b.core
    let k := s.core t
    let x := s.ctx t c
    let v := x.rd rs
    let at_ := (x.lm m .word).1
    let outs (a : Nat) (y : Ctx) (k' : Core) : Prop :=
      at_.toNat = a → Ready b (.out rs m) s c → Claims.leavesCore (.out b rs m) b s c y k'
    let outps (a : Nat) (y : Ctx) (k' : Core) : Prop :=
      io.toNat = a → Ready b (.outp rs io) s c → Claims.leavesCore (.outP b rs io) b s c y k'
    let win (w : Fin 8) (r : DWord) : Ctx := { x with hbmWin := x.hbmWin.set w.val r w.isLt }
    (∀ a, a = 0x0 ∨ a = 0x4 ∨ a = 0x8 ∨ a = 0xC ∨ a = 0x200 ∨ a = 0x204 ∨ a = 0x208 ∨ a = 0x210 ∨
      a = 0x214 ∨ a = 0x218 → outs a x k) ∧
    (∀ i : Fin 64, (k.mb i).en = true → (x.priv = true ∨ (k.mb i).func.toNat = x.func.val) →
      ∃ k' : Core, k' = { k with mbx := k'.mbx } ∧ (∀ j, j ≠ i.val → k'.mb j = k.mb j) ∧
        k'.mb i = { k.mb i with credit := v.setWidth 16 } ∧ outs (0x400 + 4 * i) x k') ∧
    (∀ ch : Fin 8,
      let h := k.dma.get ch
      let sets (off : Nat) (h' : DmaCh) : Prop := ∃ k' : Core, k' = { k with dma := k'.dma } ∧
        (∀ d, d ≠ ch → k'.dma.get d = k.dma.get d) ∧ k'.dma.get ch = h' ∧
        outs (0x100 + 32 * ch + off) x k'
      h.run = .idle → sets 0x00 { h with src := v } ∧ sets 0x04 { h with dst := v } ∧
        sets 0x08 { h with xcnt := v.setWidth 24 } ∧ sets 0x0C { h with ycnt := v.setWidth 16 } ∧
        sets 0x10 { h with sstride := v } ∧ sets 0x14 { h with dstride := v } ∧
        sets 0x1C { h with link := v }) ∧
    (∀ (ch : Fin 8) (off : Fin 8), off ≠ 6 → (k.dma.get ch).run ≠ .idle →
      (x.priv = true ∨ (k.dma.get ch).func = x.func) → outs (0x100 + 32 * ch + 4 * off) x k) ∧
    (∀ w : Fin 8, outps (0x800 + 8 * w) (win w ((x.hbmWin.get w).extractLsb' 32 32 ++
        (v &&& 0xFFE00001))) k ∧
      outps (0x804 + 8 * w) (win w (v ++ (x.hbmWin.get w).extractLsb' 0 32)) k) ∧
    outps 0xF00 { x with trkSel := v &&& 0x3FFF } k ∧
    (∀ (i : Fin 16) (hi : Bool), ∃ k' : Core, k' = { k with tregs := k'.tregs, setup := k'.setup } ∧
      (∀ j, j ≠ i.val → k'.treg j = k.treg j) ∧
      k'.setup = (if (k.treg i).tagged then 0x07 else 0) ∧
      k'.treg i = (if (k.treg i).tagged then k.treg i
        else if hi then { k.treg i with count := v.setWidth 15 }
        else { k.treg i with first := v.setWidth 14 }) ∧
      (Ready b (.outp rs (0x900 + 8 * BitVec.ofNat 12 i + if hi then 4 else 0)) s c →
        Claims.leavesCore (.spadTregWrite b rs (BitVec.ofNat 4 i) hi) b s c x k')) ∧
    (∀ (i : Fin 64) (hi : Bool),
      let new : Mbx := if hi then
          { k.mb i with
            size := v.setWidth 16, sender := v.extractLsb' 16 6, func := v.extractLsb' 22 4
            en := v.getLsbD 31
            credit := if v.getLsbD 31 then (k.mb i).credit else 0
            grant := if v.getLsbD 31 then (k.mb i).grant else 0 }
        else { k.mb i with base := v.setWidth 24 }
      let held := (k.mb i).en = true ∧ (k.mb i).grant ≠ 0
      let bounds := new.size.toNat = 0 ∨ localRange new.base.toNat (64 * new.size.toNat) = false
      let meets := ∃ j, j < 64 ∧ j ≠ i.val ∧ (k.mb j).en = true ∧
        new.base.toNat < (k.mb j).base.toNat + 64 * (k.mb j).size.toNat ∧
        (k.mb j).base.toNat < new.base.toNat + 64 * new.size.toNat
      let row (code : Byte) (mb : Mbx) : Prop := ∃ k' : Core,
        k' = { k with mbx := k'.mbx, setup := code } ∧
        (∀ j, j ≠ i.val → k'.mb j = k.mb j) ∧ k'.mb i = mb ∧
        (Ready b (.outp rs (0xA00 + 8 * BitVec.ofNat 12 i + if hi then 4 else 0)) s c →
          Claims.leavesCore (.spadMbxWrite b rs (BitVec.ofNat 6 i) hi) b s c x k')
      (held → row 0x07 (k.mb i)) ∧ (¬ held → new.en = false → row 0 new) ∧
      (¬ held → new.en = true → bounds → row 0x02 (k.mb i)) ∧
      (¬ held → new.en = true → ¬ bounds → new.base.toNat % 64 ≠ 0 → row 0x03 (k.mb i)) ∧
      (¬ held → new.en = true → ¬ bounds → new.base.toNat % 64 = 0 → meets → row 0x04 (k.mb i)) ∧
      (¬ held → new.en = true → ¬ bounds → new.base.toNat % 64 = 0 → ¬ meets → row 0 new)) ∧
    (∀ i : Fin 64, (k.mb i).en = false → (x.priv = true ∨ (k.mb i).func.toNat = x.func.val) →
      Ready b (.outAt rs (0x400 + 4 * BitVec.ofNat 20 i)) s c →
      Claims.leavesCore (.crCntWrite b rs (BitVec.ofNat 6 i)) b s c x k) ∧
    (∀ i : Fin 64, x.priv = false → x.exl = false → (k.mb i).func.toNat ≠ x.func.val →
      Ready b (.outAt rs (0x400 + 4 * BitVec.ofNat 20 i)) s c →
      Raises (.crCntWrite b rs (BitVec.ofNat 6 i)) b s c 0x03 0 x) ∧
    (∀ i : Fin 64, (k.mb i).en = true → (x.priv = true ∨ (k.mb i).func.toNat = x.func.val) →
      ∃ k' : Core, k' = { k with mbx := k'.mbx } ∧ (∀ j, j ≠ i.val → k'.mb j = k.mb j) ∧
        k'.mb i = { k.mb i with credit := v.setWidth 16 } ∧
        (Ready b (.outAt rs (0x400 + 4 * BitVec.ofNat 20 i)) s c →
          Claims.leavesCore (.crCntWrite b rs (BitVec.ofNat 6 i)) b s c x k')) ∧
    (0x800 ≤ at_.toNat ∧ at_.toNat < 0x1000 → x.exl = false → Ready b (.out rs m) s c →
      Raises (.out b rs m) b s c 0x03 0 x) ∧
    (at_.toNat < 0x800 ∧ at_.toNat % 4 ≠ 0 ∨ 0x1000 ≤ at_.toNat → x.exl = false →
      Ready b (.out rs m) s c → Raises (.out b rs m) b s c 0x07 at_ x) ∧
    (io.toNat < 0x800 ∨ io.toNat % 4 ≠ 0 → x.exl = false → Ready b (.outp rs io) s c →
      Raises (.outP b rs io) b s c 0x07 (io.setWidth 32) x)

/-- R234 to R236: a read of TRK_DATA at word 0 latches the selected tracker's record, and at another
word reads the latch; with INC the selection goes on to the next word, after word 31 to the next tracker.
A write of TRK_DATA writes the selected word; TRK_STEP closes a step and TRK_RESET resets each tracker of
its range, to 255 at most. No other tracker and nothing else changes. -/
def Obligations.TrackerWindowRows : Prop :=
  ∀ (b : Issue) (s : State) (c : CtxId) (rd rs : BitVec 5),
    let k := s.core (s.tileOf b.core)
    let x := s.ctx (s.tileOf b.core) c
    let v := x.rd rs
    let trk := x.trkSel.toNat % 256
    let word := x.trkSel.toNat / 256 % 32
    let next := if x.trkSel.getLsbD 13 then (32 * trk + word + 1) % 8192 else 32 * trk + word
    let moved (sel : Word) : Prop := sel.toNat % 256 = next / 32 ∧ sel.toNat / 256 % 32 = next % 32 ∧
      sel.toNat / 8192 = x.trkSel.toNat / 8192
    let only (k' : Core) : Prop := k' = { k with mtx := { k.mtx with trk := k'.mtx.trk } }
    let inRange (i : Nat) : Prop := v.toNat % 256 ≤ i ∧ i ≤ min (v.toNat % 256 + v.toNat / 256 % 256) 255
    (Ready b (.inAt rd 0xF04) s c → ∃ y, Does (.trkDataRead b rd) b s c y ∧ moved y.trkSel ∧
      (word = 0 → y = Ctx.setD { x with trkSel := y.trkSel, trkLatch := y.trkLatch } rd
        (k.mtx.tracker trk).cfg ∧
        ∀ i, i < 32 → Tab.get 0 y.trkLatch i = (k.mtx.tracker trk).word i) ∧
      (word ≠ 0 → y = Ctx.setD { x with trkSel := y.trkSel } rd (Tab.get 0 x.trkLatch word))) ∧
    (Ready b (.outp rs 0xF04) s c → (k.mtx.trackerBusy trk = true → word < 3) →
      ∃ (y : Ctx) (k' : Core), Claims.leavesCore (.trkDataWrite b rs) b s c y k' ∧
        moved y.trkSel ∧ y = { x with trkSel := y.trkSel } ∧ only k' ∧
        (∀ i, i ≠ trk → k'.mtx.tracker i = k.mtx.tracker i) ∧
        k'.mtx.tracker trk = (k.mtx.tracker trk).setWord word v) ∧
    (Ready b (.outp rs 0xF08) s c → ∃ k' : Core, Claims.leavesCore (.trkStep b rs) b s c x k' ∧
      only k' ∧ ∀ i, (inRange i → k'.mtx.tracker i = (k.mtx.tracker i).close) ∧
        (¬ inRange i → k'.mtx.tracker i = k.mtx.tracker i)) ∧
    (Ready b (.outp rs 0xF0C) s c → ∃ k' : Core, Claims.leavesCore (.trkReset b rs) b s c x k' ∧
      only k' ∧ ∀ i, (inRange i → k'.mtx.tracker i = (k.mtx.tracker i).reset) ∧
        (¬ inRange i → k'.mtx.tracker i = k.mtx.tracker i))

/-- R189, R264, R332, R331: `mjob`, `sjob`, `dma` and `dmac` enter their descriptor in a queue or a slot
with room and return at once: the matrix and stripe queues give its sequence number; START fills an IDLE
channel's current slot. A full queue, or a full pending slot, blocks the context with code 6. -/
def Obligations.CommandRows : Prop :=
  ∀ (b : Issue) (s : State) (c : CtxId) (d : BitVec 5) (m : MemAddr),
    let t := s.tileOf b.core
    let k := s.core t
    let x := s.ctx t c
    let a := (x.lm m .word).1.toNat
    let open_ (n : Nat) : Prop := localOk a = true ∧ a % n = 0 ∧ k.sbOwn c = false ∧
      s.spanHeld t a n = false ∧ ∀ i, i < n → k.marked (a + i) = false
    let job (j : MtxJob) : Prop := j.desc = leVal 1024 (k.bytes a 128) ∧ j.seq = k.mtx.next ∧ j.ctx = c ∧
      j.func = x.func ∧ j.stage = .queued
    let stripe (q : Stripe) : Prop := q.desc = leVal 1024 (k.bytes a 128) ∧ q.seq = k.str.next ∧
      q.ctx = c ∧ q.func = x.func ∧ q.stage = .waiting
    let cmd (q : DmaCmd) (src : DmaSrc) : Prop := q.src = src ∧ q.ctx = c ∧ q.func = x.func ∧
      q.win = x.hbmWin ∧ (src = .copied → q.desc = leVal 512 (k.bytes a 64)) ∧ (src = .chain → q.addr = a)
    let ch : Fin 8 := ⟨(x.rd d).toNat % 8, Nat.mod_lt _ (by omega)⟩
    let h := k.dma.get ch
    let blocked (i : Instr) (q : Nat) : Prop := ∃ s', exec i s = .next s' ∧
      s'.ctx t c = { x with run := .blocked, block := 6, wait := .queue q } ∧ (s'.core t).mtx = k.mtx ∧
      (s'.core t).str = k.str ∧ (s'.core t).dma = k.dma ∧ s'.board = s.board
    (Ready b (.mjob d m) s c → open_ 128 → (s.board.map.get b.core).mtxOut = false →
      s.enabled (.mtx t.val) = true →
      (k.mtx.queue.length < 8 → ∃ (j : MtxJob) (k' : Core), job j ∧
        k' = { k with mtx := { k.mtx with queue := k.mtx.queue ++ [j], next := k.mtx.next + 1 } } ∧
        Claims.leavesCore (.mjob b d m) b s c (x.setD d (k.mtx.next.setWidth 32)) k') ∧
      (8 ≤ k.mtx.queue.length → blocked (.mjob b d m) 0)) ∧
    (Ready b (.sjob d m) s c → open_ 128 → s.enabled (.stripe t.val) = true →
      (k.str.queue.length < 8 → ∃ (q : Stripe) (k' : Core), stripe q ∧
        k' = { k with str := { k.str with queue := k.str.queue ++ [q], next := k.str.next + 1 } } ∧
        Claims.leavesCore (.sjob b d m) b s c (x.setD d (k.str.next.setWidth 32)) k') ∧
      (8 ≤ k.str.queue.length → blocked (.sjob b d m) 1)) ∧
    (∀ chain : Bool,
      let row := if chain then Instr.dmac b d m else Instr.dma b d m
      let src : DmaSrc := if chain then .chain else .copied
      Ready b (if chain then .dmac d m else .dma d m) s c → open_ 64 → s.enabled (.dma t.val) = true →
      (x.priv = true ∨ h.run = .idle ∨ h.func = x.func) → h.run ≠ .error → h.run ≠ .draining →
      (h.run = .idle → ∃ (q : DmaCmd) (k' : Core), cmd q src ∧ k' = { k with dma := k'.dma } ∧
        (∀ e, e ≠ ch → k'.dma.get e = k.dma.get e) ∧ (k'.dma.get ch).run = .ready ∧
        (k'.dma.get ch).cur = some q ∧ (k'.dma.get ch).pend = h.pend ∧
        (k'.dma.get ch).ctx = c ∧ (k'.dma.get ch).func = x.func ∧
        Claims.leavesCore row b s c x k') ∧
      (h.run ≠ .idle → h.pend = none → ∃ (q : DmaCmd) (k' : Core), cmd q src ∧
        k' = { k with dma := k'.dma } ∧ (∀ e, e ≠ ch → k'.dma.get e = k.dma.get e) ∧
        k'.dma.get ch = { h with pend := some q } ∧ Claims.leavesCore row b s c x k') ∧
      (h.run ≠ .idle → h.pend ≠ none → blocked row (2 + ch.val))) ∧
    (x.exl = false → a % 128 ≠ 0 → localOk a = true → Ready b (.mjob d m) s c →
      Raises (.mjob b d m) b s c 0x06 (x.lm m .word).1 x) ∧
    (x.exl = false → a % 128 ≠ 0 → localOk a = true → Ready b (.sjob d m) s c →
      Raises (.sjob b d m) b s c 0x06 (x.lm m .word).1 x) ∧
    (x.exl = false → h.run = .error → h.func = x.func → open_ 64 → Ready b (.dma d m) s c →
      Raises (.dma b d m) b s c 0x12 (x.lm m .word).1 x)

/-- R197, R273, R274, R331, R343, R350: MQ_ABORT cancels the unstarted jobs of its context and SQ_CTRL.ABORT
its unactivated stripes; TRIG raises the trigger count of the stream that it selects; START, DISABLE and RING
act on a channel as its state allows. -/
def Obligations.EngineRegisterRows : Prop :=
  ∀ (b : Issue) (s : State) (c : CtxId) (rs : BitVec 5) (ch : Fin 8),
    let t := s.tileOf b.core
    let k := s.core t
    let x := s.ctx t c
    let v := x.rd rs
    let h := k.dma.get ch
    let io : BitVec 20 := BitVec.ofNat 20 (0x118 + 0x20 * ch)
    let stream := v.toNat / 16 % 8
    let mine : Prop := x.priv = true ∨ h.run = .idle ∨ h.func = x.func
    let chained : Prop := ∃ q, h.cur = some q ∧
      (q.src = .chain ∨ (q.src = .copied ∧ (h.line ≠ none ∨ (dmaDesc q.desc).last = false)))
    let dmaCore (run : DmaCh → Prop) (i : Instr) : Prop := ∃ k' : Core, k' = { k with dma := k'.dma } ∧
      (∀ e, e ≠ ch → k'.dma.get e = k.dma.get e) ∧ run (k'.dma.get ch) ∧ Claims.leavesCore i b s c x k'
    (Ready b (.outAt rs 0x20C) s c → ∃ k' : Core, Claims.leavesCore (.mqAbort b rs) b s c x k' ∧
      k' = { k with mtx := { k.mtx with queue := k'.mtx.queue } } ∧
      k'.mtx.queue = if v.getLsbD 0 then k.mtx.queue.map fun j =>
          if j.ctx = c ∧ j.stage = .queued then { j with stage := .finished, status := 0x01 } else j
        else k.mtx.queue) ∧
    (Ready b (.outAt rs 0x21C) s c →
      (v.getLsbD 0 = false → v.getLsbD 1 = true → ∃ k' : Core,
        Claims.leavesCore (.sqTrig b rs) b s c x k' ∧
        k' = { k with str := { k.str with tstream := k'.str.tstream, streams := k'.str.streams } } ∧
        k'.str.tstream.val = stream ∧ ∀ i, k'.str.streams.get i = if i.val = stream then
          { k.str.streams.get i with
            trigs := BitVec.ofNat 8 (min 255 ((k.str.streams.get i).trigs.toNat + 1)) }
          else k.str.streams.get i) ∧
      (v.getLsbD 0 = true → v.getLsbD 1 = false → ∃ k' : Core,
        Claims.leavesCore (.sqAbort b rs) b s c x k' ∧
        k' = { k with str := { k.str with tstream := k'.str.tstream, queue := k'.str.queue } } ∧
        k'.str.queue = k.str.queue.map fun q =>
          if q.ctx = c ∧ q.stage = .waiting then { q with stage := .cancelled, status := 0x01 } else q)) ∧
    (Ready b (.outAt rs io) s c → mine → k.sbOwn c = false → v.getLsbD 0 = true → v.getLsbD 1 = false →
      v.getLsbD 2 = false → h.run = .idle → s.enabled (.dma t.val) = true →
      dmaCore (fun h' => h'.run = .ready ∧ h'.ctrl = (v &&& 0x7FFF8).setWidth 19 ∧ h'.ctx = c ∧
        h'.func = x.func ∧ h'.pend = h.pend ∧ h'.dbpend = false ∧ ∃ q, h'.cur = some q ∧
        q.src = (if v.getLsbD 3 then .chain else .regs) ∧ q.win = x.hbmWin ∧ q.ctx = c ∧
        q.func = x.func ∧ (v.getLsbD 3 = true → q.addr = h.link.toNat / 64 * 64))
        (.dmaStart b rs ch)) ∧
    (Ready b (.outAt rs io) s c → mine → k.sbOwn c = false → v.getLsbD 0 = true → v.getLsbD 1 = false →
      v.getLsbD 2 = false → h.run ≠ .idle → Does (.dmaStart b rs ch) b s c x) ∧
    (Ready b (.outAt rs io) s c → mine → v.getLsbD 0 = false → v.getLsbD 1 = true →
      v.getLsbD 2 = false → h.run ≠ .idle → ∃ s', exec (.dmaDisable b rs ch) s = .next s' ∧
        let h' := (s'.core t).dma.get ch
        h'.run = .draining ∧ h'.status = 0x02 ∧ h'.cur = none ∧ h'.pend = none ∧ h'.dbpend = false ∧
        h'.reads = [] ∧ h'.localWrites = [] ∧ h'.src = h.src ∧ h'.ctrl = h.ctrl ∧
        (∀ e, e ≠ ch → (s'.core t).dma.get e = k.dma.get e) ∧ s'.hbm.mem = s.hbm.mem ∧
        ∀ u, u ≠ t → (s'.core u).mem = (s.core u).mem) ∧
    (Ready b (.outAt rs io) s c → mine → k.sbOwn c = false → v.getLsbD 0 = false →
      v.getLsbD 1 = false → v.getLsbD 2 = true → h.run ≠ .idle →
      dmaCore (fun h' => (h.run = .parked → h' = { h with phase := .link }) ∧
        (h.run = .ready ∨ h.run = .active ∨ h.run = .waiting →
          (chained → h' = { h with dbpend := true }) ∧ (¬ chained → h' = h)) ∧
        (h.run = .error ∨ h.run = .draining → h' = h)) (.dmaRing b rs ch)) ∧
    (∀ i, i = Instr.dmaStart b rs ch ∨ i = .dmaDisable b rs ch ∨ i = .dmaRing b rs ch →
      Ready b (.outAt rs io) s c → x.exl = false → ¬ mine → Raises i b s c 0x03 0 x)

/-- R309 to R311: a credit operation on a mailbox of the context's own core is performed at once: `crget`
moves the units asked for from CREDIT to GRANT where there are so many, `crput` adds units or returns
granted ones; one that EN, FUNC or SENDER denies changes nothing. The result word is GRANTED, DENIED and
the CREDIT after it. An operation on another core's mailbox is sent and blocks the context with code 5. -/
def Obligations.CreditRows : Prop :=
  ∀ (b : Issue) (s : State) (c : CtxId) (d : BitVec 5) (m : MemAddr),
    let t := s.tileOf b.core
    let k := s.core t
    let x := s.ctx t c
    let a := (x.lm m .word).1.toNat
    let i := (a - 0x400) / 4
    let mb := k.mb i
    let data := x.rd d
    let units := data.toNat / 256 % 65536
    let ret := data.getLsbD 24
    let denied (put : Bool) : Prop := mb.en = false ∨ mb.func.toNat ≠ x.func.val ∨
      (put = false ∧ mb.sender.toNat ≠ 0x3F ∧ mb.sender.toNat ≠ b.core.val)
    let word (ok no : Bool) (credit : Nat) : Word :=
      BitVec.ofNat 32 ((if ok then 1 else 0) + (if no then 2 else 0) + 65536 * credit)
    let does (i' : Instr) (y : Word) (mb' : Mbx) : Prop := ∃ k' : Core,
      Claims.leavesCore i' b s c (x.setD d y) k' ∧ k' = { k with mbx := k'.mbx } ∧
      (∀ j, j ≠ i → k'.mb j = k.mb j) ∧ k'.mb i = mb'
    let sat (n : Nat) : Nat := min n 65535
    0x400 ≤ a → a < 0x500 → a % 4 = 0 → k.sbOwn c = false → x.stores = 0 → k.loading c = false →
    x.deferred = none →
      (data.toNat % 32 = b.core.val →
        (Ready b (.crget d m) s c → (denied false → does (.crget b d m)
            (word false true mb.credit.toNat) mb) ∧
          (¬ denied false → units ≤ mb.credit.toNat → mb.grant.toNat + units ≤ 65535 →
            does (.crget b d m) (word true false (mb.credit.toNat - units))
              { mb with
                credit := BitVec.ofNat 16 (mb.credit.toNat - units)
                grant := BitVec.ofNat 16 (mb.grant.toNat + units) }) ∧
          (¬ denied false → (mb.credit.toNat < units ∨ 65535 < mb.grant.toNat + units) →
            does (.crget b d m) (word false false mb.credit.toNat) mb)) ∧
        (Ready b (.crput d m) s c → (denied true → does (.crput b d m)
            (word false true mb.credit.toNat) mb) ∧
          (¬ denied true → ret = false → does (.crput b d m)
            (word true false (sat (mb.credit.toNat + units)))
            { mb with credit := BitVec.ofNat 16 (sat (mb.credit.toNat + units)) }) ∧
          (¬ denied true → ret = true →
            let u := min units mb.grant.toNat
            does (.crput b d m) (word true false (sat (mb.credit.toNat + u)))
              { mb with
                credit := BitVec.ofNat 16 (sat (mb.credit.toNat + u))
                grant := BitVec.ofNat 16 (mb.grant.toNat - u) }))) ∧
      (data.toNat % 32 ≠ b.core.val → ∀ put : Bool,
        Ready b (if put then .crput d m else .crget d m) s c →
        ∃ s' n, exec (if put then .crput b d m else .crget b d m) s = .next s' ∧
          n.val = data.toNat % 32 ∧
          s'.ctx t c = { x with run := .blocked, block := 5, wait := .credit 0 } ∧
          s'.board = { s.board with mesh := s.board.mesh ++
            [⟨b.core, .ctx c, x.func, n, .credit 0 put (BitVec.ofNat 6 i) data⟩] } ∧
          ∀ u, (s'.core u).mbx = (s.core u).mbx)

/-- R383, R385: a `sync` form on an object of the context's function sends its operation to the object's
bank. `sync.add` and `sync.set` go on at once; `sync.cas`, `sync.wait` and `sync.rd` block the context with
code 4. On any other address, and any other object, they raise IOSPACE. No object changes yet. -/
def Obligations.SyncRows : Prop :=
  ∀ (b : Issue) (s : State) (c : CtxId) (d : BitVec 5) (ab : BitVec 4) (off : BitVec 12),
    let t := s.tileOf b.core
    let k := s.core t
    let x := s.ctx t c
    let at_ := x.ra ab + BitVec.ofInt 32 off.toInt
    let a := at_.toNat
    let obj : BitVec 13 := BitVec.ofNat 13 ((a - 0x40000) / 8)
    let pair (r : BitVec 5) : DWord := x.rd (r + 1) ++ x.rd r
    let named : Prop := 0x40000 ≤ a ∧ a < 0x50000 ∧ a % 8 = 0 ∧ s.syncOwner obj = some x.func
    let clear : Prop := k.sbOwn c = false ∧ x.stores = 0
    let sent (op : SyncOp) : SyncBlock :=
      { s.sync with queue := s.sync.queue ++ [⟨.ctx b.core c 0, x.func, obj, op⟩] }
    let posts (i : Instr) (op : SyncOp) : Prop :=
      Claims.leaves i b s c x { s with sync := sent op }
    let asks (i : Instr) (op : SyncOp) (since : Option DWord) : Prop := ∃ s', exec i s = .next s' ∧
      s'.ctx t c = { x with run := .blocked, block := 4, wait := .sync 0 obj since } ∧
      s'.sync = sent op ∧ s'.board = s.board ∧ s'.hbm = s.hbm ∧ ∀ u, (s'.core u).mem = (s.core u).mem
    (named → clear → x.deferred = none →
      (Ready b (.sync .add d ab off) s c → posts (.syncAdd b d ab off) (.add (pair d))) ∧
      (Ready b (.sync .set d ab off) s c → posts (.syncSet b d ab off) (.set (pair d))) ∧
      (Ready b (.sync .cas d ab off) s c →
        asks (.syncCas b d ab off) (.cas (pair d) (pair (d + 2))) none)) ∧
    (named →
      (Ready b (.sync .wait d ab off) s c → asks (.syncWait b d ab off) (.wait (pair d)) (some s.time)) ∧
      (Ready b (.sync .rd d ab off) s c → asks (.syncRd b d ab off) .read none)) ∧
    (named → ¬ clear →
      (Ready b (.sync .add d ab off) s c → Waits (.syncAdd b d ab off) b s c) ∧
      (Ready b (.sync .set d ab off) s c → Waits (.syncSet b d ab off) b s c) ∧
      (Ready b (.sync .cas d ab off) s c → Waits (.syncCas b d ab off) b s c)) ∧
    (¬ named → x.exl = false →
      (Ready b (.sync .add d ab off) s c → Raises (.syncAdd b d ab off) b s c 0x07 at_ x) ∧
      (Ready b (.sync .set d ab off) s c → Raises (.syncSet b d ab off) b s c 0x07 at_ x) ∧
      (Ready b (.sync .cas d ab off) s c → Raises (.syncCas b d ab off) b s c 0x07 at_ x) ∧
      (Ready b (.sync .wait d ab off) s c → Raises (.syncWait b d ab off) b s c 0x07 at_ x) ∧
      (Ready b (.sync .rd d ab off) s c → Raises (.syncRd b d ab off) b s c 0x07 at_ x))
/-! ### Vector rows -/

/-- R114, R147, R148: in `y` the group at `vd` holds `f i` at each element `i` below `n` that `act` names
and its old value elsewhere, and every other register of the context is as in `x`. -/
def Claims.group (x y : Ctx) (vd : BitVec 5) (w n : Nat) (act : Nat → Bool) (f : Nat → BitVec w) : Prop :=
  y = { x with v := y.v } ∧
  (∀ i, i * w < 2048 * x.g → y.elt vd w i = if i < n ∧ act i = true then f i else x.elt vd w i) ∧
  ∀ r, r < vd.toNat ∨ vd.toNat + x.g ≤ r → y.vreg r = x.vreg r

/-- The same of an accumulator group of `g` registers. -/
def Claims.accGroup (x y : Ctx) (va : BitVec 3) (g n : Nat) (act : Nat → Bool) (f : Nat → Acc) : Prop :=
  y = { x with va := y.va } ∧
  (∀ j, j < 128 * g → y.aelt va j = if j < n ∧ act j = true then f j else x.aelt va j) ∧
  ∀ r, r < va.toNat ∨ va.toNat + g ≤ r → y.vareg r = x.vareg r

/-- The row `i` of operation `o` writes its active elements with `f` and does nothing else. -/
def Claims.writes (i : Instr) (o : Op) (b : Issue) (s : State) (c : CtxId) (vd : BitVec 5) (w n : Nat)
    (pg : BitVec 3) (f : Nat → BitVec w) : Prop :=
  Ready b o s c → ∃ y, Does i b s c y ∧
    Claims.group (s.ctx (s.tileOf b.core) c) y vd w n ((s.ctx (s.tileOf b.core) c).active pg) f

/-- R145, R147, R148, R157: the integer and fixed-point rows write each active element of their group with
their result, computed from the registers before the bundle; no other element and nothing else changes. -/
def Claims.vectorTwoSource : Prop :=
  ∀ (b : Issue) (s : State) (c : CtxId) (vd vs1 vs2 : BitVec 5) (pg : BitVec 3) (wd : BitVec 2),
    let x := s.ctx (s.tileOf b.core) c
    let w := x.width wd
    let n := min x.vl.toNat (2048 * x.g / w)
    let u (i : Nat) := x.elt vs1 w i
    let v (i : Nat) := x.elt vs2 w i
    let amount (i : Nat) := (v i).toNat % w
    let row (i : Instr) (fn : VIntFn) (f : Nat → BitVec w) : Prop :=
      Claims.writes i (.vint fn vd vs1 vs2 pg wd) b s c vd w n pg f
    row (.vadd b vd vs1 vs2 pg wd) .add (fun i => BitVec.ofNat w ((u i).toNat + (v i).toNat)) ∧
    row (.vsub b vd vs1 vs2 pg wd) .sub (fun i => BitVec.ofInt w ((u i).toInt - (v i).toInt)) ∧
    row (.vadds b vd vs1 vs2 pg wd) .adds (fun i => satS w ((u i).toInt + (v i).toInt)) ∧
    row (.vaddus b vd vs1 vs2 pg wd) .addus (fun i => satU w ((u i).toNat + (v i).toNat)) ∧
    row (.vsubs b vd vs1 vs2 pg wd) .subs (fun i => satS w ((u i).toInt - (v i).toInt)) ∧
    row (.vsubus b vd vs1 vs2 pg wd) .subus (fun i => BitVec.ofNat w ((u i).toNat - (v i).toNat)) ∧
    row (.vand b vd vs1 vs2 pg wd) .and (fun i => u i &&& v i) ∧
    row (.vor b vd vs1 vs2 pg wd) .or (fun i => u i ||| v i) ∧
    row (.vxor b vd vs1 vs2 pg wd) .xor (fun i => u i ^^^ v i) ∧
    row (.vmin b vd vs1 vs2 pg wd) .min (fun i => BitVec.ofInt w (Min.min (u i).toInt (v i).toInt)) ∧
    row (.vmax b vd vs1 vs2 pg wd) .max (fun i => BitVec.ofInt w (Max.max (u i).toInt (v i).toInt)) ∧
    row (.vminu b vd vs1 vs2 pg wd) .minu (fun i => BitVec.ofNat w (Min.min (u i).toNat (v i).toNat)) ∧
    row (.vmaxu b vd vs1 vs2 pg wd) .maxu (fun i => BitVec.ofNat w (Max.max (u i).toNat (v i).toNat)) ∧
    row (.vsll b vd vs1 vs2 pg wd) .sll (fun i => BitVec.ofNat w ((u i).toNat * 2 ^ amount i)) ∧
    row (.vsra b vd vs1 vs2 pg wd) .sra (fun i => BitVec.ofInt w ((u i).toInt / 2 ^ amount i)) ∧
    row (.vsrl b vd vs1 vs2 pg wd) .srl (fun i => BitVec.ofNat w ((u i).toNat / 2 ^ amount i)) ∧
    row (.vmulq b vd vs1 vs2 pg wd) .mulq
      (fun i => satS w (cround ((u i).toInt * (v i).toInt) (w - 1))) ∧
    row (.vmulh b vd vs1 vs2 pg wd) .mulh
      (fun i => ((u i).signExtend (2 * w) * (v i).signExtend (2 * w)).extractLsb' w w) ∧
    row (.vavg b vd vs1 vs2 pg wd) .avg
      (fun i => BitVec.ofInt w (cround ((u i).toInt + (v i).toInt) 1))

/-- R157, R108, R145: the rows with an immediate, one source or an accumulator source do the same; an
accumulator element counts as 16 bits in the number of elements. -/
def Claims.vectorOneSource : Prop :=
  ∀ (b : Issue) (s : State) (c : CtxId) (vd vs1 : BitVec 5) (vd4 vs4 : BitVec 4) (va : BitVec 3)
      (sh : BitVec 5) (pg : BitVec 3) (wd : BitVec 2) (imm : BitVec 6),
    let x := s.ctx (s.tileOf b.core) c
    let w := x.width wd
    let n := min x.vl.toNat (2048 * x.g / w)
    let u (i : Nat) := x.elt vs1 w i
    let amount := imm.toNat % w
    let row (i : Instr) (fn : VImmFn) (f : Nat → BitVec w) : Prop :=
      Claims.writes i (.vimm fn vd vs1 pg wd imm) b s c vd w n pg f
    let narrow (i : Instr) (fn : VNarrowFn) (f : Nat → BitVec w) : Prop :=
      Claims.writes i (.vnarrow fn vd va sh pg wd) b s c vd w
        (min x.vl.toNat (2048 * x.g / max w 16)) pg f
    row (.vaddi b vd vs1 pg wd imm) .addi (fun i => BitVec.ofInt w ((u i).toInt + imm.toInt)) ∧
    row (.vslli b vd vs1 pg wd imm) .slli (fun i => BitVec.ofNat w ((u i).toNat * 2 ^ amount)) ∧
    row (.vsrai b vd vs1 pg wd imm) .srai (fun i => BitVec.ofInt w ((u i).toInt / 2 ^ amount)) ∧
    row (.vsrli b vd vs1 pg wd imm) .srli (fun i => BitVec.ofNat w ((u i).toNat / 2 ^ amount)) ∧
    Claims.writes (.vmovi b vd pg wd imm) (.vimm .movi vd 0 pg wd imm) b s c vd w n pg
      (fun _ => BitVec.ofInt w imm.toInt) ∧
    Claims.writes (.vabs b vd vs1 pg wd) (.vun .abs vd vs1 pg wd) b s c vd w n pg
      (fun i => satS w (Max.max (u i).toInt (-(u i).toInt))) ∧
    Claims.writes (.vneg b vd vs1 pg wd) (.vun .neg vd vs1 pg wd) b s c vd w n pg
      (fun i => satS w (-(u i).toInt)) ∧
    Claims.writes (.vmov b vd4 vs4) (.vun .mov (vd4.setWidth 5) (vs4.setWidth 5) 0 0) b s c
      (vd4.setWidth 5) x.sewBits (min x.vl.toNat (2048 * x.g / x.sewBits)) 0
      (fun i => x.elt (vs4.setWidth 5) x.sewBits i) ∧
    narrow (.vnarrow b vd va sh pg wd) .narrow (fun i => satS w (cround (x.aelt va i).toInt sh.toNat)) ∧
    narrow (.vnarrowu b vd va sh pg wd) .narrowu
      (fun i => satU w (cround (x.aelt va i).toInt sh.toNat)) ∧
    narrow (.vnarrowd b vd va sh pg wd) .narrowd
      (fun i => satS w (cround (x.aelt va i).toInt ((x.rd sh).toNat % 32)))

/-- R108, R145, R147, R148, R157: the integer and fixed-point rows, with two sources, one, an immediate or an
accumulator.
That `vavg` takes signed operands is the model's choice (log entry 111, DESIGN CHOICE). -/
def Obligations.VectorIntegerRows : Prop := Claims.vectorTwoSource ∧ Claims.vectorOneSource

/-- R163, R157: cround(x, s) is the integer nearest to x / 2^s, the even one of two equally near; satS
and satU clamp to the signed and the unsigned range of their width. -/
def Claims.rounding : Prop :=
  (∀ (x : Int) (s : Nat), 2 * (cround x s * 2 ^ s - x) ≤ 2 ^ s ∧ 2 * (x - cround x s * 2 ^ s) ≤ 2 ^ s ∧
    (2 * (cround x s * 2 ^ s - x) = 2 ^ s ∨ 2 * (x - cround x s * 2 ^ s) = 2 ^ s →
      cround x s % 2 = 0 ∨ s = 0)) ∧
  (∀ (w : Nat) (x : Int), 1 ≤ w → (satS w x).toInt = max (-(2 ^ (w - 1))) (min (2 ^ (w - 1) - 1) x)) ∧
  (∀ (w : Nat) (x : Int), ((satU w x).toNat : Int) = max 0 (min (2 ^ w - 1) x))

/-- R158, R164, R148: the multiply-accumulate rows add their products to each active accumulator element
modulo 2^40; in the byte forms a source element at index 2n or above counts as 0. `vclr.acc`, `vmov.va`
and `vmov.vau` write it. R170, R171: `vdwin` moves B into A and its register into B; `vdwmac` adds one
kernel row into the 256 elements of its accumulator pair. Nothing else changes. -/
def Obligations.VectorAccumulatorRows : Prop :=
  ∀ (b : Issue) (s : State) (c : CtxId) (va : BitVec 3) (vs1 vs2 sh : BitVec 5) (pg : BitVec 3),
    let x := s.ctx (s.tileOf b.core) c
    let n := min x.vl.toNat (2048 * x.g / 16)
    let row (i : Instr) (o : Op) (f : Nat → Int) : Prop :=
      Ready b o s c → ∃ y, Does i b s c y ∧
        Claims.accGroup x y va x.g n (x.active pg) fun j => BitVec.ofInt 40 (f j)
    let mac (i : Instr) (fn : VMacFn) (f : Nat → Int) : Prop :=
      row i (.vmac fn va vs1 vs2 pg) fun j => (x.aelt va j).toInt + f j
    let h1 (j : Nat) : Int := (x.elt vs1 16 j).toInt
    let h2 (j : Nat) : Int := (x.elt vs2 16 j).toInt
    let hu1 (j : Nat) : Int := (x.elt vs1 16 j).toNat
    let hu2 (j : Nat) : Int := (x.elt vs2 16 j).toNat
    let b1 (j : Nat) : Int := if j < 2 * n then (x.elt vs1 8 j).toInt else 0
    let b2 (j : Nat) : Int := if j < 2 * n then (x.elt vs2 8 j).toInt else 0
    let bu1 (j : Nat) : Int := if j < 2 * n then (x.elt vs1 8 j).toNat else 0
    let bu2 (j : Nat) : Int := if j < 2 * n then (x.elt vs2 8 j).toNat else 0
    let pair (p q : Nat → Int) (j : Nat) : Int := p (2 * j) * q (2 * j) + p (2 * j + 1) * q (2 * j + 1)
    mac (.vmacH b va vs1 vs2 pg) .h (fun j => h1 j * h2 j) ∧
    mac (.vmacHsu b va vs1 vs2 pg) .hsu (fun j => h1 j * hu2 j) ∧
    mac (.vmacHuu b va vs1 vs2 pg) .huu (fun j => hu1 j * hu2 j) ∧
    mac (.vmsuH b va vs1 vs2 pg) .msuH (fun j => -(h1 j * h2 j)) ∧
    mac (.vmacB b va vs1 vs2 pg) .b (pair b1 b2) ∧
    mac (.vmacBsu b va vs1 vs2 pg) .bsu (pair b1 bu2) ∧
    mac (.vmacBuu b va vs1 vs2 pg) .buu (pair bu1 bu2) ∧
    mac (.vmsuB b va vs1 vs2 pg) .msuB (fun j => -(pair b1 b2 j)) ∧
    row (.vclrAcc b va pg) (.vacc .clr va 0 0 pg) (fun _ => 0) ∧
    row (.vmovVa b va vs1 sh pg) (.vacc .movVa va vs1 sh pg) (fun j => h1 j * 2 ^ sh.toNat) ∧
    row (.vmovVau b va vs1 sh pg) (.vacc .movVau va vs1 sh pg) (fun j => hu1 j * 2 ^ sh.toNat) ∧
    (∀ wr : BitVec 3, Ready b (.vdwin wr vs1) s c →
      let window := x.vreg vs1.toNat ++ (x.wr.get wr.toFin).extractLsb' 2048 2048
      Does (.vdwin b wr vs1) b s c { x with wr := x.wr.set wr.toNat window wr.isLt }) ∧
    (∀ (wr : BitVec 3) (k dil : BitVec 2) (c32 u z : Bool),
      let ch := if c32 then 32 else 16
      let byte (i : Nat) : Byte := (x.wr.get wr.toFin).extractLsb' (8 * i) 8
      let act (i : Nat) : Int := if u then (byte i).toNat else (byte i).toInt
      let weight (i : Nat) : Int := ((x.vreg vs1.toNat).extractLsb' (8 * i) 8).toInt
      Ready b (.vdwmac va wr vs1 k dil c32 u z) s c →
        ∃ y, Does (.vdwmac b va wr vs1 k dil c32 u z) b s c y ∧
          Claims.accGroup x y va 2 256 (fun _ => true) fun j => BitVec.ofInt 40
            ((if z then 0 else (x.aelt va j).toInt) + ((List.range (2 * k.toNat + 3)).map fun kx =>
              act ((j / ch + kx * (dil.toNat + 1)) * ch + j % ch) * weight (kx * ch + j % ch)).sum))

/-- R165: the floating-point rows compute each active element exactly and round it once to its format;
R162: the conversions round or saturate as their rows say, and `vext` and `vins` move one element. R145:
their number of elements follows the wider format. Nothing else changes. -/
def Obligations.VectorFloatRows : Prop :=
  ∀ (b : Issue) (s : State) (c : CtxId) (vd vs1 vs2 : BitVec 5) (pg : BitVec 3) (wd : BitVec 2),
    let x := s.ctx (s.tileOf b.core) c
    let f : Fmt := if wd = 0 then fp32 else bf16
    let w := if wd = 0 then 32 else 16
    let n (w : Nat) := min x.vl.toNat (2048 * x.g / w)
    let num (r : BitVec 5) (i : Nat) : Fp := f.unpack (x.elt r w i).toNat
    let row (i : Instr) (fn : VFpFn) (v2 : BitVec 5) (g : Nat → Fp) : Prop :=
      Claims.writes i (.vfp fn vd vs1 v2 pg wd) b s c vd w (n w) pg
        fun i => BitVec.ofNat w (f.pack (g i))
    let cvt (i : Instr) (fn : VCvtFn) (ws wo : Nat) (g : BitVec ws → BitVec wo) : Prop :=
      Claims.writes i (.vcvt fn vd vs1 pg) b s c vd wo (n (max ws wo)) pg fun i => g (x.elt vs1 ws i)
    row (.vfadd b vd vs1 vs2 pg wd) .add vs2 (fun i => (num vs1 i).add (num vs2 i)) ∧
    row (.vfsub b vd vs1 vs2 pg wd) .sub vs2 (fun i => (num vs1 i).add (num vs2 i).neg) ∧
    row (.vfmul b vd vs1 vs2 pg wd) .mul vs2 (fun i => (num vs1 i).mul (num vs2 i)) ∧
    row (.vfma b vd vs1 vs2 pg wd) .fma vs2 (fun i => (num vd i).add ((num vs1 i).mul (num vs2 i))) ∧
    row (.vfms b vd vs1 vs2 pg wd) .fms vs2
      (fun i => (num vd i).add ((num vs1 i).mul (num vs2 i)).neg) ∧
    row (.vfmin b vd vs1 vs2 pg wd) .min vs2 (fun i => (num vs1 i).min (num vs2 i)) ∧
    row (.vfmax b vd vs1 vs2 pg wd) .max vs2 (fun i => (num vs1 i).max (num vs2 i)) ∧
    row (.vfabs b vd vs1 pg wd) .abs 0 (fun i => (num vs1 i).abs) ∧
    row (.vfneg b vd vs1 pg wd) .neg 0 (fun i => (num vs1 i).neg) ∧
    cvt (.vcvtSW b vd vs1 pg) .sW 32 32 (fun v => toF32 (.ofInt v.toInt)) ∧
    cvt (.vcvtWS b vd vs1 pg) .wS 32 32
      (fun v => BitVec.ofInt 32 ((f32 v).toInt (-(2 ^ 31)) (2 ^ 31 - 1))) ∧
    cvt (.vcvtSBf b vd vs1 pg) .sBf 16 32 (fun v => toF32 (bf16.unpack v.toNat)) ∧
    cvt (.vcvtBfS b vd vs1 pg) .bfS 32 16 (fun v => BitVec.ofNat 16 (bf16.pack (f32 v))) ∧
    cvt (.vcvtSE4 b vd vs1 pg) .sE4 8 32 (fun v => toF32 (unpackE4 v.toNat)) ∧
    cvt (.vcvtSE5 b vd vs1 pg) .sE5 8 32 (fun v => toF32 (e5m2.unpack v.toNat)) ∧
    cvt (.vcvtE4S b vd vs1 pg) .e4S 32 8 (fun v => BitVec.ofNat 8 (packE4 (f32 v))) ∧
    cvt (.vcvtE5S b vd vs1 pg) .e5S 32 8 (fun v => BitVec.ofNat 8 (packE5 (f32 v))) ∧
    cvt (.vcvtHB b vd vs1 pg) .hB 8 16 (fun v => v.signExtend 16) ∧
    cvt (.vcvtHBu b vd vs1 pg) .hBu 8 16 (fun v => v.setWidth 16) ∧
    (let k := (x.rd vs2).toNat
     (Ready b (.vext vd vs1 vs2 pg wd) s c → Does (.vext b vd vs1 vs2 pg wd) b s c
      (x.setD vd (if k < n (x.width wd) then (x.elt vs1 (x.width wd) k).signExtend 32 else 0))) ∧
     (Ready b (.vins vd vs1 vs2 pg wd) s c → ∃ y, Does (.vins b vd vs1 vs2 pg wd) b s c y ∧
      Claims.group x y vd (x.width wd) (n (x.width wd)) (fun i => decide (i = k) && x.active pg i)
        fun _ => (x.rd vs1).setWidth (x.width wd)))

/-- R162, R165: packing what a pattern stands for gives the pattern back, subnormals and the sign of
zero included, but for a NaN, which gives the canonical one; E4M3 and E5M2 saturate at 448 and 57,344,
infinities included, and give 0x7F for a NaN. -/
def Claims.formats : Prop :=
  (∀ v : Nat, v < 2 ^ 32 → fp32.unpack v ≠ .nan → fp32.pack (fp32.unpack v) = v) ∧
  (∀ v : Nat, v < 2 ^ 16 → bf16.unpack v ≠ .nan → bf16.pack (bf16.unpack v) = v) ∧
  fp32.pack .nan = 0x7FC00000 ∧ bf16.pack .nan = 0x7FC0 ∧
  (∀ v : Nat, v < 2 ^ 8 → unpackE4 v ≠ .nan → packE4 (unpackE4 v) = v) ∧
  (∀ v : Nat, v < 2 ^ 8 → (∀ n, e5m2.unpack v ≠ .inf n) → e5m2.unpack v ≠ .nan →
    packE5 (e5m2.unpack v) = v) ∧
  (∀ neg m e, packE4 (.fin neg m e) % 128 ≤ 0x7E ∧ packE5 (.fin neg m e) % 128 ≤ 0x7B) ∧
  packE4 (.inf false) = 0x7E ∧ packE4 (.inf true) = 0xFE ∧ packE4 .nan = 0x7F ∧
  packE5 (.inf false) = 0x7B ∧ packE5 (.inf true) = 0xFB ∧ packE5 .nan = 0x7F ∧
  unpackE4 0x7E = e4m3.number false 15 6 ∧ e5m2.unpack 0x7B = .fin false 7 13

/-- R157, R162, R163, R165: rounding and saturation, and the floating-point formats, on which the rows that round
rest. -/
def Obligations.RoundingAndFormats : Prop := Claims.rounding ∧ Claims.formats

/-- R143: `vsetl` sets VTYPE and VL to the request or VLMAX and writes VL; `vgetl` reads both and
`vsetl.r` restores what it read. R148, R159, R165: the compares and the predicate logic set a bit for each
active element and 0 elsewhere; `pany` and `pall` fill every bit; `pcnt` counts. Nothing else changes. -/
def Obligations.VectorLengthAndPredicateRows : Prop :=
  ∀ (b : Issue) (s : State) (c : CtxId) (rd rs vs1 vs2 : BitVec 5) (sew g wd : BitVec 2)
      (pd ps1 ps2 pg : BitVec 3),
    let x := s.ctx (s.tileOf b.core) c
    let w := x.width wd
    let n (w : Nat) := min x.vl.toNat (2048 * x.g / w)
    let most (sew g : BitVec 2) : Nat := 2048 * 2 ^ g.toNat / (8 * 2 ^ sew.toNat)
    let vl := BitVec.ofNat 12 (min (x.rd rs).toNat (most sew g))
    let word := x.rd rs
    let sews : BitVec 2 := word.extractLsb' 12 2
    let grps : BitVec 2 := word.extractLsb' 14 2
    let u (i : Nat) := x.elt vs1 w i
    let v (i : Nat) := x.elt vs2 w i
    let f : Fmt := if wd = 0 then fp32 else bf16
    let fw := if wd = 0 then 32 else 16
    let num (r : BitVec 5) (i : Nat) : Fp := f.unpack (x.elt r fw i).toNat
    let pred (i : Instr) (o : Op) (n : Nat) (q : Nat → Prop) : Prop :=
      Ready b o s c → ∃ y, Does i b s c y ∧ y = { x with p := y.p } ∧
        (∀ r, r ≠ pd → y.rp r = x.rp r) ∧
        (pd ≠ 0 → ∀ i, (y.rp pd).getLsbD i = true ↔ i < n ∧ x.active pg i = true ∧ q i)
    let fill (i : Instr) (o : Op) (q : Prop) : Prop :=
      Ready b o s c → ∃ y, Does i b s c y ∧ y = { x with p := y.p } ∧
        (∀ r, r ≠ pd → y.rp r = x.rp r) ∧ (pd ≠ 0 → ∀ i, i < 2048 → ((y.rp pd).getLsbD i = true ↔ q))
    let p1 (i : Nat) := (x.rp ps1).getLsbD i = true
    let p2 (i : Nat) := (x.rp ps2).getLsbD i = true
    let m := n (x.width b.width)
    (sew ≠ 3 → Ready b (.vsetl rd rs sew g) s c → Does (.vsetl b rd rs sew g) b s c
      (Ctx.setD { x with sew := sew, grp := g, vl := vl } rd (vl.setWidth 32))) ∧
    (Ready b (.vsetlR rs) s c → Does (.vsetlR b rs) b s c
      (if sews = 3 then { x with vl := 0, sew := 0, grp := 0 }
       else { x with
        vl := BitVec.ofNat 12 (min (word.extractLsb' 0 12).toNat (most sews grps))
        sew := sews
        grp := grps })) ∧
    (Ready b (.vgetl rd) s c →
      Does (.vgetl b rd) b s c (x.setD rd ((x.grp ++ x.sew ++ x.vl).setWidth 32))) ∧
    pred (.vcmpeq b pd vs1 vs2 pg wd) (.vcmp .eq pd vs1 vs2 pg wd) (n w) (fun i => u i = v i) ∧
    pred (.vcmplt b pd vs1 vs2 pg wd) (.vcmp .lt pd vs1 vs2 pg wd) (n w)
      (fun i => (u i).toInt < (v i).toInt) ∧
    pred (.vcmpltu b pd vs1 vs2 pg wd) (.vcmp .ltu pd vs1 vs2 pg wd) (n w)
      (fun i => (u i).toNat < (v i).toNat) ∧
    pred (.vcmple b pd vs1 vs2 pg wd) (.vcmp .le pd vs1 vs2 pg wd) (n w)
      (fun i => (u i).toInt ≤ (v i).toInt) ∧
    pred (.vfcmpeq b pd vs1 vs2 pg wd) (.vcmp .feq pd vs1 vs2 pg wd) (n fw)
      (fun i => num vs1 i ≠ .nan ∧ num vs2 i ≠ .nan ∧ (num vs1 i).cmp (num vs2 i) = 0) ∧
    pred (.vfcmplt b pd vs1 vs2 pg wd) (.vcmp .flt pd vs1 vs2 pg wd) (n fw)
      (fun i => num vs1 i ≠ .nan ∧ num vs2 i ≠ .nan ∧ (num vs1 i).cmp (num vs2 i) < 0) ∧
    pred (.pand b pd ps1 ps2 pg) (.pred .and pd ps1 ps2 pg b.width) m (fun i => p1 i ∧ p2 i) ∧
    pred (.por b pd ps1 ps2 pg) (.pred .or pd ps1 ps2 pg b.width) m (fun i => p1 i ∨ p2 i) ∧
    pred (.pxor b pd ps1 ps2 pg) (.pred .xor pd ps1 ps2 pg b.width) m (fun i => ¬ (p1 i ↔ p2 i)) ∧
    pred (.pnot b pd ps1 pg) (.pred .not pd ps1 0 pg b.width) m (fun i => ¬ p1 i) ∧
    fill (.pany b pd ps1 pg) (.pred .any pd ps1 0 pg b.width) (∃ i, i < m ∧ x.active pg i = true ∧ p1 i) ∧
    fill (.pall b pd ps1 pg) (.pred .all pd ps1 0 pg b.width) (∀ i, i < m → x.active pg i = true → p1 i) ∧
    (Ready b (.pcnt rd ps1 pg b.width) s c → Does (.pcnt b rd ps1 pg) b s c (x.setD rd (BitVec.ofNat 32
      ((List.range m).countP fun i => x.active pg i && (x.rp ps1).getLsbD i))))

/-- R160, R148: the cross-lane permutes write each active element with the source element that their row
names, as the sources were before the bundle. R168, R169: `vlut` looks its elements up, and `vlut.i`
interpolates between neighbouring entries. Nothing else changes. -/
def Obligations.VectorPermuteAndLookupRows : Prop :=
  ∀ (b : Issue) (s : State) (c : CtxId) (vd vs1 vs2 : BitVec 5) (pg : BitVec 3) (wd : BitVec 2)
      (t : BitVec 1),
    let x := s.ctx (s.tileOf b.core) c
    let w := x.width wd
    let n := min x.vl.toNat (2048 * x.g / w)
    let u (i : Nat) := x.elt vs1 w i
    let v (i : Nat) := x.elt vs2 w i
    let k := (x.rd vs2).toNat
    let both (i : Nat) := if i < n then u i else v (i - n)
    let zip (i : Nat) := if i % 2 = 0 then u (i / 2) else v (i / 2)
    let row (i : Instr) (fn : VPermFn) (v2 : BitVec 5) (f : Nat → BitVec w) : Prop :=
      Claims.writes i (.vperm fn vd vs1 v2 pg wd) b s c vd w n pg f
    let entry (i : Nat) := x.lutAt t i
    row (.vperm b vd vs1 vs2 pg wd) .perm vs2
      (fun i => if (v i).toNat < n then u (v i).toNat else 0) ∧
    row (.vslideup b vd vs1 vs2 pg wd) .slideup vs2 (fun i => if k ≤ i then u (i - k) else 0) ∧
    row (.vslidedn b vd vs1 vs2 pg wd) .slidedn vs2 (fun i => if i + k < n then u (i + k) else 0) ∧
    row (.vzipLo b vd vs1 vs2 pg wd) .zipLo vs2 zip ∧
    row (.vzipHi b vd vs1 vs2 pg wd) .zipHi vs2 (fun i => zip (n + i)) ∧
    row (.vunzipE b vd vs1 vs2 pg wd) .unzipE vs2 (fun i => both (2 * i)) ∧
    row (.vunzipO b vd vs1 vs2 pg wd) .unzipO vs2 (fun i => both (2 * i + 1)) ∧
    row (.vrev b vd vs1 pg wd) .rev 0 (fun i => u (n - 1 - i)) ∧
    row (.vtrn b vd vs1 pg wd) .trn 0
      (fun i => if 256 * (i / 256 + 1) ≤ n then u (i / 256 * 256 + i % 16 * 16 + i / 16 % 16) else u i) ∧
    row (.vbcast b vd vs1 pg wd) .bcast 0 (fun _ => (x.rd vs1).setWidth w) ∧
    Claims.writes (.vlut b t vd vs1 pg wd) (.vlut false t vd vs1 pg wd) b s c vd w
      (min x.vl.toNat (2048 * x.g / max w x.sewBits)) pg
      (fun i => (entry ((x.elt vs1 x.sewBits i).toNat % 256)).setWidth w) ∧
    Claims.writes (.vlutI b t vd vs1 pg wd) (.vlut true t vd vs1 pg wd) b s c vd w
      (min x.vl.toNat (2048 * x.g / max w 16)) pg
      (fun i =>
        let a := (x.elt vs1 16 i).toNat
        let lo := (entry (a / 256)).toInt
        let hi := (entry (min (a / 256 + 1) 255)).toInt
        satS w (lo + cround ((hi - lo) * (a % 256 : Nat)) 8))

/-- The pairs of a list added in FP32 (R166). -/
def Claims.pairSums : List Word → List Word
  | a :: b :: l => fadd a b :: Claims.pairSums l
  | _ => []

/-- The tree sum of 2^k values (R166). -/
def Claims.treeSum : Nat → List Word → Word
  | 0, l => l.headD 0
  | k + 1, l => Claims.treeSum k (Claims.pairSums l)

/-- R161, R166, R167: the reductions and searches consider the active elements alone and write a data
register; the searches write the lowest index of the extreme too. Nothing else changes.
The value before the index in one register, and the ignored W field of `vbexp.acc`, are the model's choices
(log entries 88 and 111, DESIGN CHOICE). -/
def Obligations.VectorReductionRows : Prop :=
  ∀ (b : Issue) (s : State) (c : CtxId) (rd vs1 rd2 : BitVec 5) (va pg : BitVec 3) (wd : BitVec 2),
    let x := s.ctx (s.tileOf b.core) c
    let w := x.width wd
    let n (w : Nat) := min x.vl.toNat (2048 * x.g / w)
    let acts (w : Nat) := (List.range (n w)).filter (x.active pg)
    let on (i : Nat) : Prop := i < n w ∧ x.active pg i = true
    let val (i : Nat) := (x.elt vs1 w i).toInt
    let lo : Int := -(2 ^ (w - 1))
    let hi : Int := 2 ^ (w - 1) - 1
    let one (i : Instr) (fn : VRedFn) (v : Word) : Prop :=
      Ready b (.vred fn rd vs1 0 pg wd) s c → Does i b s c (x.setD rd v)
    let extreme (fn : VRedFn) (i : Instr) (empty : Int) (le : Int → Int → Prop) : Prop :=
      Ready b (.vred fn rd vs1 0 pg wd) s c → ∃ m : Int, Does i b s c (x.setD rd (BitVec.ofInt 32 m)) ∧
        (∀ i, on i → le (val i) m) ∧ ((∃ i, on i) → ∃ i, on i ∧ val i = m) ∧
        ((∀ i, ¬ on i) → m = empty)
    let search (fn : VRedFn) (i : Instr) (empty : Int) (lt : Int → Int → Prop) : Prop :=
      Ready b (.vred fn rd vs1 rd2 pg wd) s c →
        ((∀ i, ¬ on i) →
          Does i b s c ((x.setD rd (BitVec.ofInt 32 empty)).setD rd2 0xFFFFFFFF)) ∧
        ∀ k, on k → (∀ j, on j → ¬ lt (val k) (val j) ∧ (j < k → lt (val j) (val k))) →
          Does i b s c ((x.setD rd (BitVec.ofInt 32 (val k))).setD rd2 (BitVec.ofNat 32 k))
    let spare (w : Nat) (v : Nat → Int) (on : Nat → Prop) (r : Nat) : Prop :=
      r ≤ w - 1 ∧ (∀ i, on i → -(2 ^ (w - 1 - r)) ≤ v i ∧ v i < 2 ^ (w - 1 - r)) ∧
        (r = w - 1 ∨ ∃ i, on i ∧ ¬ (-(2 ^ (w - 2 - r)) ≤ v i ∧ v i < 2 ^ (w - 2 - r)))
    let fw := if wd = 0 then 32 else 16
    let num (i : Nat) : Fp := (if wd = 0 then fp32 else bf16).unpack (x.elt vs1 fw i).toNat
    let fon (i : Nat) : Prop := i < n fw ∧ x.active pg i = true ∧ num i ≠ .nan
    let fsearch (fn : VRedFn) (i : Instr) (lt : Fp → Fp → Prop) : Prop :=
      Ready b (.vred fn rd vs1 rd2 pg wd) s c →
        ((∀ i, ¬ fon i) → Does i b s c ((x.setD rd 0x7FC00000).setD rd2 0xFFFFFFFF)) ∧
        ∀ k, fon k → (∀ j, fon j → ¬ lt (num k) (num j) ∧ (j < k → lt (num j) (num k))) →
          Does i b s c ((x.setD rd (toF32 (num k))).setD rd2 (BitVec.ofNat 32 k))
    one (.vredsum b rd vs1 pg wd) .sum (BitVec.ofInt 32 ((acts w).map val).sum) ∧
    one (.vredsumu b rd vs1 pg wd) .sumu
      (BitVec.ofNat 32 ((acts w).map fun i => (x.elt vs1 w i).toNat).sum) ∧
    extreme .max (.vredmax b rd vs1 pg wd) lo (· ≤ ·) ∧
    extreme .min (.vredmin b rd vs1 pg wd) hi (· ≥ ·) ∧
    search .maxi (.vmaxi b rd vs1 rd2 pg wd) lo (· < ·) ∧
    search .mini (.vmini b rd vs1 rd2 pg wd) hi (· > ·) ∧
    (Ready b (.vred .bexp rd vs1 0 pg wd) s c → ∃ r, spare w val on r ∧
      Does (.vbexp b rd vs1 pg wd) b s c (x.setD rd (BitVec.ofNat 32 r))) ∧
    (Ready b (.vred .bexpAcc rd (va.setWidth 5) 0 pg 0) s c → ∃ r,
      spare 40 (fun i => (x.aelt va i).toInt) (fun i => i < n 16 ∧ x.active pg i = true) r ∧
      Does (.vbexpAcc b rd va pg) b s c (x.setD rd (BitVec.ofNat 32 r))) ∧
    (∀ k, n fw ≤ 2 ^ k → (∀ j, n fw ≤ 2 ^ j → k ≤ j) →
      one (.vfredsum b rd vs1 pg wd) .fsum (Claims.treeSum k ((List.range (2 ^ k)).map fun i =>
        if i < n fw ∧ x.active pg i = true then toF32 (num i) else 0))) ∧
    fsearch .fmaxi (.vfmaxi b rd vs1 rd2 pg wd) (fun p q => p.below q = true) ∧
    fsearch .fmini (.vfmini b rd vs1 rd2 pg wd) (fun p q => q.below p = true)

/-- The row of a vector load or store; `off` is the offset of the unit-stride form. -/
def Claims.vmem (fn : VMemFn) (store : Bool) (b : Issue) (v : BitVec 5) (ab : BitVec 4) (pg : BitVec 3)
    (off : VOff) (rx : BitVec 5) (scale : BitVec 2) : Instr :=
  match fn, store with
  | .unit, false => .vld b v ab pg off
  | .unit, true => .vst b v ab pg off
  | .strided, false => .stridedLoad b v ab pg rx
  | .strided, true => .stridedStore b v ab pg rx
  | .twoD, false => .load2d b v ab pg rx
  | .twoD, true => .store2d b v ab pg rx
  | .indexed, false => .gather b v ab pg rx scale
  | .indexed, true => .scatter b v ab pg rx scale

/-- The byte that a load of a local address would find: the store buffer's, or the bank's (R131). -/
def Claims.seen (k : Core) (a : Nat) : Byte := (k.sbByte a).getD (k.byte a)

/-- R172, R156: the address of each element of the vector memory forms, and which of them are checked for
alignment as a whole. -/
def Claims.vectorAddresses : Prop :=
  ∀ (x : Ctx) (ab : BitVec 4) (imm : BitVec 9) (imm3 : BitVec 3) (rx : BitVec 5) (scale : BitVec 2)
      (i : Nat),
    let base := x.ra ab
    let eb := x.sewBits / 8
    let unitAt (ea : Word) : Word := ea + BitVec.ofNat 32 (i * eb)
    let len := if (x.rd rx).toNat % 4096 = 0 then 4096 else (x.rd rx).toNat % 4096
    let whole (ws : List Word) : Bool := ws.all fun w => decide (w.toNat % eb = 0)
    let short := base + BitVec.ofNat 32 (imm3.toNat * (x.vl.toNat * x.sewBits / 8))
    let far := base + BitVec.ofInt 32 (imm.toInt * 64)
    ((x.vaddr .unit ab (.imm imm)).addr i = unitAt far ∧
      (x.vaddr .unit ab (.imm imm)).aligned = whole [far]) ∧
    ((x.vaddr .unit ab (.short imm3)).addr i = unitAt short ∧
      (x.vaddr .unit ab (.short imm3)).aligned = whole [short]) ∧
    ((x.vaddr .unit ab (.reg rx scale)).addr i = unitAt (base + x.rd rx) ∧
      (x.vaddr .unit ab (.reg rx scale)).aligned = whole [base + x.rd rx]) ∧
    ((x.vaddr .strided ab (.reg rx scale)).addr i = base + BitVec.ofInt 32 (i * (x.rd rx).toInt) ∧
      (x.vaddr .strided ab (.reg rx scale)).aligned = whole [base, x.rd rx]) ∧
    ((x.vaddr .twoD ab (.reg rx scale)).addr i =
        base + BitVec.ofInt 32 ((i / len : Nat) * (x.rd (rx + 1)).toInt + (i % len * eb : Nat)) ∧
      (x.vaddr .twoD ab (.reg rx scale)).aligned = whole [base, x.rd (rx + 1)]) ∧
    (let iw := if x.sewBits ≤ 16 then 16 else 32
     x.sew ≠ 3 → (x.vaddr .indexed ab (.reg rx scale)).addr i =
        base + BitVec.ofNat 32 ((x.elt rx iw i).toNat * 2 ^ scale.toNat) ∧
      (x.vaddr .indexed ab (.reg rx scale)).aligned = true ∧
      (x.vaddr .indexed ab (.reg rx scale)).wmax = max x.sewBits iw)

/-- R172 to R179: a vector load whose active elements all lie in local scratchpad writes each of them
from memory, and a vector store each to memory, the higher-numbered element prevailing; no other element,
byte, register or memory changes. A misaligned base or stride raises DALIGN, two elements of one beat in
different rows of a bank raise BANKCF, and the lowest unmapped element is a mid-vector fault: the
elements below it are performed and VELEM names it. -/
def Claims.vectorMemory : Prop :=
  ∀ (fn : VMemFn) (b : Issue) (s : State) (c : CtxId) (v rx : BitVec 5) (ab : BitVec 4) (pg : BitVec 3)
      (scale : BitVec 2) (off : VOff) (loc : Nat → Nat),
    let t := s.tileOf b.core
    let k := s.core t
    let x := s.ctx t c
    let w := x.sewBits
    let eb := w / 8
    let at_ : VOff := if fn = .unit then off else if fn = .indexed then .reg rx scale else .reg rx 0
    let q := x.vaddr fn ab at_
    let n := min x.vl.toNat (2048 * x.g / q.wmax)
    let op (store : Bool) : Op := .vmem fn store v ab pg at_
    let row (store : Bool) := Claims.vmem fn store b v ab pg off rx scale
    let hit (i : Nat) : Prop := i < n ∧ x.active pg i = true
    let here (i : Nat) : Prop := target b.core (q.addr i) = some (.loc (loc i)) ∧ loc i % eb = 0 ∧
      ∀ j, j < eb → k.marked (loc i + j) = false ∧ k.paused (loc i + j) (s.rmapBank t) = false
    let apart (m : Nat) : Prop := fn = .strided ∨ fn = .twoD → ∀ i j, i < m → j < m → hit i → hit j →
      bankOf (loc i) = bankOf (loc j) → loc i / 64 = loc j / 64
    let value (i : Nat) : BitVec w := leVal w (Tab.range 0 k.mem (loc i) eb)
    -- the stores of the elements below `m` show, and nothing else of the core's memory
    let stored (m : Nat) (s' : State) : Prop :=
      (∀ i j, i < m → hit i → j < eb →
        (∀ i', i < i' → i' < m → hit i' → loc i' ≠ loc i) →
        Claims.seen (s'.core t) (loc i + j) = (x.elt v w i).extractLsb' (8 * j) 8) ∧
      (∀ a, (∀ i j, i < m → hit i → j < eb → a ≠ loc i + j) → Claims.seen (s'.core t) a = k.byte a) ∧
      s'.hbm = s.hbm ∧ s'.board = s.board ∧ ∀ u, u ≠ t → s'.core u = s.core u
    x.sew ≠ 3 → k.sb = [] →
      (q.aligned = true → (∀ i, hit i → here i) → apart n →
        (Ready b (op false) s c → ∃ y, Does (row false) b s c y ∧
          Claims.group x y v w n (x.active pg) value) ∧
        (Ready b (op true) s c → ∃ s', exec (row true) s = .next s' ∧
          Retired b s s' c (x.pc + 4) x ∧ stored n s')) ∧
      (x.exl = false → q.aligned = false → ∀ store, Ready b (op store) s c →
        Raises (row store) b s c 0x06 q.ea x) ∧
      (x.exl = false → q.aligned = true → fn = .strided ∨ fn = .twoD → (∀ i, hit i → here i) →
        (∃ i j, i < j ∧ hit i ∧ hit j ∧ i / 16 = j / 16 ∧ (∀ m, m ≤ j → hit m) ∧
          bankOf (loc i) = bankOf (loc j) ∧ loc i / 64 ≠ loc j / 64) →
        ∀ store, Ready b (op store) s c → ∃ j, hit j ∧ Raises (row store) b s c 0x08 (q.addr j) x) ∧
      (∀ m, x.exl = false → q.aligned = true → hit m → target b.core (q.addr m) = none →
        (fn = .indexed → (q.addr m).toNat % eb = 0) → (∀ i, i < m → hit i → here i) →
        (fn = .strided ∨ fn = .twoD → ∀ i j, hit i → hit j → target b.core (q.addr i) ≠ none →
          target b.core (q.addr j) ≠ none → i = j) →
        (Ready b (op false) s c → ∃ y z, Raises (row false) b s c 0x0C 0 z ∧
          z = { y with velem := z.velem } ∧ z.velem.toNat = m % 4096 + 0x3000 + 0x50000 ∧
          Claims.group x y v w m (x.active pg) value) ∧
        (Ready b (op true) s c → ∃ (s' : State) (z : Ctx), exec (row true) s = .next s' ∧
          s'.ctx t c = Ctx.enter { z with cycles := z.cycles + 1 } 0x0C 0 false (x.pc.setWidth 20) ∧ z = { x with velem := z.velem } ∧
          z.velem.toNat = m % 4096 + 0x7000 + 0x50000 ∧ stored m s'))

/-- R168: `vlutld` loads a lookup table from 1 KiB of local scratchpad and `vlutst` stores one there; a
misaligned address raises DALIGN and one outside local WM, AM and PM raises DADDR, with no effect. -/
def Claims.lookupMemory : Prop :=
  ∀ (b : Issue) (s : State) (c : CtxId) (tab : BitVec 1) (ab : BitVec 4) (off : VOff),
    let t := s.tileOf b.core
    let k := s.core t
    let x := s.ctx t c
    let ea := x.vea ab off
    (∀ a, ea.toNat % 64 = 0 → target b.core ea = some (.loc a) → localRange a 1024 = true → k.sb = [] →
      (∀ i, i < 1024 → k.marked (a + i) = false ∧ k.paused (a + i) (s.rmapBank t) = false) →
      (Ready b (.vlutMem false tab ab off) s c → ∃ y, Does (.vlutld b tab ab off) b s c y ∧
        y = { x with lut := y.lut } ∧ (∀ u i, u ≠ tab → y.lutAt u i = x.lutAt u i) ∧
        ∀ i, i < 256 → y.lutAt tab i = leVal 32 (Tab.range 0 k.mem (a + 4 * i) 4)) ∧
      (Ready b (.vlutMem true tab ab off) s c → ∃ s', exec (.vlutst b tab ab off) s = .next s' ∧
        Retired b s s' c (x.pc + 4) x ∧
        (∀ i j, i < 256 → j < 4 →
          Claims.seen (s'.core t) (a + 4 * i + j) = (x.lutAt tab i).extractLsb' (8 * j) 8) ∧
        (∀ a', a' < a ∨ a + 1024 ≤ a' → Claims.seen (s'.core t) a' = k.byte a') ∧
        s'.hbm = s.hbm ∧ s'.board = s.board ∧ ∀ u, u ≠ t → s'.core u = s.core u)) ∧
    (x.exl = false → ∀ store, Ready b (.vlutMem store tab ab off) s c →
      let row := if store then Instr.vlutst b tab ab off else Instr.vlutld b tab ab off
      (ea.toNat % 64 ≠ 0 → Raises row b s c 0x06 ea x) ∧
      (ea.toNat % 64 = 0 → (∀ a, target b.core ea = some (.loc a) → localRange a 1024 = false) →
        Raises row b s c 0x05 ea x))

/-- R156, R168, R172 to R179: the addresses of the vector memory forms, what their rows do, and the rows of the
lookup tables' memory.
The address forms of `vlutld` and `vlutst`, their ignored pg field and their EADDR, the beats of a gather
and the waiting of requests beyond 32 are the model's choices (log entries 89, 90, 94 and 111, DESIGN
CHOICE). -/
def Obligations.VectorMemoryRows : Prop := Claims.vectorAddresses ∧ Claims.vectorMemory ∧ Claims.lookupMemory
/-! ### Events of the cores and of the mesh -/

/-- Counter `i` of a page. -/
def Claims.cnt (s : State) (c : PageClass) (i : Nat) : DWord := Tab.get 0 (s.page (pageNo c)).counters i

/-- A completion record of ring `r` is written at once: no earlier one of the ring waits, and its place is in
no recovering partition and at a channel that takes requests (R369, R421). -/
def Claims.recordGoes (s : State) (r : Nat) : Prop :=
  (∀ y ∈ s.disp.late, Late.of r y = false) ∧
  match (s.xlateShared (ringFn r) (s.ring r).recordAt .dispatcher true 0).1 with
  | .held _ => False
  | .refused _ => True
  | .ok dpa => s.hbmHeld (ringFn r) dpa 32 = false

/-- R77, R82, R100, R135, R366, R369, R373: JOB_ASSIGN gives the first ready job to the core that
takes it, whose IDLE context starts with the set-up of job start and its descriptor copy in AM; `ctx.end`
ends a job: the context is IDLE, the job entry is free and the ring's next completion record is written.
Where the descriptor copy lies, and which core takes the job, are the model's (log entries 25, DESIGN
CHOICE, and 78, DEDUCED). -/
def Obligations.JobRows : Prop :=
  (∀ (s : State) (entry : Nat) (j : Job) (n : LCore) (c : CtxId),
    let s1 := s.admitReturned
    let t := s1.tileOf n
    let x := s1.ctx t c
    s1.firstReady (fun j => !s1.someCore j || (s1.pickCore j).isSome) = some (entry, j) →
    s1.jobLate j = false → s1.pickCore j = some n → s1.argFetch j ≠ none → s1.disp.jobs.get n = [] → x.run = .idle →
    (∀ d, d < c → (s1.ctx t d).run ≠ .idle) →
    ∃ s' y, exec .jobAssign s = .next s' ∧ y = s'.ctx t c ∧ (y.run = .ready ∨ y.run = .running) ∧
      y.pc = x.jobentry.setWidth 32 ∧ y.ra 15 = x.kstack ∧ y.func = ringFn j.ring.toNat ∧
      y.priv = true ∧ y.exl = false ∧ y.ie = x.ie ∧ y.jobSeq = j.desc.extractLsb' 32 32 ∧ y.cycles = 0 ∧
      y.vl = 0 ∧ y.sew = 0 ∧ y.grp = 0 ∧ y.v = x.v ∧ y.va = x.va ∧ y.p = x.p ∧ y.wr = x.wr ∧
      y.lut = x.lut ∧ y.hbmWin = x.hbmWin ∧ (∀ r, r ≠ 0 → y.rd r = x.rd r) ∧
      (∀ r, r ≠ 15 → y.ra r = x.ra r) ∧
      0x400000 ≤ (y.rd 0).toNat ∧ (y.rd 0).toNat + 64 ≤ 0x800000 ∧
      (s'.core t).bytes (y.rd 0).toNat 64 = leBytes j.desc 64 ∧
      s'.tracked entry = none ∧
      s'.disp.jobs.get n = [⟨j, s1.time, some c, y.rd 0, false, false⟩]) ∧
  (∀ (s : State) (entry : Nat) (j : Job),
    let s1 := s.admitReturned
    s1.firstReady (fun j => !s1.someCore j || (s1.pickCore j).isSome) = some (entry, j) →
    (s1.jobLate j = true → exec .jobAssign s = .next (s1.retireTracked entry 0x03 false)) ∧
    (s1.jobLate j = false → (s1.pickCore j).isSome = true → s1.argFetch j = none → exec .jobAssign s = .next s1) ∧
    ((ringDesc j.desc).type = 0 → s1.argFetch j = some s1) ∧
    (s1.jobLate j = false → s1.someCore j = false →
      exec .jobAssign s = .next (s1.retireTracked entry 0x05 false))) ∧
  (∀ (b : Issue) (s : State) (c : CtxId),
    let t := s.tileOf b.core
    let x := s.ctx t c
    Ready b .ctxEnd s c →
      (x.stores ≠ 0 ∨ (s.core t).sbOwn c = true → Waits (.ctxEnd b) b s c) ∧
      (x.stores = 0 → (s.core t).sbOwn c = false → x.deferred = none → s.disp.jobs.get b.core = [] →
        ∃ s', exec (.ctxEnd b) s = .next s' ∧ (s'.ctx t c).run = .idle ∧ (s'.ctx t c).jobSeq = 0 ∧
          (s'.ctx t c).d = x.d ∧ (s'.ctx t c).v = x.v ∧ s'.disp = s.disp ∧ s'.rings = s.rings) ∧
      (∀ j, x.stores = 0 → (s.core t).sbOwn c = false → x.deferred = none →
        s.disp.jobs.get b.core = [j] → j.ctx = some c → j.replay = false → j.cancel = false →
        (s.ring j.job.ring.toNat).committed = true → Claims.recordGoes s j.job.ring.toNat →
        ∃ s', exec (.ctxEnd b) s = .next s' ∧ (s'.ctx t c).run = .idle ∧
          s'.disp.jobs.get b.core = [] ∧
          (s'.ring j.job.ring.toNat).ctail = (s.ring j.job.ring.toNat).ctail + 1 ∧
          (s'.ring j.job.ring.toNat).reserved = (s.ring j.job.ring.toNat).reserved - 1))

/-- R79, R125, R126, R130, R135, R137, R138: the store buffer's head drains to its bank; the fetch buffer
keeps the four latest lines, filled in turn ahead of the running context; a context that has issued for its quantum
passes the core on, and not before; an interrupt, and a STOP request, are taken between bundles; STOP asks each named
context that is neither IDLE nor HALTED, ending a wait whose operation has not been performed yet; system
firmware alone returns a HALTED context to IDLE with its registers clear.
What a STOP makes of an abandoned wait, the order of interrupt sources, the registers that CTX_RESET clears,
what CTX_CYCLES leaves out, and a CORE_STOP at the page of a gated island, are the model's (log entries 13,
21 and 26, DEDUCED; 92, 95 and 114, DESIGN CHOICE). -/
def Obligations.CoreEvents : Prop :=
  ∀ (s : State) (core : LCore) (c : CtxId),
    let t := s.tileOf core
    let k := s.core t
    let x := s.ctx t c
    let elsewhere (s' : State) (u : Tile) : Prop :=
      (∀ v, v ≠ u → s'.core v = s.core v) ∧ s'.hbm = s.hbm ∧ s'.disp = s.disp ∧ s'.rings = s.rings
    -- no operation of the next bundle is performed, and no request of the one before waits
    let still (x : Ctx) : Prop := x.done = [] ∧ x.fault = none ∧ x.sending = []
    (k.sb = [] → exec (.storeBufferDrain core) s = .next s) ∧
    (∀ e rest, k.sb = e :: rest → s.bankHeld t (64 * e.block) = false → Tab.wf none e.bytes = true →
      ∃ s', exec (.storeBufferDrain core) s = .next s' ∧ (s'.core t).sb = rest ∧
        (∀ a, (s'.core t).byte a = (Tab.get none e.bytes a).getD (k.byte a)) ∧
        (s'.core t).ctxs = k.ctxs ∧ elsewhere s' t ∧ s'.pages = s.pages) ∧
    (∀ (line : BitVec 14) (ahead : Nat), k.running = some c → line.toNat = x.pc.toNat / 64 + ahead → ahead ≤ 4 →
      (∀ f ∈ k.fetchBuf, f.line ≠ line.toNat) → (∀ f, k.resume.get c = some f → f.line ≠ line.toNat) →
      (∀ i, i < ahead → ∃ f, f.line = x.pc.toNat / 64 + i ∧ (f ∈ k.fetchBuf ∨ k.resume.get c = some f)) →
      ∃ s', exec (.fetchLineReturn core none line) s = .next s' ∧
        (s'.core t).fetchBuf = (s.codeLine t line.toNat :: k.fetchBuf).take 4 ∧
        (s'.core t).ctxs = k.ctxs ∧ elsewhere s' t) ∧
    (∀ line : BitVec 14, x.pc.toNat / 64 = line.toNat →
      ∃ s', exec (.fetchLineReturn core (some c) line) s = .next s' ∧
        (∀ d, (s'.core t).resume.get d = if d = c then some (s.codeLine t line.toNat) else k.resume.get d) ∧
        (s'.core t).ctxs = k.ctxs ∧ elsewhere s' t) ∧
    (k.running = some c → s.frozen t = false → k.last = c → s.quantumOf t ≤ k.quantum → still x → (∃ d, d ≠ c ∧ (s.ctx t d).run = .ready) →
      ∃ s' d, exec (.quantumExpiry core) s = .next s' ∧ d ≠ c ∧ (s.ctx t d).run = .ready ∧
        s'.ctx t c = { x with run := .ready } ∧ s'.ctx t d = { s.ctx t d with run := .running } ∧
        elsewhere s' t) ∧
    (k.running = some c → (∀ d, d ≠ c → (s.ctx t d).run ≠ .ready) ∨ k.quantum < s.quantumOf t →
      exec (.quantumExpiry core) s = .next s) ∧
    (∀ src rest, x.irqs = src :: rest → x.ie = true → (x.run = .running ∨ x.run = .ready) → still x →
      s.frozen t = false → x.exl = false → ∃ s' r, exec (.coreIrq core c) s = .next s' ∧
        s'.ctx t c = { Ctx.enter { x with irqs := rest } 0x20 src false (x.pc.setWidth 20) with
          run := r } ∧ elsewhere s' t) ∧
    (x.irqs = [] ∨ x.ie = false → exec (.coreIrq core c) s = .next s) ∧
    (∀ (w : Who) (tile : Tile) (req : BitVec 4), s.mayWrite w (.core tile.val) = true →
      s.gatedPage (.core tile.val) = true → ∃ s', exec (.coreStop w tile req) s = .next s' ∧ s'.cores = s.cores ∧
        (s'.page (pageNo (.core tile.val))).held = (s.page (pageNo (.core tile.val))).held ++
          [⟨w, 0x084, .b4, req.setWidth 64⟩]) ∧
    (∀ (w : Who) (tile : Tile) (req : BitVec 4), s.mayWrite w (.core tile.val) = true →
      s.gatedPage (.core tile.val) = false →
      ∃ s', exec (.coreStop w tile req) s = .next s' ∧ ∀ d : CtxId,
        let asked := req.getLsbD d.val = true ∧ (s.ctx tile d).run ≠ .idle ∧ (s.ctx tile d).run ≠ .halted
        (asked → (s'.ctx tile d).stopReq = true ∧
          (s.waitPerformed ((s.lcoreOf tile).getD 0) d = false → (s'.ctx tile d).run ≠ .blocked)) ∧
        (¬ asked → (s'.ctx tile d).stopReq = (s.ctx tile d).stopReq)) ∧
    (x.stopReq = true → (x.run = .running ∨ x.run = .ready) → still x → s.frozen t = false → x.exl = false →
      ∃ s' r, exec (.stopTaken core c) s = .next s' ∧
        s'.ctx t c = { Ctx.enter { x with stopReq := false } 0x10 0 false (x.pc.setWidth 20) with
          run := r } ∧ elsewhere s' t) ∧
    (∀ (tile : Tile) (f : Func), exec (.coreCtxReset (.func f) tile c) s = .next s) ∧
    (∀ tile : Tile, (s.ctx tile c).run = .halted →
      (∀ n, s.lcoreOf tile = some n → s.jobOn n c = none) →
      ∃ s', exec (.coreCtxReset .firmware tile c) s = .next s' ∧ (s'.ctx tile c).run = .idle ∧
        (s'.ctx tile c).d = Vector.replicate 32 0 ∧ (s'.ctx tile c).a = Vector.replicate 16 0 ∧
        (s'.ctx tile c).status = 0 ∧ (s'.ctx tile c).excCause = (s.ctx tile c).excCause ∧
        (s'.ctx tile c).excAddr = (s.ctx tile c).excAddr ∧ ∀ d, d ≠ c → s'.ctx tile d = s.ctx tile d)

/-- Mailbox `m` of a core covers `n` bytes at `a` (R313). -/
def Claims.covers (k : Core) (m a n : Nat) : Prop :=
  (k.mb m).en = true ∧ (k.mb m).base.toNat ≤ a ∧
    a + n ≤ (k.mb m).base.toNat + 64 * (k.mb m).size.toNat

/-- R81, R93, R132, R298, R304, R311 to R314, R533: the first request for a core is performed there: a
read is answered with its bytes, a write into a mailbox with GRANT for its sender is performed and counts
GRANT down, and any other write is refused with no effect; a credit operation is applied. The answers end
loads, stores and credit waits, unless the core is paused (R30); a refused store is a deferred fault. A request answered
RETRY is sent again, ahead of its sender's later ones (R133).
How the requests of one core count against the 32, and how they wait, are the model's (log entries 22,
DEDUCED, and 94, DESIGN CHOICE). -/
def Obligations.MeshEvents : Prop :=
  ∀ (s : State) (core : LCore) (c : CtxId),
    let t := s.tileOf core
    let k := s.core t
    let x := s.ctx t c
    (∀ pre r post, s.board.mesh = pre ++ r :: post → (∀ q ∈ pre, q.dst ≠ core ∨ q.body.isCredit = true) →
      r.dst = core → r.body.isCredit = false → (∀ q ∈ s.board.retried, q.src ≠ r.src) → s.recovering (partOf core) = false →
      s.recovering (partOf r.src) = false → s.frozen t = false →
      (∀ a, r.body.bank = some a → s.bankHeld t a = false) →
      (∀ id pos a n want, r.body = .read id pos a n want →
          (∀ i, i < n → want.getD i true = true → k.marked (a + i) = false) →
        ∃ s', exec (.remoteRequest core) s = .next s' ∧ s'.board.mesh = pre ++ post ∧
          s'.board.answers = s.board.answers ++ [⟨r.src, r.agent, .data id pos (k.bytes a n)
            (List.replicate n false)⟩] ∧ s'.cores = s.cores ∧ s'.hbm = s.hbm) ∧
      (∀ a data issued, r.body = .write a data issued →
        (∀ m, m < 64 → Claims.covers k m a data.length →
          (∀ j, j < m → ¬ Claims.covers k j a data.length) →
          ((k.mb m).sender.toNat = 0x3F ∨ (k.mb m).sender.toNat = r.src.val) →
          (k.mb m).func.toNat = r.func.val → (k.mb m).grant ≠ 0 →
          ∃ s', exec (.remoteRequest core) s = .next s' ∧ s'.board.mesh = pre ++ post ∧
            s'.board.answers = s.board.answers ++ [⟨r.src, r.agent, .written⟩] ∧
            (∀ i, (s'.core t).byte i = if a ≤ i ∧ i < a + data.length then
              (data.getD (i - a) none).getD (k.byte i) else k.byte i) ∧
            (∀ j, (s'.core t).mb j = if j = m then { k.mb m with grant := (k.mb m).grant - 1 }
              else k.mb j) ∧ ∀ u, u ≠ t → s'.core u = s.core u) ∧
        ((∀ m, m < 64 → Claims.covers k m a data.length →
            (k.mb m).grant = 0 ∨ (k.mb m).func.toNat ≠ r.func.val ∨
            ((k.mb m).sender.toNat ≠ 0x3F ∧ (k.mb m).sender.toNat ≠ r.src.val)) →
          ∃ s', exec (.remoteRequest core) s = .next s' ∧
            s'.board.answers = s.board.answers ++ [⟨r.src, r.agent, .refused 0x0F issued⟩] ∧
            (∀ u, (s'.core u).mem = (s.core u).mem ∧ (s'.core u).mbx = (s.core u).mbx) ∧
            (s'.core t).nocrAddr = BitVec.ofNat 32 a))) ∧
    (∀ pre r post op put mbx data, s.board.mesh = pre ++ r :: post →
      (∀ q ∈ pre, q.dst ≠ core ∨ q.body.isCredit = false) → r.dst = core →
      (∀ q ∈ s.board.retried, q.src ≠ r.src) → r.body = .credit op put mbx data → s.recovering (partOf core) = false →
      s.recovering (partOf r.src) = false → s.frozen t = false → k.clearing = false →
      let out := (k.mb mbx.toNat).creditOp core r.src r.func put data
      ∃ s', exec (.creditOpRequest core) s = .next s' ∧ s'.board.mesh = pre ++ post ∧
        s'.board.answers = s.board.answers ++ [⟨r.src, r.agent, .credit op out.1⟩] ∧
        (∀ j, (s'.core t).mb j = if j = mbx.toNat then out.2 else k.mb j) ∧
        (s'.core t).mem = k.mem ∧ ∀ u, u ≠ t → s'.core u = s.core u) ∧
    (∀ pre post id pos bytes marks l rd size, s.board.answers =
        pre ++ ⟨core, .ctx c, .data id pos bytes marks⟩ :: post → (∀ q ∈ pre, q.dst ≠ core) → s.frozen t = false →
      k.loads.find? (fun l => l.id == id) = some l → l.dst = .data rd size → l.reqs.map Prod.fst = [pos] → l.ctx = c →
      (∀ m ∈ marks, m = false) →
      ∃ s', exec (.loadDataArrival core) s = .next s' ∧ s'.board.answers = pre ++ post ∧
        (s'.core t).loads = k.loads.filter (fun l => l.id != id) ∧
        (s'.ctx t c).rd rd = (match size with
          | .byte => (leVal 8 bytes).setWidth 32
          | .half => (leVal 16 bytes).signExtend 32
          | .word => leVal 32 bytes) ∧
        (∀ r, r ≠ rd → (s'.ctx t c).rd r = x.rd r) ∧
        (x.run = .blocked → x.wait = .load id → (s'.ctx t c).run ≠ .blocked) ∧
        ∀ u, (s'.core u).mem = (s.core u).mem) ∧
    (∀ pre post, s.board.answers = pre ++ ⟨core, .ctx c, .written⟩ :: post → (∀ q ∈ pre, q.dst ≠ core) →
      s.frozen t = false →
      ∃ s', exec (.remoteAck core) s = .next s' ∧ s'.board.answers = pre ++ post ∧
        s'.ctx t c = { x with stores := x.stores - 1 } ∧ s'.pages = s.pages) ∧
    (∀ pre post cause issued, s.board.answers =
        pre ++ ⟨core, .ctx c, .refused cause issued⟩ :: post → (∀ q ∈ pre, q.dst ≠ core) →
      s.frozen t = false → x.deferred = none → ∃ s', exec (.remoteAck core) s = .next s' ∧ s'.board.answers = pre ++ post ∧
        s'.ctx t c = { x with stores := x.stores - 1, deferred := some ⟨cause, issued, none⟩ }) ∧
    (∀ pre post op op' v, s.board.answers = pre ++ ⟨core, .ctx c, .credit op' v⟩ :: post →
      (∀ q ∈ pre, q.dst ≠ core) → s.frozen t = false → x.run = .blocked → x.wait = .credit op →
      ∃ s' r, exec (.creditOpReply core c) s = .next s' ∧ s'.board.answers = pre ++ post ∧
        r ≠ .blocked ∧ s'.ctx t c = { x with
          run := r, block := 0, wait := .none, done := x.done ++ [(op, v)] }) ∧
    (∀ pre r post, s.board.retried = pre ++ r :: post → (∀ q ∈ pre, q.src ≠ core) → r.src = core →
      ∀ i, i = Instr.remoteRetryResend core ∨
          (i = .retryResend core ∧ ∀ f y, y ∈ (s.pq f).flight → y.again = []) →
        exec i s = .next { s with board := { s.board with
          retried := pre ++ post, mesh := r :: s.board.mesh } })

/-- R302, R303, R305, R349: the tag unit serves the oldest waiter that its slot lets pass, as its access
would have been performed at once; a wait at its limit ends in TAG_TIMEOUT at its bundle, a remote one once
its cancel is answered, a channel's with status 0x48; a cancel takes the waiting access away, and does nothing where the
access has been performed. R381, R384, R385: a bank applies the first operation
for it and answers; an answer, and a time-out, end a wait.
The blocking of a remote `st.t`, the order of waiters and EADDR of a time-out, the limits of `sync.wait` and
what a cancel may take are the model's readings (log entries 12, 37, 99 and 102, DEDUCED). -/
def Obligations.TagAndSyncEvents : Prop :=
  ∀ (s : State) (core : LCore) (c : CtxId),
    let t := s.tileOf core
    let k := s.core t
    let x := s.ctx t c
    let wakes (s' : State) (y : Ctx) : Prop := ∃ r, r ≠ CtxRun.blocked ∧
      s'.ctx t c = { y with run := r, block := 0, wait := .none }
    (∀ op acc since slot rest, k.waiters = (core, .ctx c) :: rest → x.run = .blocked → x.wait = .tag op acc since →
      slot.toNat = slotOf acc.addr → k.tagged slot.toNat = true →
      (k.full slot.toNat = true ↔ acc.fn = .peek ∨ acc.fn = .take) → k.marked acc.addr = false →
      (∀ r ∈ k.parked, ¬ (r.src = core ∧ r.agent = .ctx c)) → s.recovering (partOf core) = false →
      (∀ i, i < MemSize.bytes acc.size → k.sbByte (acc.addr + i) = none) → s.frozen t = false → s.bankHeld t (slotAddr slot.toNat) = false →
      let n := MemSize.bytes acc.size
      let value : Word := if acc.fn = .peek ∨ acc.fn = .take then
        BitVec.ofNat 32 (ofLe (k.bytes acc.addr n)) else 0
      ∃ s', exec (.tagWaitServe core slot) s = .next s' ∧ (s'.core t).waiters = rest ∧
        wakes s' { x with done := x.done ++ [(op, value)] } ∧
        (∀ p, (s'.core t).full p = if p = slot.toNat then
            (match acc.fn with
              | .peek | .stT => k.full p
              | .take => false
              | .put => true)
          else k.full p) ∧
        (∀ a, (s'.core t).byte a =
          if (acc.fn = .stT ∨ acc.fn = .put) ∧ acc.addr ≤ a ∧ a < acc.addr + n then
            acc.data.extractLsb' (8 * (a - acc.addr)) 8 else k.byte a)) ∧
    (let past (since : DWord) : Prop :=
      1000 * (fld (s.live (.spad t.val) 0x040) 0 24).toNat ≤ (s.time - since).toNat
     (∀ op acc since, x.run = .blocked → x.wait = .tag op acc since →
      (¬ past since → exec (.tagTimeout core (.inl c)) s = .next s) ∧
      (past since → ∃ s', exec (.tagTimeout core (.inl c)) s = .next s' ∧
        (s'.core t).waiters = k.waiters.erase (core, .ctx c) ∧
        wakes s' { x with fault := some (0x09, acc.dad) } ∧ (s'.core t).mem = k.mem ∧
        (s'.core t).tags = k.tags)) ∧
     (∀ op dad since, x.wait = .remoteTag op dad false since →
      (¬ past since → exec (.tagTimeout core (.inl c)) s = .next s) ∧
      (past since → ∃ s', exec (.tagTimeout core (.inl c)) s = .next s' ∧
        s'.board.mesh = s.board.mesh ++ [⟨core, .ctx c, x.func, remoteOf dad, .cancel⟩] ∧
        s'.ctx t c = { x with wait := .remoteTag op dad true since } ∧ s'.pages = s.pages)) ∧
     (∀ ch : Fin 8, (k.dma.get ch).run = .waiting → past (k.dma.get ch).since →
      ∃ s', exec (.tagTimeout core (.inr ch)) s = .next s' ∧
        ((s'.core t).dma.get ch).run = .error ∧ ((s'.core t).dma.get ch).status = 0x48)) ∧
    (∀ pre post op dad sent since, s.board.answers = pre ++ ⟨core, .ctx c, .cancelled⟩ :: post →
      (∀ q ∈ pre, q.dst ≠ core) → s.frozen t = false → x.run = .blocked → x.wait = .remoteTag op dad sent since →
      ∃ s', exec (.tagCancelReply core c) s = .next s' ∧ s'.board.answers = pre ++ post ∧
        wakes s' { x with fault := some (0x09, dad) }) ∧
    (∀ pre r post, s.board.mesh = pre ++ r :: post → (∀ q ∈ pre, q.dst ≠ core ∨ q.body.isCredit = true) →
      r.dst = core → r.body = .cancel → s.recovering (partOf core) = false → s.recovering (partOf r.src) = false →
      s.frozen t = false → k.clearing = false →
      (s.stillWaits r = true → ∃ s', exec (.remoteRequest core) s = .next s' ∧
        s'.board.answers = s.board.answers ++ [⟨r.src, r.agent, .cancelled⟩] ∧
        (∀ q, q ∈ (s'.core t).parked ↔ q ∈ k.parked ∧ ¬ (q.sameWay r = true ∧
          ∃ op fn size a data issued, q.body = .tagged op fn size a data issued)) ∧
        (s'.core t).mem = k.mem ∧ (s'.core t).tags = k.tags) ∧
      (s.stillWaits r = false → exec (.remoteRequest core) s =
        .next { s with board := { s.board with mesh := pre ++ post } })) ∧
    (∀ pre r post (bank : BitVec 2), s.sync.queue = pre ++ r :: post →
      (∀ q ∈ pre, q.obj.toNat % 4 ≠ bank.toNat) → r.obj.toNat % 4 = bank.toNat →
      (r.src.checked = true → s.syncOwner r.obj = some r.func) →
      let v := s.obj r.obj
      let leaves (v' : DWord) (also : State → Prop) : Prop := ∃ s', exec (.syncBankOp bank) s = .next s' ∧
        s'.obj r.obj = v' ∧ (∀ o, o ≠ r.obj → s'.obj o = s.obj o) ∧ also s'
      let answers (ok : Bool) (s' : State) : Prop :=
        ∀ lc d op, r.src = .ctx lc d op → (⟨lc, d, op, v, ok⟩ : SyncAns) ∈ s'.sync.answers
      (∀ a, r.op = .add a → leaves (v + a) fun _ => True) ∧
      (∀ a, r.op = .set a → leaves a fun _ => True) ∧
      (∀ e a, r.op = .cas e a → leaves (if v = e then a else v) (answers (decide (v = e)))) ∧
      (r.op = .read → leaves v (answers true)) ∧
      (∀ thr, r.op = .wait thr → thr.toNat ≤ v.toNat → leaves v (answers true)) ∧
      (∀ thr lc d op, r.op = .wait thr → v.toNat < thr.toNat → r.src = .ctx lc d op →
        leaves v fun s' =>
          Tab.get none s'.sync.slots (4 * lc.val + d.val) = some ⟨.ctx lc d, r.obj, thr⟩)) ∧
    (∀ a op obj since, s.sync.answers.find? (fun a => a.lc == core && a.c == c) = some a →
      x.run = .blocked → x.wait = .sync op obj since →
      ∃ s', exec (.syncReply core c) s = .next s' ∧
        wakes s' { x with done := x.done ++ [(op, a.value.extractLsb' 0 32),
          (op + 32, a.value.extractLsb' 32 32), (op + 64, if a.ok then 1 else 0)] } ∧
        s'.sync.objs = s.sync.objs) ∧
    (∀ op obj since, x.run = .blocked → x.wait = .sync op obj (some since) →
      let default := (fld (s.live .disp 0x080) 0 24).toNat
      let us : Nat := match s.jobOn core c with
        | some j => if (ringDesc j.job.desc).wtimeout = 0 then default else (ringDesc j.job.desc).wtimeout.toNat
        | none => default
      ((s.time - since).toNat < 1000 * us → exec (.syncTimeout core c) s = .next s) ∧
      (1000 * us ≤ (s.time - since).toNat → (∀ a ∈ s.sync.answers, ¬ (a.lc = core ∧ a.c = c)) →
        ∃ s', exec (.syncTimeout core c) s = .next s' ∧
          wakes s' { x with fault := some (0x0A, obj.setWidth 32) } ∧
          Tab.get none s'.sync.slots (4 * core.val + c.val) = none ∧ s'.sync.objs = s.sync.objs))
/-! ### Events of the matrix array and the stripe engine -/

/-- R193, R194, R205, R210, R214, R220: a queued job that comes next starts its feed when it passes its
set-up, and ends with its code when it does not; the feed gives the sums of the result's formula; the
epilogue of a plain FP32 job writes them to its output and nothing else; the head job that has finished
completes in order, with its interrupt. An array that is out starts no job (R239), and a paused bank holds what needs it
(R319). R262, R268, R270, R271: a triggered stripe activates or fails; the
wind copies the carried body rows to the coil; a stripe whose tiles are fed and whose wind is done
completes.
The ranges that are checked, the codes of the coil, DONE_SEQ before the first job, what an uncorrectable row
writes, the sums that CONT takes, and the one moment of a feed's reads are the model's (log entries 31, 32,
33 and 103, DEDUCED; 101 and 113, DESIGN CHOICE). -/
def Obligations.EngineEvents : Prop :=
  ∀ (s : State) (core : LCore) (stream : Fin 8),
    let t := s.tileOf core
    let k := s.core t
    let x := k.mtx
    let e := k.str
    let rest (s' : State) : Prop := (∀ u, u ≠ t → s'.core u = s.core u) ∧ s'.hbm = s.hbm ∧
      s'.board = s.board ∧ (s'.core t).ctxs = k.ctxs
    (∀ before j after, x.queue = before ++ j :: after → (∀ q ∈ before, q.stage = .finished) →
      (∀ q ∈ before ++ after, q.seq ≠ j.seq) → j.stage = .queued → s.frozen t = false →
      (s.board.map.get core).mtxOut = false → s.rangesHeld t (mtxDesc j.desc).setupReads = false →
      let d := mtxDesc j.desc
      (d.ty = 0 → d.asrc = false → d.cbld = false → (d.check j.desc k j.seq).1 = 0 ∨ j.checked = true →
        ∃ s', exec (.matrixJobStart core) s = .next s' ∧ rest s' ∧
          (s'.core t).mtx = { x with
            queue := before ++ { j with stage := .feeding, tile := none, sums := x.continued d } :: after
            kept := none }) ∧
      ((d.check j.desc k j.seq).1 ≠ 0 → (d.check j.desc k j.seq).1 ≠ 0x49 → j.checked = false →
        ∃ s', exec (.matrixJobStart core) s = .next s' ∧ rest s' ∧
        (s'.core t).mtx.queue = before ++ { j with
          stage := .finished, status := (d.check j.desc k j.seq).1
          errAddr := BitVec.ofNat 32 (d.check j.desc k j.seq).2, sums := [] } :: after ∧
        ((∀ q, x.kept = some q → ∀ r ∈ after, r.seq ≠ q.seq) → (s'.core t).mtx.kept = none))) ∧
    ((s.board.map.get core).mtxOut = true → exec (.matrixJobStart core) s = .next s) ∧
    (∀ before j after, x.queue = before ++ j :: after → (∀ q ∈ before, q.stage = .finished) →
      (∀ q ∈ before ++ after, q.seq ≠ j.seq) → j.stage = .feeding → j.tile = none →
      let d := mtxDesc j.desc
      s.rangesHeld t d.feedReads = false → k.firstMark d.feedReads = none → d.keep = false → d.m ≤ 64 → d.n ≤ 128 →
      ∃ s' sums, exec (.matrixFeedDone core) s = .next s' ∧ rest s' ∧
        (s'.core t).mtx = { x with
          queue := before ++ { j with stage := .fed, sums := sums } :: after, kept := none } ∧
        (d.afmt = 0 → d.wfmt = 0 → d.asm = 0 → d.wsm = 0 → d.za = 0 → d.olc = 0 → d.pin = false →
          d.cont = false → d.ta = false → d.tw = false → 1 ≤ d.k → d.k ≤ d.g →
          ∀ m n, m < d.m → n < d.n → Tab.get 0 sums (128 * m + n) =
            fadd 0 (fmul (fofInt ((List.range d.k).map fun i =>
              (k.byte (d.a + i * (d.lda * 64) + m)).toInt * (k.byte (d.w + i * (d.ldw * 64) + n)).toInt).sum)
              (fmul d.ascale d.wscale)))) ∧
    (∀ before j after, x.queue = before ++ j :: after → (∀ q ∈ before, q.stage = .finished) →
      (∀ q ∈ before ++ after, q.seq ≠ j.seq ∧ q.stage ≠ .output) → j.stage = .fed →
      let d := mtxDesc j.desc
      d.ty = 0 → d.keep = false → d.bias = false → d.act = 0 → d.pool = 0 → d.ofmt = 0 → d.qs = 0 →
      d.olayout = 0 → d.odst = 0 → d.oscale = false → d.stat = false → d.m ≤ 64 → d.n ≤ 128 →
      4 * d.n ≤ d.ldo * 64 → s.rangesHeld t (d.epiReads ++ d.epiRows ++ d.outputs) = false →
      ∃ s', exec (.matrixEpilogue core) s = .next s' ∧ (s'.core t).ctxs = k.ctxs ∧ s'.hbm = s.hbm ∧
        (∀ u, u ≠ t → s'.core u = s.core u) ∧
        (∃ j', (s'.core t).mtx.queue = before ++ j' :: after ∧ j'.stage = .finished ∧
          j'.seq = j.seq ∧ j'.status = j.status) ∧
        (∀ m n i, m < d.m → n < d.n → i < 4 →
          let y := Tab.get 0 j.sums (128 * m + n)
          (s'.core t).byte (d.out + m * (d.ldo * 64) + 4 * n + i) =
            (if (f32 y).isNan then (0x7FC00000 : Word) else y).extractLsb' (8 * i) 8) ∧
        ∀ a, (∀ m n i, m < d.m → n < d.n → i < 4 → a ≠ d.out + m * (d.ldo * 64) + 4 * n + i) →
          (s'.core t).byte a = k.byte a) ∧
    (∀ j js, x.queue = j :: js → j.stage = .finished →
      let d := mtxDesc j.desc
      (d.crec = true → s.spanHeld t d.recAt 16 = false) →
      ∃ s', exec (.matrixJobComplete core) s = .next s' ∧ (s'.core t).mtx.queue = js ∧
        (s'.core t).mtx.doneSeq = j.seq ∧
        (0x40 ≤ j.status.toNat → (s'.core t).mtx.errSeq = j.seq ∧
          (s'.core t).mtx.errStatus = j.status ∧ (s'.core t).mtx.errAddr = j.errAddr) ∧
        (j.status.toNat < 0x40 → (s'.core t).mtx.errSeq = x.errSeq ∧
          (s'.core t).mtx.errStatus = x.errStatus) ∧
        (d.crec = false → (s'.core t).mem = k.mem) ∧
        (d.cirq = true → (0x200 : Word) ∈ (s'.ctx t j.ctx).irqs) ∧
        (d.csync = true → s'.sync.queue = s.sync.queue ++
          [⟨.matrix, j.func, d.obj, .add (d.add.setWidth 64)⟩])) ∧
    (x.queue = [] → exec (.matrixJobComplete core) s = .next s) ∧
    (∀ q, e.head stream = some q → q.stage = .waiting → (∀ r ∈ e.queue, r.seq = q.seq → r = q) →
      let d := stripeDesc q.desc
      (s.frozen t = false → s.enabled (.stripe t.val) = true → d.trig ≤ (e.st stream).trigs.toNat →
        ∃ s' q', exec (.stripeActivate core stream) s = .next s' ∧ rest s' ∧
          (s'.core t).str.queue = e.queue.map (fun r => if r = q then q' else r) ∧
          ((s'.core t).str.st stream).trigs = (e.st stream).trigs - BitVec.ofNat 8 d.trig ∧
          (e.check q.desc = 0 → q' = { q with stage := .active, wound := d.last }) ∧
          (e.check q.desc ≠ 0 → q' = { q with stage := .failed, status := e.check q.desc })) ∧
      ((e.st stream).trigs.toNat < d.trig → exec (.stripeActivate core stream) s = .next s) ∧
      (∀ since, q.since = some since →
        1000 * (fld (s.live (.stripe t.val) 0x050) 0 24).toNat ≤ (s.time - since).toNat →
        ∃ s', exec (.stripeTrigTimeout core stream) s = .next s' ∧ rest s' ∧
        (s'.core t).str = { e with queue := e.queue.map fun r =>
          if r = q then { q with stage := .failed, status := 0x4B } else r })) ∧
    (∀ q, e.head stream = some q → q.stage = .active → (∀ r ∈ e.queue, r.seq = q.seq → r = q) →
      let d := stripeDesc q.desc
      let st := e.st stream
      let rows := d.windRows st.carry
      let len := d.aw * d.c * d.e
      (q.wound = false → d.windFree st.carry (k.tilesOver stream q) = true → k.windMark d rows = none → s.frozen t = false →
        k.clearing = false → (∀ r ∈ rows, ∀ j, j < d.ncbj → s.spanHeld t (d.bodyRow j r) len = false) →
        (∀ r ∈ rows, ∀ r' ∈ rows, r % d.cr = r' % d.cr → r = r') →
        ∃ s', exec (.wind core stream) s = .next s' ∧ rest s' ∧ (s'.core t).mem = k.mem ∧
          (s'.core t).str.queue = e.queue.map (fun r => if r = q then { q with wound := true } else r) ∧
          ((s'.core t).str.st stream).carry = d.carryNext st.carry ∧
          ∀ r j i, r ∈ rows → j < d.ncbj → i < len →
            Tab.get 0 (s'.core t).str.coil (d.coil + r % d.cr * d.cslot + j * len + i) =
              k.byte (d.bodyRow j r + i)) ∧
      ((∀ r ∈ e.queue, ¬ ((stripeDesc r.desc).stream = stream ∧ r.stage = .cancelled)) →
        let ends : Prop := d.jobs ≤ q.taken ∧ k.streamFeeds stream = false ∧ q.wound = true ∧
          s.recordHeld t q = false
        (ends → ∃ s', exec (.stripeComplete core stream) s = .next s' ∧
          (s'.core t).str.queue.map (·.seq) = (e.queue.filter (· ≠ q)).map (·.seq) ∧
          (s'.core t).str.doneSeq = q.seq ∧ (d.crec = false → (s'.core t).mem = k.mem) ∧
          (d.cirq = true → (0x210 : Word) ∈ (s'.ctx t q.ctx).irqs)) ∧
        (¬ ends → exec (.stripeComplete core stream) s = .next s)))

/-! ### Events of the scratchpads and of the DMA engine -/

/-- Every core but that of tile `t` is as before. -/
def Claims.otherCores (s s' : State) (t : Tile) : Prop := ∀ u, u ≠ t → s'.core u = s.core u

/-- The cores of the other tiles are unchanged, but for the waits parked there. -/
def Claims.otherCoresButWaits (s s' : State) (t : Tile) : Prop := ∀ u, u ≠ t →
  s'.core u = { s.core u with parked := (s'.core u).parked, waiters := (s'.core u).waiters }

/-- R316, R318, R319, R320, R321, R323: a correctable error is counted by its memory and watched, and a row
at NOMINATE is nominated, its remap started at once where it reaches FORCE; the watch counts halve; GO from system firmware starts a remap, which ends with a
spare row mapped or with its RESULT, the next forced remap following, an exhausted bank failing its memory's island; a clear leaves zeros,
EMPTY tags and no mark, and pauses the banks until it ends.
Where an error is counted, a GO while BUSY, the order in which nominated rows are remapped, and the command
at a gated page, are the model's (log entries 27 and 28, DEDUCED; 100 and 114, DESIGN CHOICE). -/
def Obligations.RepairEvents : Prop :=
  ∀ (s : State) (tile : Tile),
    let k := s.core tile
    let c := PageClass.spad tile.val
    (∀ addr : BitVec 24, localOk addr.toNat = true →
      ∃ s', exec (.eccWriteBack tile addr) s = .next s' ∧ Claims.otherCores s s' tile ∧
        (let w := watchCount k.watch (BitVec.ofNat 6 (bankOf addr.toNat)) (BitVec.ofNat 8 (rowOf addr.toNat))
         let n := watchOf w (bankOf addr.toNat) (rowOf addr.toNat)
         let at' (i : Nat) : Nat := (fld (s.live c 0x044) i 8).toNat
         s'.core tile = { k with
           watch := w, nominees := (s'.core tile).nominees, rmapBusy := (s'.core tile).rmapBusy } ∧
         (n < at' 0 → (s'.core tile).nominees = k.nominees ∧ (s'.core tile).rmapBusy = k.rmapBusy) ∧
         (at' 0 ≤ n → (s'.core tile).nominees =
           (k.nominate (nomineeAt addr.toNat (decide (at' 8 ≤ n)))).nominees) ∧
         (at' 0 ≤ n → at' 8 ≤ n → (s'.core tile).rmapBusy = true)) ∧
        (let old := Tab.get 0 (s.page (pageNo c)).counters (corrCounter addr.toNat)
         Tab.get 0 (s'.page (pageNo c)).counters (corrCounter addr.toNat) =
          if old.toNat + 1 < 2 ^ 32 then old + 1 else 0xFFFFFFFF) ∧
        ((fld (s.live c 0x044) 0 8).toNat ≤
            watchOf (s'.core tile).watch (bankOf addr.toNat) (rowOf addr.toNat) →
          bit (s'.page (pageNo c)).irqStatus 2 = true)) ∧
    (∀ addr : BitVec 24, localOk addr.toNat = false → exec (.eccWriteBack tile addr) s = .next s) ∧
    (∃ s', exec (.watchHalving tile) s = .next s' ∧ Claims.otherCores s s' tile ∧
      (s'.core tile).mem = k.mem ∧ (s'.core tile).watch.length = k.watch.length ∧
      ∀ i (h : i < k.watch.length), (s'.core tile).watch[i]? =
        some { k.watch[i] with count := k.watch[i].count / 2 }) ∧
    (∀ data : Word, k.rmapBusy = false → s.gatedPage c = false →
      ∃ s', exec (.spadRmapGo .firmware tile data) s = .next s' ∧ Claims.otherCores s s' tile ∧
        s'.core tile = { k with rmapBusy := true } ∧ s'.staged c 0x050 = data &&& 0x3FFF) ∧
    (∀ (w : Who) (data : Word), k.rmapBusy = true → s.gatedPage c = false ∨ s.mayWrite w c = false →
      exec (.spadRmapGo w tile data) s = .next s) ∧
    (∀ (w : Who) (data : Word), s.mayWrite w c = true → s.gatedPage c = true →
      ∃ s', exec (.spadRmapGo w tile data) s = .next s' ∧ s'.cores = s.cores ∧ (s'.page (pageNo c)).held =
        (s.page (pageNo c)).held ++ [⟨w, 0x050, .b4, (data ||| 0x10000).setWidth 64⟩]) ∧
    (∀ (f : Func) (data : Word), ∃ s', exec (.spadRmapGo (.func f) tile data) s = .next s' ∧
      s'.cores = s.cores) ∧
    (k.rmapBusy = false → exec (.remapDone tile) s = .next s) ∧
    (k.rmapBusy = true →
      let bank := (fld (s.staged c 0x050) 0 6).toNat
      let row : Byte := fld (s.staged c 0x050) 6 8
      let has (e : Nat) : Prop := ∃ r, Tab.get none k.remap (8 * bank + e) = some r ∧ r.row = row
      let left := k.nominees.filter fun x => !(x.bank.toNat == bank && x.row == row)
      let ends (result : BitVec 2) (more : Bool) (s' : State) : Prop := (s'.core tile).rmapBusy = more ∧
        (s'.core tile).nominees = left ∧ (s'.core tile).rmapResult = result ∧ bit (s'.page (pageNo c)).irqStatus 3 = true ∧
        (k.lateWrites = [] → (s'.core tile).mem = k.mem ∧ (s'.core tile).marks = k.marks) ∧ Claims.otherCores s s' tile
      (bankRows bank ≤ row.toNat → ∃ s', exec (.remapDone tile) s = .next s' ∧
        ends 3 (left.any (·.forced)) s' ∧
        (s'.core tile).remap = k.remap) ∧
      (∀ e, row.toNat < bankRows bank → e < 8 → has e → ∃ s', exec (.remapDone tile) s = .next s' ∧
        ends 2 (left.any (·.forced)) s' ∧ (s'.core tile).remap = k.remap) ∧
      (row.toNat < bankRows bank → (∀ e, e < 8 → ¬ has e) →
        (∀ e, e < 8 → Tab.get none k.remap (8 * bank + e) ≠ none) →
        ∃ s1, exec (.remapDone tile) s = .next ((s1.failIsland (bankIsland tile bank)).remapDue tile false) ∧
          ends 1 false s1 ∧ s1.board = s.board ∧ (s1.core tile).remap = k.remap) ∧
      (∀ e, row.toNat < bankRows bank → (∀ e, e < 8 → ¬ has e) → e < 8 →
        Tab.get none k.remap (8 * bank + e) = none →
        (∀ j, j < e → Tab.get none k.remap (8 * bank + j) ≠ none) →
        ∃ s', exec (.remapDone tile) s = .next s' ∧
          ends 0 (left.any (·.forced)) s' ∧
          ∀ i, Tab.get none (s'.core tile).remap i =
            if i = 8 * bank + e then some ⟨row, false⟩ else Tab.get none k.remap i)) ∧
    (∃ s', exec (.spadClear .firmware tile) s = .next s' ∧ Claims.otherCores s s' tile ∧
      (s'.core tile).clearing = true ∧ (s'.core tile).ctxs = k.ctxs ∧ (s'.core tile).remap = k.remap ∧
      ∀ a, (s'.core tile).byte a = 0 ∧ (s'.core tile).marked a = false ∧ (s'.core tile).full a = false ∧
        (s'.core tile).tagged a = false) ∧
    (∀ f : Func, exec (.spadClear (.func f) tile) s = .next s) ∧
    ∃ s', exec (.clearDone tile) s = .next s' ∧ Claims.otherCores s s' tile ∧
      (s'.core tile).clearing = false ∧ (k.lateWrites = [] → s'.core tile = { k with clearing := false }) ∧
      ∀ a bs, k.lateWrites = [(a, bs)] → k.rmapBusy = false →
        s'.core tile = ({ k with clearing := false, lateWrites := [] } : Core).bankWrite a bs

/-- R334, R335, R338, R342, R345, R347 to R350: the engine starts the channel that PRIO and number put
first, whose descriptor passes its checks or fails with their status; data read is transformed and written
onward, each run in its place, a local write being performed as it is issued; an acknowledgement counts it; the completion leaves status 0, its event and its
interrupt, and the channel goes on to its pending command, its link or IDLE; a failed write and a write at its
time limit end an ACTIVE or a WAITING channel; DMA_KILL and the end of draining.
How far one command moves a channel, the slot tests at a target, the writes that DISABLE leaves open, and
what an ODST 2 job takes from its channel, are the model's (log entries 29, 77 and 113, DESIGN CHOICE; 30,
DEDUCED). -/
def Obligations.DmaEvents : Prop :=
  ∀ (s : State) (core : LCore) (ch : Fin 8),
    let t := s.tileOf core
    let k := s.core t
    let h := k.dma.get ch
    let d := dmaDesc h.desc
    let x := h.xfer
    let at' (s' : State) : DmaCh := (s'.core t).dma.get ch
    let fails (i : Instr) (status : Byte) : Prop := ∃ s', exec i s = .next s' ∧
      (at' s').run = .error ∧ (at' s').status = status ∧ Claims.otherCoresButWaits s s' t ∧
      (h.run ≠ .waiting → Claims.otherCores s s' t) ∧
      (dmaIo ch + 2) ∈ (s'.ctx t h.ctx).irqs ∧
      ∀ c, c ≠ ch → (s'.core t).dma.get c = k.dma.get c
    (∀ (w : Who) (tile : Tile) (kill : Byte), s.mayWrite w (.dma tile.val) = true →
      s.gatedPage (.dma tile.val) = true → ∃ s', exec (.dmaKill w tile kill) s = .next s' ∧ s'.cores = s.cores ∧
        (s'.page (pageNo (.dma tile.val))).held = (s.page (pageNo (.dma tile.val))).held ++
          [⟨w, 0x080, .b4, kill.setWidth 64⟩]) ∧
    (∀ (w : Who) (tile : Tile) (kill : Byte), s.mayWrite w (.dma tile.val) = true →
      s.gatedPage (.dma tile.val) = false →
      ∃ s', exec (.dmaKill w tile kill) s = .next s' ∧ Claims.otherCoresButWaits s s' tile ∧ ∀ c : Fin 8,
        let old := (s.core tile).dma.get c
        let new := (s'.core tile).dma.get c
        (bit kill c.val = true → old.run ≠ .idle → new.run = .draining ∧ new.status = 0x02 ∧
          new.cur = none ∧ new.pend = none) ∧
        (bit kill c.val = false ∨ old.run = .idle → new = old)) ∧
    (∀ q, s.frozen t = false → k.dmaActive = none → k.dmaNext = some ch → h.cur = some q →
      h.phase = .start → h.line = none → h.ctx = q.ctx →
      let e := dmaDesc q.desc
      let status := e.check q.desc q core (q.src == .regs) (s.modelKey q.func (e.p0.toNat % 256))
      (status ≠ 0 → fails (.dmaSelect core) status) ∧
      (status = 0 → e.mode ≠ 1 → e.tagged = false →
        (∀ n a, n < (e.xfer 0).total → a ∈ (e.xfer 0).srcs n →
          ∃ p, target core (BitVec.ofInt 32 a) = some (.loc p)) → e.irqHalf = false →
        ∃ s', exec (.dmaSelect core) s = .next s' ∧ (at' s').run = .active ∧
          (at' s').phase = .moving ∧ (at' s').desc = q.desc ∧ (at' s').pos = 0 ∧ (at' s').prog = 0 ∧
          (at' s').outs = [] ∧ (s'.core t).mem = k.mem ∧ s'.board = s.board)) ∧
    (∀ w, s.frozen t = false → k.dmaActive = some ch → h.phase = .moving → h.cur ≠ none → d.tagged = false → d.mode ≠ 1 →
      d.mode ≠ 2 → d.irqHalf = false → h.pos < x.total →
      (∀ r ∈ s.board.answers, r.dst ≠ core ∨ r.agent ≠ .dma ch) →
      (∀ n a, n < x.total → a ∈ x.srcs n → ∃ p, target core (BitVec.ofInt 32 a) = some (.loc p)) →
      let n := h.pos
      let len := x.run n x.total
      (∀ a p, a ∈ x.runSrcs n len → target core (BitVec.ofInt 32 a) = some (.loc p) →
        k.paused p (s.rmapBank t) = false ∧ k.marked p = false) →
      target core (BitVec.ofInt 32 (x.dst n)) = some (.loc w) → s.bankHeld t w = false → h.first = none →
      (∀ i, i < len → h.overlaps (x.dst (n + i)) = false) →
      let bytes := (List.range len).map fun i => x.out (n + i) ((x.srcs (n + i)).map fun a => (h.byte k core a).1)
      ∃ s', exec (.dmaReadReturn core) s = .next s' ∧ 0 < len ∧ (at' s').run = .active ∧
        (at' s').pos = n + len ∧ (at' s').outs = h.outs ++ [(n, len)] ∧ (at' s').prog = h.prog ∧
        (at' s').localWrites = h.localWrites ++ [(w, k.bytes w len, bytes)] ∧
        s'.core t = { k.bankWrite w bytes with
          dma := (s'.core t).dma, timers := (s'.core t).timers, stalled := (s'.core t).stalled } ∧
        (s'.core t).engTimer 3 = 0 ∧ s'.board = s.board ∧ s'.hbm = s.hbm ∧
        Claims.otherCores s s' t) ∧
    (∀ w rest p n outs, h.localWrites = w :: rest → h.outs = (p, n) :: outs → d.mode ≠ 1 →
      ∃ s', exec (.dmaWriteAck core ch) s = .next s' ∧ (at' s').localWrites = rest ∧
        (at' s').outs = outs ∧ (at' s').prog = h.prog + BitVec.ofNat 32 n ∧
        (s'.core t).mem = k.mem ∧ (s'.core t).tags = k.tags ∧ (s'.core t).ctxs = k.ctxs ∧ s'.board = s.board ∧ Claims.otherCores s s' t) ∧
    (∀ pre post cause issued, h.localWrites = [] →
      s.board.answers = pre ++ ⟨core, .dma ch, .refused cause issued⟩ :: post →
      (∀ r ∈ pre, r.dst ≠ core ∨ r.agent ≠ .dma ch) →
      (h.run = .active ∨ h.run = .waiting → fails (.dmaWriteAck core ch) 0x47) ∧
      (h.run = .ready → exec (.dmaWriteAck core ch) s = .next s)) ∧
    (∀ q, k.dmaActive = some ch → h.phase = .moving → x.writes = true → h.pos = x.total → h.outs = [] →
      h.cur = some q → d.mode ≠ 10 → (d.irqHalf = true → h.half = true) → s.frozen t = false →
      (∀ a, h.line = some a → s.spanHeld t a 64 = false) →
      ∃ s', exec (.dmaReadbackDone core) s = .next s' ∧ Claims.otherCores s s' t ∧
        (at' s').status = 0 ∧
        (d.evt = 1 → s'.sync.queue =
          s.sync.queue ++ [⟨.dma, h.func, d.obj, .add (d.add.setWidth 64)⟩]) ∧
        (d.evt = 2 → ((s'.core t).str.st d.evstream.toFin).trigs =
          if (k.str.st d.evstream.toFin).trigs = 255 then 255
          else (k.str.st d.evstream.toFin).trigs + 1) ∧
        (d.irqFull = true → dmaIo ch ∈ (s'.ctx t h.ctx).irqs) ∧
        (h.line = none → (q.src ≠ .copied ∨ d.last = true) → (s'.core t).mem = k.mem ∧
          (h.pend = none → (at' s').run = .idle ∧ (at' s').cur = none) ∧
          ∀ r, h.pend = some r → (at' s').run = .ready ∧ (at' s').cur = some r ∧
            (at' s').pend = none) ∧
        ∀ a, h.line = some a → (at' s').phase = .link ∧ (s'.core t).byte (a + 0x39) =
          (if h.mismatch.isSome then 3 else 1) ∧ (s'.core t).byte (a + 0x38) = 0) ∧
    (∀ a, s.frozen t = false → h.run = .active → h.phase = .link → h.line = some a → k.paused a (s.rmapBank t) = false →
      (∀ i, i < 64 → k.marked (a + i) = false) →
      let e := dmaDesc (leVal 512 (k.bytes a 64))
      (e.last = true → ∃ s', exec (.dmaLinkReread core ch) s = .next s' ∧ Claims.otherCores s s' t ∧
        at' s' = { h with
          run := .parked, phase := (if h.dbpend then .link else .start), dbpend := false }) ∧
      (e.last = false → localOk e.link.toNat = true → ∃ s', exec (.dmaLinkReread core ch) s = .next s' ∧
        Claims.otherCores s s' t ∧
        at' s' = { h with run := .ready, phase := .start, line := some e.link.toNat }) ∧
      (e.last = false → localOk e.link.toNat = false → fails (.dmaLinkReread core ch) 0x4C)) ∧
    (k.dmaActive = some ch → h.phase = .moving → d.irqHalf = true → h.half = false →
      h.pos = x.half → h.outs = [] → d.mode ≠ 1 → s.frozen t = false →
      ∃ s', exec (.dmaHalfPoint core) s = .next s' ∧ (at' s').half = true ∧
        (dmaIo ch + 1) ∈ (s'.ctx t h.ctx).irqs) ∧
    (k.dmaActive = none → exec (.dmaHalfPoint core) s = .next s ∧
      exec (.dmaReadReturn core) s = .next s ∧ exec (.dmaReadbackDone core) s = .next s) ∧
    (∀ p n outs, h.outs = (p, n) :: outs →
      (h.run = .active ∨ h.run = .waiting → h.writeWaits = false → fails (.dmaWriteTimeout core ch) 0x4B) ∧
      (h.run = .ready → exec (.dmaWriteTimeout core ch) s = .next s)) ∧
    (h.outs = [] → exec (.dmaWriteTimeout core ch) s = .next s) ∧
    (h.run = .draining → ∃ s', exec (.dmaDrainEnd core ch) s = .next s' ∧ 
      at' s' = { h with run := .idle, outs := [] } ∧ (s'.core t).mem = k.mem ∧
      Claims.otherCores s s' t ∧
      ∀ r, r ∈ s'.board.mesh ↔ r ∈ s.board.mesh ∧ ¬ (r.src = core ∧ r.agent = .dma ch)) ∧
    (h.run ≠ .draining → exec (.dmaDrainEnd core ch) s = .next s)

/-! ### Rings and the dispatcher -/

/-- R57, R357 to R362, R376: a doorbell within the ring's size moves TAIL, any other is counted with its
flag; COMMIT starts a check; RUN, CANCEL and RESTART move the ring between its states; an age above the
watermark sets its flag once.
What a COMMIT makes of the old ring's reads and records is the model's choice (log entry 98, DESIGN CHOICE). -/
def Obligations.RingEvents : Prop :=
  ∀ (s : State),
    let only (s' : State) (r : Nat) (x : Ring) : Prop :=
      s' = { s with rings := s'.rings } ∧ s'.ring r = x ∧ ∀ q, q ≠ r → s'.ring q = s.ring q
    (∀ (f fn : Func) (k : BitVec 10) (v : Word), s.bar4Open f = true → s.inBoot = false →
      s.board.svc.state ≠ .failed → (f = 0 ∨ f = fn) → fnBit s.host.flr fn = false →
      let r := ringNo fn k
      let x := s.ring r
      (fnBit s.host.needFlr fn = false → v = x.tail → exec (.doorbell (.func f) fn k v) s = .next s) ∧
      (fnBit s.host.needFlr fn = false → v ≠ x.tail → x.committed = true → (v - x.head).toNat ≤ x.size →
        (v - x.tail).toNat ≤ x.size → ∃ s' bells, exec (.doorbell (.func f) fn k v) s = .next s' ∧
          only s' r { x with tail := v, bells := bells } ∧
          (x.bells.length < 8 → bells = x.bells ++ [(v, s.time)])) ∧
      (fnBit s.host.needFlr fn = true ∨ (v ≠ x.tail ∧ (x.committed = false ∨
          x.size < (v - x.head).toNat ∨ x.size < (v - x.tail).toNat)) →
        ∃ s', exec (.doorbell (.func f) fn k v) s = .next s' ∧ (s'.ring r).tail = x.tail ∧
          (s'.ring r).counters.get 3 = x.counters.get 3 + 1 ∧
          (s'.ring r).flags = x.flags ||| 8)) ∧
    (∀ (f fn : Func) (k : BitVec 10) (v : Word), s.bar4Open f = false ∨ (f ≠ 0 ∧ f ≠ fn) →
      exec (.doorbell (.func f) fn k v) s = .next s) ∧
    (∀ (ring : BitVec 14),
      let r := ring.toNat
      let x := s.ring r
      let page := ringPage r
      let check : Check := .ring ⟨r % 16, Nat.mod_lt _ (by omega)⟩
      (∀ (w : Who), s.mayWrite w page = false → ∀ i, i = Instr.ringCommit w ring ∨ i = .ringCancel w ring ∨
        i = .ringRestart w ring ∨ (∃ run, i = .ringRun w ring run) → exec i s = .next s) ∧
      (∀ (w : Who), s.mayWrite w page = true → s.checkRuns page check = true →
        ∀ i, i = Instr.ringCommit w ring ∨ i = .ringCancel w ring ∨ i = .ringRestart w ring ∨
          (∃ run, i = .ringRun w ring run) → ∃ (s' : State) (x : HeldWrite), exec i s = .next s' ∧
          s'.rings = s.rings ∧ (s'.page (pageNo page)).held = (s.page (pageNo page)).held ++ [x] ∧
          x.who = w ∧ x.off.toNat = 0x100 * (r % 16) + 0x78) ∧
      (∀ (w : Who), s.mayWrite w page = true → s.checkRuns page check = false →
        (∃ s', exec (.ringCommit w ring) s = .next s' ∧
          s'.ring r = { x with refused := false, code := 0 } ∧
          (s'.page (pageNo page)).checking = (s.page (pageNo page)).checking ++ [check] ∧
          ∀ q, q ≠ r → s'.ring q = s.ring q) ∧
        (∀ run, ∃ s' st, exec (.ringRun w ring run) s = .next s' ∧
          only s' r { x with run := run, state := st } ∧
          (x.state = .idle → st = if run && x.committed then .active else .idle) ∧
          (x.state = .active → st = if run then .active
            else if s.outstandingJob r then .draining else .idle) ∧
          (x.state = .draining → st = if run then .active else .draining) ∧
          (x.state = .error → st = .error)) ∧
        (∃ s', exec (.ringCancel w ring) s = .next s' ∧
          (∀ e j, s'.tracked e = some j → j.ring.toNat ≠ r) ∧ (s'.ring r).tail = x.tail ∧
          (s'.ring r).head = x.head ∧
          (x.occupancy ≠ 0 → (s'.ring r).cancelTo = some x.tail ∧
            ∀ f ∈ s'.disp.fetches, f.ring.toNat ≠ r) ∧
          ((∀ e j, s.tracked e = some j → j.ring.toNat ≠ r) → Tab.wf none s.disp.track = true →
            x.occupancy = 0 → s' = s)) ∧
        (x.state ≠ .error → exec (.ringRestart w ring) s = .next s) ∧
        (x.state = .error → ∃ s', exec (.ringRestart w ring) s = .next s' ∧
          only s' r { x with state := (if x.run then .active
            else if s.outstandingJob r then .draining else .idle) })) ∧
      (x.live.ageWm ≠ 0 → x.committed = true → x.aged = false →
        x.live.ageWm.toNat < (s.ringAge r).toNat →
        ∃ s', exec (.ageWatermark ring) s = .next s' ∧
          s'.ring r = { x with aged := true, flags := x.flags ||| 2 } ∧ ∀ q, q ≠ r → s'.ring q = s.ring q) ∧
      (x.aged = true ∨ (s.ringAge r).toNat ≤ x.live.ageWm.toNat →
        exec (.ageWatermark ring) s = .next s))

/-- R365, R367 to R371, R375, R384: what a fetch takes; a job's checks in their order, each with its
status, and the gate; a shed and a cancelled descriptor; a deadline and a gate's bound; a gate read again;
and what retiring a tracked job does: its record, CTAIL, and its signal.
The stalls that count once, jobs that wait for an entry, a gate that holds at once, retirements held by a
recovery, T_START of a job given back, the bounds compared with time and the performing of the dispatcher's
own accesses in its command are the model's (log entries 8, 34 and 107, DESIGN CHOICE; 35, 36, 48 and 99,
DEDUCED). -/
def Obligations.DispatchEvents : Prop :=
  ∀ (s : State),
    (s.enabled .disp = false → exec .descFetch s = .next s) ∧
    (s.disp.returned = [] → s.admitReturned = s) ∧
    (∀ e j, s.disp.returned = [j] → s.freeEntry = some e → s.admitReturned.disp.returned = [] ∧
      s.admitReturned.tracked e = some { j with stage := .ready }) ∧
    (s.freeEntry = none → s.admitReturned = s) ∧
    (∀ f r kind, s.enabled .disp = true →
      let s1 := s.admitReturned
      s1.pickFn = some f → s1.pickRing f = some r →
      s1.ringAction r = some kind → ∃ s' entry, exec .descFetch s = .next s' ∧
        s'.disp.fetches = s1.disp.fetches ++
          [⟨BitVec.ofNat 14 r, kind, entry, (s1.ring r).head + BitVec.ofNat 32 (s1.ringReads r)⟩] ∧
        s'.ring r = { s1.ring r with reserved := (s1.ring r).reserved + 1 } ∧
        s'.disp.track = s1.disp.track ∧ (∀ q, q ≠ r → s'.ring q = s1.ring q) ∧
        (kind = .job → (s1.freeEntry = some entry ∧ entry < 1024)) ∧
        (Claims.cnt s' .disp 4 = Claims.cnt s1 .disp 4 + 1 ↔ ∃ g, ∃ q ∈ s1.eligible g, q ≠ r)) ∧
    (∀ f, s.board.svc.state = .failed → s.disp.arriving (· != .shed) = some f →
      ∃ s', exec .descArrival s = .next s' ∧ s'.disp.track = s.disp.track ∧
        (s'.ring f.ring.toNat).head = (s.ring f.ring.toNat).head ∧ s'.disp.fetches = s.disp.fetches.erase f) ∧
    (∀ f desc s1, s.board.svc.state ≠ .failed → s.disp.arriving (· != .shed) = some f → f.kind = .job →
      f.index = (s.ring f.ring.toNat).head → (s.ring f.ring.toNat).cancelTo = none →
      (s.ring f.ring.toNat).state ≠ .error → s.readDesc f.ring.toNat f.index = .ok desc s1 →
      let r := f.ring.toNat
      let x := s1.ring r
      let d := ringDesc desc
      let foreign (o : BitVec 13) : Prop := s1.syncOwner o ≠ some (ringFn r)
      let core : Prop := ∃ j : Job, j.ring = f.ring ∧ j.desc = desc ∧ s1.someCore j = true
      let badSeq : Prop := x.seqchk = true ∧ d.seq ≠ x.nextSeq
      let badObj : Prop := (d.waiten = true ∧ foreign d.waitObj) ∨ (d.sigen = true ∧ foreign d.sigObj)
      let late : Prop := d.dlen = true ∧ d.deadline.toNat < s.time.toNat
      let retires (status : Byte) : Prop := ∃ (s2 : State) (j : Job), exec .descArrival s =
        .next (s2.retireTracked f.entry status false) ∧ s2.tracked f.entry = some j ∧ j.desc = desc ∧
        j.ring = f.ring ∧ (s2.ring r).head = f.index + 1
      let stands (stage : JobStage) : Prop := ∃ (s' : State) (j : Job), exec .descArrival s = .next s' ∧
        s'.tracked f.entry = some j ∧ j.desc = desc ∧ j.ring = f.ring ∧ j.stage = stage ∧
        j.fetched = s.time ∧ (s'.ring r).head = f.index + 1 ∧
        (s'.ring r).nextSeq = if x.seqchk then d.seq + 1 else x.nextSeq
      (d.rsv = true → retires 0x40) ∧
      (d.rsv = false → badSeq → retires 0x42) ∧
      (d.rsv = false → ¬ badSeq → badObj → retires 0x41) ∧
      (d.rsv = false → ¬ badSeq → ¬ badObj → d.type ≠ 3 → ¬ core → retires 0x05) ∧
      (d.rsv = false → ¬ badSeq → ¬ badObj → (d.type = 3 ∨ core) → late → retires 0x03) ∧
      (d.rsv = false → ¬ badSeq → ¬ badObj → (d.type = 3 ∨ core) → ¬ late →
        let open_ := d.waiten = false ∨ d.waitVal.toNat ≤ (s1.obj d.waitObj).toNat
        (open_ → d.type = 3 → retires 0) ∧ (open_ → d.type ≠ 3 → stands .ready) ∧
        (¬ open_ → stands .gate))) ∧
    (∀ f desc s1 sheds, (sheds = true → s.disp.arriving (· == .shed) = some f ∧ f.kind = .shed ∧
        (s.ring f.ring.toNat).cancelTo = none ∧ (s.ring f.ring.toNat).state ≠ .error) →
      (sheds = false → s.disp.arriving (· != .shed) = some f ∧ f.kind = .cancel ∧
        (s.ring f.ring.toNat).cancelTo ≠ none) →
      s.board.svc.state ≠ .failed →
      f.index = (s.ring f.ring.toNat).head → s.readDesc f.ring.toNat f.index = .ok desc s1 →
      ∃ s2 : State, exec (if sheds then .descShed else .descArrival) s = .next
          (s2.retireJob f.ring.toNat desc (if sheds then 0x01 else 0x02) none 0 0 false) ∧
        (s2.ring f.ring.toNat).head = f.index + 1 ∧ s2.disp.fetches = s.disp.fetches.erase f) ∧
    (∀ (entry : Fin 1024) (j : Job), s.tracked entry.val = some j →
      let d := ringDesc j.desc
      (d.dlen = true → d.deadline.toNat < s.time.toNat →
        exec (.jobExpired entry) s = .next (s.retireTracked entry.val 0x03 false)) ∧
      (d.dlen = false ∨ s.time.toNat ≤ d.deadline.toNat →
        exec (.jobExpired entry) s = .next s.expireReturned ∧
        ((∀ k ∈ s.disp.returned, s.jobLate k = false) → s.expireReturned = s)) ∧
      (j.stage = .gate →
        let us := if d.wtimeout = 0 then (fld (s.live .disp 0x080) 0 24).toNat else d.wtimeout.toNat
        (1000 * us ≤ (s.time - j.fetched).toNat →
          exec (.waitTimeout entry) s = .next (s.retireTracked entry.val 0x04 false)) ∧
        ((s.time - j.fetched).toNat < 1000 * us → exec (.waitTimeout entry) s = .next s)) ∧
      (j.stage = .ready → exec (.waitTimeout entry) s = .next s ∧ exec (.gatePoll entry) s = .next s) ∧
      (j.stage = .gate → (∀ i w, Tab.get none s.sync.slots i = some w → w.who ≠ .gate entry.val) →
        Tab.wf none s.sync.slots = true →
        ((s.obj d.waitObj).toNat < d.waitVal.toNat → ∃ s', exec (.gatePoll entry) s = .next s' ∧
          s'.disp = s.disp ∧ s'.sync = s.sync) ∧
        (d.waitVal.toNat ≤ (s.obj d.waitObj).toNat → d.type ≠ 3 →
          ∃ s', exec (.gatePoll entry) s = .next s' ∧
            s'.tracked entry.val = some { j with stage := .ready })))  ∧
    (∀ (entry : Nat) (j : Job) (status : Byte) (dpa : Nat) (s1 : State), s.tracked entry = some j →
      let r := j.ring.toNat
      let x := s.ring r
      let d := ringDesc j.desc
      let bytes := recordOf x.ctail x.csize d status none 0 0 s.time
      let s' := s.retireTracked entry status false
      x.committed = true → (∀ y ∈ s.disp.late, Late.of r y = false) →
      (s.untrack entry).xlateShared (ringFn r) (x.live.cbase + BitVec.ofNat 64
        (32 * (x.ctail.toNat % x.csize))) .dispatcher true 0 = (.ok dpa, s1) →
      (s.hbmHeld (ringFn r) dpa 32 = true → s'.tracked entry = none ∧ s'.sync.queue = s.sync.queue ∧
        (s'.ring r).ctail = x.ctail ∧ (s'.ring r).reserved = x.reserved ∧ s'.hbm.mem = s.hbm.mem ∧
        s'.disp.late = s.disp.late ++ [.retire ⟨j.ring, j.desc, status, none, 0, 0, s.time, false⟩]) ∧
      (s.hbmHeld (ringFn r) dpa 32 = false → bit (s.live (.part 0) 0x090) 0 = false →
      s'.tracked entry = none ∧ (s'.ring r).ctail = x.ctail + 1 ∧
        (s'.ring r).reserved = x.reserved - 1 ∧ bit (s'.ring r).flags 0 = true ∧
        ((∀ i, i < 32 → s.lineOk (dpa + i) = true) → s'.hbmBytes dpa 32 = bytes) ∧
        (d.sigen = true → status ≠ 0x41 → s'.sync.queue = s.sync.queue ++
          [⟨.dispatcher, ringFn r, d.sigObj, .add (d.sigAdd.setWidth 64)⟩]) ∧
        (d.sigen = false ∨ status = 0x41 → s'.sync.queue = s.sync.queue)))

/-! ### Synchronisation objects from the host, translation tables and HBM -/

/-- A commit register: dropped where the writer may not write its page, held while a check runs there, else
its check starts (R57, R59). -/
def Claims.commits (i : Instr) (w : Who) (page : PageClass) (check : Check) (s : State) : Prop :=
  let p := s.page (pageNo page)
  (s.mayWrite w page = false → exec i s = .next s) ∧
  (s.mayWrite w page = true → s.checkRuns page check = true → ∃ s' x, exec i s = .next s' ∧
    s'.page (pageNo page) = { p with held := p.held ++ [x] } ∧ x.who = w) ∧
  (s.mayWrite w page = true → s.checkRuns page check = false → ∃ s', exec i s = .next s' ∧
    s'.page (pageNo page) = { p with
      checking := p.checking ++ [check], refused := false, refuseCode := 0 } ∧
    s' = { s with pages := s'.pages })

/-- R57, R381, R386, R387, R390, R400, R402, R406: a write of SYNC_VALUE or SYNC_ADDV sends its operation
where the writer may, and is refused and recorded where it may not; GO performs its compare-and-swap; the
three commits; an invalidation empties the caches and is BUSY until the accesses that used them are done.
Which code a refusal shows, and the order of several fields in one write, are the model's readings (log
entries 69 and 70, DEDUCED). -/
def Obligations.SyncAndTableCommands : Prop :=
  ∀ (s : State),
    (∀ (obj : BitVec 13) (size : AccSize) (high : Bool) (data : DWord) (w : Who) (i : Instr)
        (op : DWord → SyncOp),
      (i = .syncValueWrite w obj size high data ∧ op = .set) ∨
        (i = .syncAddvWrite w obj size high data ∧ op = .add) →
      let whole := (size = .b8 ∧ high = false)
      let low := (size = .b4 ∧ high = false)
      let sends (f : Func) (v : DWord) : Prop := exec i s = .next { s with sync := { s.sync with
        queue := s.sync.queue ++ [⟨.host, f, obj, op v⟩] } }
      (¬ whole → ¬ low → exec i s = .next s) ∧
      (∀ v, (whole → v = data) → (low → v = data &&& 0xFFFFFFFF) → whole ∨ low →
        (w = .firmware → sends 0 v) ∧
        (∀ f, w = .func f → s.barOpen f = false ∨ s.inBoot = true → exec i s = .next s) ∧
        (∀ f, w = .func f → s.barOpen f = true → s.inBoot = false →
          (f = 0 ∨ s.syncOwner obj = some f → sends f v) ∧
          (f ≠ 0 → s.syncOwner obj ≠ some f → ∃ s', exec i s = .next s' ∧
            s'.sync = { s.sync with refInfo := s'.sync.refInfo } ∧
            s'.sync.refInfo = obj.setWidth 32 ||| (BitVec.ofNat 32 f.val <<< 13) ∧
            bit (s'.page (pageNo .sync)).irqStatus 0 = true)))) ∧
    (∀ (w : Who) (k : BitVec 6) (j : BitVec 7), (∀ f, w = .func f → s.barOpen f = true ∧ s.inBoot = false ∧
        (f = 0 ∨ s.syncOwner (pageObj k.toNat j.toNat) = some f)) →
      let o := pageObj k.toNat j.toNat
      let reg (off : Nat) : DWord := (s.staged (.syncObj k.toNat) off).setWidth 64
      let expected := reg 0x048 ||| (reg 0x04C <<< 32)
      let new := reg 0x050 ||| (reg 0x054 <<< 32)
      ∃ s', exec (.syncCasGo w k j) s = .next s' ∧
        let u := s.hostArrive w
        s'.obj o = (if u.obj o = expected then new else u.obj o) ∧
        (∀ q, q ≠ o → s'.obj q = u.obj q) ∧
        ((∀ r ∈ s.sync.queue, r.src ≠ .host) → u.sync.objs = s.sync.objs) ∧
        Tab.get {} s'.sync.cas k.toNat = ⟨true, decide (u.obj o = expected), u.obj o⟩) ∧
    (∀ w : Who, Claims.commits (.syncCommit w) w .sync .sync s ∧
      Claims.commits (.datCommit w) w (.dat 0) .dat s ∧
      ∀ p : Part, Claims.commits (.datRsvCommit w p) w (.dat p.val) .rsv s) ∧
    (∀ (w : Who) (fn : BitVec 4) (all : Bool),
      (s.mayWrite w (.dat 0) = false → exec (.datInv w fn all) s = .next s) ∧
      (s.mayWrite w (.dat 0) = true → ∃ s', exec (.datInv w fn all) s = .next s' ∧
        s'.hbm.invBusy = true ∧ s'.hbm.mem = s.hbm.mem ∧
        (∀ p : Part, (s'.hbm.units.get p).tlb = if all then [] else
          (s.hbm.units.get p).tlb.filter fun e => e.func.val != fn.toNat) ∧
        s'.hbm.queue = s.hbm.queue.map fun r =>
          if all || r.func.val == fn.toNat then { r with old := true } else r)) ∧
    ((∃ r ∈ s.hbm.queue, r.old = true) → exec .datInvDone s = .next s) ∧
    ((∀ r ∈ s.hbm.queue, r.old = false) →
      (∀ (u : Tile) (c : CtxId) (r : HbmReq), FarReq.hbm r ∈ (s.ctx u c).sending → r.old = false) →
      exec .datInvDone s = .next { s with hbm := { s.hbm with invBusy := false } })

/-- Nothing is written to the trace ring, which lies in HBM (R463, R525). -/
def Claims.untraced (s : State) : Prop := bit (s.live (.part 0) 0x090) 0 = false ∨ s.saggar = true

/-- R133, R393, R397, R403, R404, R409 to R411, R416 to R418, R421, R423, R431, R533: a channel serves a request within a
reservation before any other, in the order of its sender, reads and writes its bytes and answers, and counts what waits;
a scrub that is BEHIND has one slot in 256; a refresh window repairs a row, not while a read that waited through the
pause before still waits; the scrub moves on a line; the host window reads and writes HBM through its translation.
When errors arise, what a bucket loses, how a window access is split, what is malformed, and which accesses
wait at a channel are the model's (log entries 38, 40, 106 and 107, DESIGN CHOICE and PRESUMED; 39,
DEDUCED). -/
def Obligations.HbmEvents : Prop :=
  ∀ (s : State),
    let onCounter (s' : State) (c : PageClass) (i : Nat) : Prop :=
      Tab.get 0 (s'.page (pageNo c)).counters i = Tab.get 0 (s.page (pageNo c)).counters i + 1
    (∀ (p : Part) (c : Fin 16),
      let i := 16 * p.val + c.val
      let x := (s.judgeScrub i).chan i
      (s.recovering p = true ∨ (s.channelIn p c.val = true ∧ s.memcOn (.memc i) = false) →
        exec (.hbmRequest p c) s = .next s) ∧
      (s.recovering p = false → s.channelIn p c.val = false ∨ s.memcOn (.memc i) = true →
        let mine (r : HbmReq) : Prop := r ∈ s.waiting p c
        let within (r : HbmReq) : Prop :=
          64 ≤ (((s.fillBuckets p).hbm.units.get p).bucket.get r.func)
        let scrubs : Prop := x.behind = true ∧ 255 ≤ x.slots ∧ s.scrubs p c = true
        ((∀ r, ¬ mine r) → ∃ s', exec (.hbmRequest p c) s = .next (State.flushHeld s') ∧ s'.hbm.queue = s.hbm.queue ∧
          s'.hbm.mem = s.hbm.mem ∧ s'.board = s.board) ∧
        ((∃ r, mine r) → scrubs → ∃ s', exec (.hbmRequest p c) s = .next (State.flushHeld s') ∧ s'.hbm.queue = s.hbm.queue ∧
          s'.board = s.board ∧ (s'.chan i).slots = 0 ∧
          (x.scrubPos.toNat + 1 < channelLines → (s'.chan i).scrubPos = x.scrubPos + 1)) ∧
        ((∃ r, mine r) → ¬ scrubs → ∃ r s', exec (.hbmRequest p c) s = .next (State.flushHeld s') ∧ mine r ∧
          s'.hbm.queue = s.hbm.queue.erase r ∧ ((∃ q, mine q ∧ within q) → within r) ∧
          ((∃ q, mine q ∧ q ≠ r) → onCounter s' (.memc i) 4) ∧
          (∀ lc cx id pos, r.agent = .load lc cx id pos → r.data = none → s.recovering (partOf lc) = false →
            s'.board.answers = s.board.answers ++ [⟨lc, .ctx cx, .data id pos (s.hbmBytes r.dpa r.len)
              ((List.range r.len).map fun i => s.hbmMarked (r.dpa + i))⟩]) ∧
          (∀ lc ch line, r.agent = .dmaRead lc ch line → r.data = none →
            s.recovering (partOf lc) = false →
            s'.board.answers = s.board.answers ++ [⟨lc, .dma ch, .data 0 line (s.hbmBytes r.dpa r.len)
              ((List.range r.len).map fun i => s.hbmMarked (r.dpa + i))⟩]) ∧
          (∀ bs, r.data = some bs → s.lineOk r.dpa = true →
            (∀ i, i < bs.length → s.lineOk (r.dpa + i) = true) → Claims.untraced s → ∀ a, Tab.get 0 s'.hbm.mem a =
              if r.dpa ≤ a ∧ a < r.dpa + bs.length then
                (bs.getD (a - r.dpa) none).getD (Tab.get 0 s.hbm.mem a) else Tab.get 0 s.hbm.mem a) ∧
          (∀ bs, r.data = some bs → s.lineOk r.dpa = false → s'.hbm.mem = s.hbm.mem) ∧
          (∀ lc c bs, r.agent = .store lc c → r.data = some bs → s.recovering (partOf lc) = false →
            s'.board.answers = s.board.answers ++ [⟨lc, .ctx c, .written⟩]) ∧
          (∀ lc ch pos bs, r.agent = .dmaWrite lc ch pos → r.data = some bs →
            s.recovering (partOf lc) = false →
            s'.board.answers = s.board.answers ++ [⟨lc, .dma ch, .landed pos⟩]))) ∧
      (∀ r, r ∈ s.waiting p c → ∀ pre post, s.hbm.queue = pre ++ r :: post → (∀ q ∈ pre, q ≠ r) →
        ∀ q ∈ pre, q.before r = false) ∧
      (∃ s', exec (.hbmRefresh p c) s = .next s' ∧ s'.hbm.queue = s.hbm.queue ∧ s'.board = s.board ∧
        s'.cores = s.cores ∧ s'.rings = s.rings ∧
        (Claims.untraced s → (x.dueRow = none ∨ s.pausePending i = true → (s'.chan i).rowErrors = x.rowErrors ∧
            (s'.chan i).repairs = x.repairs) ∧
          ∀ row, x.dueRow = some row → s.pausePending i = false → (s'.chan i).repairs = x.repairs ++ [row] ∧
            (∀ q, Tab.get [] (s'.chan i).rowErrors q = if q = row then [] else Tab.get [] x.rowErrors q) ∧
            ∀ r ∈ s.hbm.queue, r.data = none → s.chanOf r.dpa = i → r.agent ∈ (s'.chan i).paused)) ∧
      (s.scrubs p c = true → x.behind = true ∨ s.waiting p c = [] →
        ∃ s', exec (.patrolScrub p c) s = .next s' ∧
          (x.scrubPos.toNat + 1 < channelLines →
            (s'.chan i).scrubPos = x.scrubPos + 1 ∧ (s'.chan i).scrubFrom = x.scrubFrom) ∧
          (channelLines ≤ x.scrubPos.toNat + 1 → (s'.chan i).scrubPos = 0 ∧
            (s'.chan i).scrubFrom = s.time ∧ onCounter s' (.memc i) 6)) ∧
      (s.scrubs p c = false ∨ (x.behind = false ∧ s.waiting p c ≠ []) →
        exec (.patrolScrub p c) s = .next (s.judgeScrub i))) ∧
    (∀ (fn : Func) (off : DWord) (len : BitVec 13), len ≠ 0 →
      (s.bar2Open fn = false ∨ s.inBar2 fn off = false → exec (.bar2Read fn off len) s = .next s) ∧
      (s.bar2Open fn = true → s.inBar2 fn off = true → s.bar2Boot fn = true →
        ∃ s', exec (.bar2Read fn off len) s = .next s' ∧
          s'.host.rbytes = List.replicate len.toNat 0xFF) ∧
      (s.bar2Open fn = true → s.inBar2 fn off = true → s.bar2Boot fn = false →
        off.toNat % 4096 + len.toNat ≤ 4096 →
        let x := s.xlateShared fn off .host false (s.bounceCause fn off)
        (∀ c, x.1 = .refused c → ∃ s', exec (.bar2Read fn off len) s = .next s' ∧
          s'.host.rbytes = List.replicate len.toNat 0xFF) ∧
        (∀ dpa, x.1 = .ok dpa → s.hbmHeld fn dpa len.toNat = false →
          s.hbmAnyMark dpa len.toNat = false → Claims.untraced s →
          ∃ s', exec (.bar2Read fn off len) s = .next s' ∧
            s'.host.rbytes = s.hbmBytes dpa len.toNat ∧ s'.hbm.mem = s.hbm.mem) ∧
        (∀ dpa, x.1 = .ok dpa → s.recovering (s.stackOf dpa).1 = true ∨
          (s.hbmHeld fn dpa len.toNat = false ∧ s.hbmAnyMark dpa len.toNat = true) →
          ∃ s', exec (.bar2Read fn off len) s = .next s' ∧
            s'.host.rbytes.length = len.toNat ∧ Sent.poisoned ∈ s'.host.sent ∧
            bit (Tab.get {} s'.host.aer fn.val).uncorr 12 = true) ∧
        (∀ dpa, x.1 = .ok dpa → s.recovering (s.stackOf dpa).1 = false → s.hbmHeld fn dpa len.toNat = true →
          exec (.bar2Read fn off len) s = .next s))) ∧
    (∀ (fn : Func) (off : DWord) (data : List Byte),
      (s.bar2Open fn = false ∨ s.inBar2 fn off = false ∨
          (s.bar2Boot fn = true ∧ data.length ≤ 128 * 2 ^ s.host.mps.toNat) →
        exec (.bar2Write fn off data) s = .next s) ∧
      (s.bar2Open fn = true → s.inBar2 fn off = true → 128 * 2 ^ s.host.mps.toNat < data.length →
        ∃ s', exec (.bar2Write fn off data) s = .next s' ∧ s'.hbm = s.hbm ∧ onCounter s' .pcie 1 ∧
          bit (Tab.get {} s'.host.aer fn.val).uncorr 18 = true) ∧
      (s.bar2Open fn = true → s.inBar2 fn off = true → s.bar2Boot fn = false → data ≠ [] →
        data.length ≤ 128 * 2 ^ s.host.mps.toNat →
        off.toNat % 4096 + data.length ≤ 4096 →
        let x := s.xlateShared fn off .host true (s.bounceCause fn off)
        (∀ c, x.1 = .refused c → exec (.bar2Write fn off data) s = .next x.2) ∧
        (∀ dpa, x.1 = .ok dpa → s.hbmHeld fn dpa data.length = false → Claims.untraced s →
          ∃ s', exec (.bar2Write fn off data) s = .next s' ∧ ∀ a, Tab.get 0 s'.hbm.mem a =
            if dpa ≤ a ∧ a < dpa + data.length ∧ s.lineOk a = true then data.getD (a - dpa) 0
            else Tab.get 0 s.hbm.mem a) ∧
        (∀ dpa, x.1 = .ok dpa → s.recovering (s.stackOf dpa).1 = false → s.hbmHeld fn dpa data.length = true →
          exec (.bar2Write fn off data) s = .next s) ∧
        (∀ dpa, x.1 = .ok dpa → s.recovering (s.stackOf dpa).1 = true →
          ∃ s', exec (.bar2Write fn off data) s = .next s' ∧
            onCounter s' (.part (s.stackOf dpa).1.val) 6)))

/-! ### The host: configuration, MSI-X, resets, loss and return -/

/-- R388, R422, R427, R429 to R437: configuration requests before and after configuration-ready; an unmasked
vector's pending message; function-level resets, what they take away, and their end; the host lost and
returned.
The mask bits after a reset and the AER registers are PCI Express's (log entries 14 and 106, PRESUMED); what
a function-level reset ends at once, BAR2_SIZE by function, and when a virtual function answers, are the
model's (log entries 52 and 53, DEDUCED). -/
def Obligations.HostLinkEvents : Prop :=
  ∀ (s : State) (f : Func),
    let up : Prop := s.host.lost = false ∧ s.pins.perstN = true ∧ s.pins.pwrOk = true
    let keeps (s' : State) : Prop := s'.cores = s.cores ∧ s'.disp = s.disp ∧ s'.rings = s.rings ∧
      s'.sync = s.sync
    (∀ req : CfgReq, (¬ up → exec (.configRequest f req) s = .next s) ∧
      (up → s.host.cfgReady = false → ∃ s', exec (.configRequest f req) s = .next s' ∧
        s'.host = { s.host with
          sent := .crs :: s.host.sent, dlUp := true, speed := s'.host.speed, width := s'.host.width } ∧
        (s.host.dlUp = true → s'.host.speed = s.host.speed ∧ s'.host.width = s.host.width) ∧ keeps s') ∧
      (up → s.host.cfgReady = true → s.fnEnabled f = false →
        exec (.configRequest f req) s = .next s)) ∧
    (up → s.host.cfgReady = true → s.fnEnabled f = true →
      (∀ n : BitVec 16, ∃ s', exec (.configRequest f (.numVfs n)) s = .next s' ∧ keeps s' ∧
        s'.host = { s.host with numVfs := if f = 0 ∧ s.host.vfEnable = false ∧ n.toNat ≤ 15 then n
          else s.host.numVfs }) ∧
      (∀ on, ∃ s', exec (.configRequest f (.vfEnable on)) s = .next s' ∧ keeps s' ∧
        s'.host = { s.host with vfEnable := if f = 0 then on else s.host.vfEnable }) ∧
      (∀ en mask, ∃ s', exec (.configRequest f (.msixControl en mask)) s = .next s' ∧ keeps s' ∧
        ∀ g, fnBit s'.host.msixEn g = (if g = f then en else fnBit s.host.msixEn g) ∧
          fnBit s'.host.maskAll g = (if g = f then mask else fnBit s.host.maskAll g)) ∧
      (∀ k : BitVec 6, ∃ s', exec (.configRequest f (.bar2Size k)) s = .next s' ∧ keeps s' ∧
        ∀ g, s'.host.bar2Log.get g = if g = f ∧ k.toNat ≤ 7 then k.setWidth 3 else s.host.bar2Log.get g) ∧
      (∀ d3, ∃ s', exec (.configRequest f (.power d3)) s = .next s' ∧ keeps s' ∧
        ∀ g, fnBit s'.host.d3hot g = if g = f then d3 else fnBit s.host.d3hot g) ∧
      (∀ k vf (base : DWord), ∃ s', exec (.configRequest f (.bar k vf base)) s = .next s' ∧ keeps s' ∧
        (f ≠ 0 → s' = s) ∧ ∀ i, Tab.get 0 s'.host.bars i = if f = 0 ∧ i = barKey vf k then
            BitVec.ofNat 64 (base.toNat / 2 ^ s.host.barLog f vf k * 2 ^ s.host.barLog f vf k)
          else Tab.get 0 s.host.bars i) ∧
      (∀ k, ∃ s', exec (.configRequest f (.maxPayload k)) s = .next s' ∧ keeps s' ∧
        s'.host = { s.host with mps := if f = 0 ∧ k.toNat ≤ 2 then k else s.host.mps }) ∧
      (let reports (req : CfgReq) (x : Aer) : Prop := ∃ s', exec (.configRequest f req) s = .next s' ∧ keeps s' ∧
         s'.host = { s.host with aer := s'.host.aer } ∧
         ∀ g : Func, Tab.get {} s'.host.aer g.val = if g = f then x else Tab.get {} s.host.aer g.val
       let a := Tab.get {} s.host.aer f.val
       (∀ c n x, reports (.errorReporting c n x) { a with report := #v[c, n, x] }) ∧
       (∀ u c, reports (.aerClear u c) { a with uncorr := a.uncorr &&& ~~~u, corr := a.corr &&& ~~~c }) ∧
       ∀ u v c, reports (.aerMask u v c) { a with uncorrMask := u, severity := v, corrMask := c }) ∧
      (∀ i, ∃ s', exec (.configRequest f (.doeDiscovery i)) s = .next s' ∧ keeps s' ∧
        (f = 0 → i.toNat ≤ 2 → (fld s'.host.rdata 16 8 : Byte) = i ∧ (fld s'.host.rdata 0 16 : BitVec 16) = 1)) ∧
      exec (.configRequest f .other) s = .next s) ∧
    (s.host.cfgReady = true ∨ s.pins.perstN = false ∨ s.pins.pwrOk = false →
      exec .configReady s = .next s) ∧
    (s.host.cfgReady = false → s.pins.perstN = true → s.pins.pwrOk = true →
      ∃ s', exec .configReady s = .next s' ∧ s'.host.cfgReady = true ∧ s'.host.dlUp = true ∧
        s'.host.sent = .drs :: s.host.sent ∧ keeps s') ∧
    (∀ v : BitVec 6, let key := vecKey f v.toNat
      (s.bar4Open f = false → exec (.msixUnmask f v) s = .next s) ∧
      (s.bar4Open f = true → ∃ s', exec (.msixUnmask f v) s = .next s' ∧ keeps s' ∧
        Tab.get false s'.host.unmask key = true ∧
        (Tab.get false s.host.pba key = true → fnBit s.host.msixEn f = true →
          fnBit s.host.maskAll f = false →
          Sent.msix f v ∈ s'.host.sent ∧ Tab.get false s'.host.pba key = false))) ∧
    (s.fnEnabled f = false ∨ s.host.lost = true → exec (.flr f) s = .next s) ∧
    (s.fnEnabled f = true → s.host.lost = false → f ≠ 0 →
      (fnBit s.host.flr f = true → exec (.flr f) s = .next s) ∧
      (fnBit s.host.flr f = false → ∃ s', exec (.flr f) s = .next s' ∧ fnBit s'.host.flr f = true ∧
        ((∀ p : Part, (s.parts.get p).suspects = [] ∧ (s.parts.get p).bystanders = []) →
          (∀ e j, s'.tracked e = some j → ringFn j.ring.toNat ≠ f) ∧
          (∀ x ∈ s'.disp.fetches, ringFn x.ring.toNat ≠ f) ∧
          ∀ n : LCore, ∀ j ∈ s'.disp.jobs.get n, ringFn j.job.ring.toNat = f →
            j.cancel = true ∧ j.ctx ≠ none))) ∧
    (s.fnEnabled 0 = true → s.host.lost = false → ∀ i, i = Instr.flr 0 ∨ i = .pf0Flr →
      ∃ s', exec i s = .next s' ∧ s'.host.vfEnable = false ∧ ∀ g, fnBit s'.host.flr g = true) ∧
    (s.fnEnabled 0 = false ∨ s.host.lost = true → exec .pf0Flr s = .next s) ∧
    (fnBit s.host.flr f = false ∨ s.jobsOf f = true → exec (.flrDone f) s = .next s) ∧
    (fnBit s.host.flr f = true → s.jobsOf f = false → ∃ s', exec (.flrDone f) s = .next s' ∧
      fnBit s'.host.flr f = false ∧ fnBit s'.host.needFlr f = false ∧ fnBit s'.host.msixEn f = false ∧
      s'.host.bars = (if f = 0 then [] else s.host.bars) ∧
      (∀ g, g ≠ f → fnBit s'.host.flr g = fnBit s.host.flr g) ∧ s'.cores = s.cores ∧
      (∀ r, s'.ring r = if 1024 * f.val ≤ r ∧ r < 1024 * f.val + 1024 then {} else s.ring r) ∧
      (∀ o, s'.obj o = if s.syncOwner o = some f then 0 else s.obj o) ∧
      bit (s'.page (pageNo .pcie)).irqStatus 2 = true) ∧
    (s.host.lost = true ∨ s.host.dlUp = false → exec .hostLost s = .next s) ∧
    (s.host.lost = false → s.host.dlUp = true → ∃ s', exec .hostLost s = .next s' ∧
      s'.host.lost = true ∧ s'.host.dlUp = false ∧ s'.mgmt.lossReports = s.time :: s.mgmt.lossReports ∧ keeps s') ∧
    (s.host.lost = false → exec .hostReturn s = .next s) ∧
    (s.host.lost = true → ∃ s', exec .hostReturn s = .next s' ∧ s'.host.lost = false ∧
      s'.host.returned = true ∧ s'.host.dlUp = true ∧ s'.host.vfEnable = false ∧ s'.host.bars = [] ∧ keeps s' ∧
      ∀ g, fnBit s'.host.needFlr g = true ∧ fnBit s'.host.msixEn g = false ∧
        fnBit s'.host.d3hot g = false)

/-! ### Resets, boot and the management controller -/

/-- A cold reset has been done from `s` (R35, R322, R477, R530): BOOT, contexts IDLE, memories zero with their
remaps built again from fuses and the flashed log, rings and objects empty; flash keeps its slots and the log. -/
def Claims.cold (s s' : State) (power : Bool) : Prop :=
  s'.board.svc.state = .boot ∧ s'.hbm.mem = [] ∧ s'.rings = [] ∧ s'.sync.objs = [] ∧ s'.time = 0 ∧
  (∀ t, (s'.core t).mem = [] ∧ (s'.core t).tags = [] ∧ (s'.core t).remap = remapAtBoot t (s.core t).remap (s.journal.flash.filterMap (·.2)) ∧
    ∀ c, (s'.ctx t c).run = .idle) ∧
  s'.sec.owner = s.sec.owner ∧ s'.sec.tenant = s.sec.tenant ∧ s'.sec.epoch = s.sec.epoch ∧
  s'.sec.flag = s.sec.flag ∧ s'.sec.next = s.sec.next ∧ s'.sec.mode = s.sec.kept ∧ s'.sec.aliasMode = s.sec.kept ∧
  s'.journal.flash = s.journal.flash ∧ s'.board.islandsOut = s.board.islandsOut ∧
  s'.mgmt.flash = s.mgmt.flash ∧
  s'.mgmt.fused = s.mgmt.fused ∧
  ∀ p : Part, (s'.parts.get p).dumpValid = if power then false else (s.parts.get p).dumpValid

/-- The bisque stage has chosen from the flash of `s` (R480, R481): the active slot, or a pending one on
trial for at most two boots; the other slot where that fails its check; RECOVERY where both do. A header can be written
while its sequence number can count on (R478). -/
def Claims.selects (s s' : State) : Prop :=
  let x := s.mgmt.flash
  let m := s'.mgmt
  let ok (b : Bool) : Prop := (x.slot b).check s.mgmt.fused = 0
  let runs (b fallback trial : Bool) : Prop := m.stage = 1 ∧ m.slot = b ∧ m.fallback = fallback ∧
    m.trial = trial ∧ m.verActive = (x.slot b).version ∧ m.svnActive = (x.slot b).svn
  let tries (b trial : Bool) : Prop := (ok b → runs b false trial) ∧ (¬ ok b → ok (!b) → runs (!b) true false) ∧
    (¬ ok b → ¬ ok (!b) → m.stage = 15 ∧ m.fallback = true)
  m.selected = true ∧
  let h := x.inForce
  let h' := m.flash.inForce
  (h.pending = none → tries h.active false ∧ m.flash = x) ∧
  (∀ b, h.pending = some b → h.tries + 1 ≠ 3 → tries b true ∧
    (h.seq ≠ 0xFFFFFFFF → h' = { h with tries := h.tries + 1, seq := h.seq + 1 })) ∧
  (∀ b, h.pending = some b → h.tries + 1 = 3 → tries h.active false ∧
    (h.seq ≠ 0xFFFFFFFF → h' = { h with pending := none, tries := 3, seq := h.seq + 1 }))

/-- R393, R430, R456, R477, R480 to R484, R489, R504, R550 to R552, R554: power and PERST_N reset the device and
start its boot; the bisque stage's choice; production test; BOOT ends with the states of R482; a trial boot
that does not end is reset; the management controller's watchdog.
What survives a cold reset, the end of the boot's firing, the link at BOOT_COMPLETE, what a fault during
BOOT does, the places of a boot header's fields and the steps that STAGE shows are the model's (log entries
58, 66 and 115, DEDUCED; 97, 118 and 119, DESIGN CHOICE). -/
def Obligations.BootEvents : Prop :=
  ∀ (s : State),
    (s.pins.perstN = false → exec .perstN s = .next s) ∧
    (s.pins.perstN = true → ∃ s', exec .perstN s = .next s' ∧ Claims.cold s s' false ∧
      s'.pins.perstN = false ∧ s'.pins.pwrOk = s.pins.pwrOk ∧ s'.mgmt.selected = false) ∧
    (∀ (id : BitVec 3) (mfg : Bool),
      let starts (i : Instr) (s0 : State) : Prop :=
        (mfg = true → s.sec.owner = none → ∃ s', exec i s = .next s' ∧ s'.pins.prodTest = true ∧
          s'.mgmt.selected = s0.mgmt.selected ∧ s'.pins.mfgTest = true) ∧
        (mfg = false ∨ s.sec.owner ≠ none → ∃ s', exec i s = .next s' ∧ Claims.selects s s' ∧
          s'.pins.peerId = id ∧ s'.pins.prodTest = s0.pins.prodTest ∧
          (s'.mgmt.stage = 1 → s'.clocks.ref100 = true))
      (s.pins.perstN = true → exec (.perstNDeassert id mfg) s = .next s) ∧
      (s.pins.perstN = false → s.pins.pwrOk = false → exec (.perstNDeassert id mfg) s =
        .next { s with pins := { s.pins with perstN := true } }) ∧
      (s.pins.perstN = false → s.pins.pwrOk = true → starts (.perstNDeassert id mfg) s) ∧
      (s.pins.pwrOk = true → exec (.powerOn id mfg) s = .next s) ∧
      (s.pins.pwrOk = false → s.pins.perstN = false → ∃ s', exec (.powerOn id mfg) s = .next s' ∧
        Claims.cold s s' true ∧ s'.pins.pwrOk = true ∧ s'.pins.hiZ = false ∧ s'.pins.qspiRstN = true) ∧
      (s.pins.pwrOk = false → s.pins.perstN = true → starts (.powerOn id mfg) (s.coldReset true))) ∧
    (s.pins.pwrOk = false → exec .pwrOkFall s = .next s) ∧
    s.tearFlash.mgmt.flash.inForce = s.mgmt.flash.inForce ∧ s.tearFlash.mgmt.fused = s.mgmt.fused ∧
    (s.mgmt.cmd = none → s.tearFlash.mgmt = s.mgmt) ∧ s.tearFlash.sec = s.sec ∧
    (∀ i, i ∉ s.tearFlash.journal.spoiled → Tab.get none s.tearFlash.journal.flash i = Tab.get none s.journal.flash i) ∧
    (s.pins.pwrOk = true → ∃ s', exec .pwrOkFall s = .next s' ∧ Claims.cold s.tearFlash s' true ∧
      s'.pins.pwrOk = false ∧ s'.pins.hiZ = true ∧ s'.pins.qspiRstN = false ∧ s'.pins.thermtrip = false) ∧
    (∀ islands channels,
      (s.board.svc.state ≠ .boot ∨ s.pins.pwrOk = false ∨ s.pins.perstN = false ∨ s.pins.thermtrip = true →
        exec (.bootComplete islands channels) s = .next s) ∧
      (s.mgmt.selected = true ∨ s.pins.prodTest = true → (s.mgmt.stage = 15 ∨ s.pins.prodTest = true) →
        exec (.bootComplete islands channels) s = .next s) ∧
      (s.board.svc.state = .boot → s.pins.pwrOk = true → s.pins.perstN = true → s.mgmt.selected = true →
        s.mgmt.stage ≠ 15 → s.pins.prodTest = false → s.pins.thermtrip = false →
        (∀ r : Fin 13, 4 ≤ r.val → s.clocks.faulty = [r] →
          ∃ s', exec (.bootComplete islands channels) s = .next s' ∧ s'.board.svc.state = .failed) ∧
        (s.clocks.faulty = [] → ∃ s', exec (.bootComplete islands channels) s = .next s' ∧ s'.board.svc.state ≠ .boot ∧
          s'.mgmt.stage = 8 ∧ s'.sec.claimOpen = true ∧ s'.sec.opened = s'.time ∧
          (∀ c ∈ channels, c ∈ s'.board.channelsOut) ∧ (∀ i ∈ islands, s'.islandOk i.val = false) ∧
          (s.mgmt.trial = true → (s.mgmt.flash.inForce.seq ≠ 0xFFFFFFFF → s'.mgmt.flash.inForce =
              { active := s.mgmt.slot, pending := none, tries := 0, seq := s.mgmt.flash.inForce.seq + 1 }) ∧
            s'.mgmt.trial = false ∧ s.mgmt.svnActive.toNat ≤ s'.mgmt.fused.toNat)))) ∧
    (s.board.svc.state = .boot → s.mgmt.trial = true → s.pins.pwrOk = true → s.pins.perstN = true →
      (s.pins.mfgTest = false ∨ s.sec.owner ≠ none) → 3 * 10 ^ 9 ≤ (s.time - s.mgmt.bootFrom).toNat →
      ∃ s', exec .trialTimeout s = .next s' ∧ Claims.selects s s' ∧ s'.board.svc.state = .boot) ∧
    (s.board.svc.state ≠ .boot ∨ s.mgmt.trial = false ∨ (s.time - s.mgmt.bootFrom).toNat < 3 * 10 ^ 9 →
      exec .trialTimeout s = .next s) ∧
    ∃ s', exec .mgmtWatchdogExpiry s = .next s' ∧ s'.sec.mgmt = false ∧ s'.sec.doe = none ∧
      s'.mgmt.cmd = none ∧ (∀ c, s.mgmt.cmd = some c → s'.mgmt.result = 5) ∧ s'.rings = s.rings

/-- R485 to R487: a command row submits its command unless one runs, which sets OVERRUN; at its end BUSY falls,
MB_DONE is set, and the command has had its effect or its error.
How FW_WRITE lays out a slot, what wedging makes of a command, and when the mailbox is served, are the
model's (log entries 63, 64 and 119, DEDUCED; 118, DESIGN CHOICE). -/
def Obligations.MailboxRows : Prop :=
  ∀ (s : State),
    (∀ (w : Who) (i : Instr) (op : Byte), (i = .getInfo w ∧ op = 1) ∨ (i = .fwWrite w ∧ op = 2) ∨
        (i = .fwCommit w ∧ op = 3) ∨ (i = .fwCancel w ∧ op = 4) ∨ (i = .logRead w ∧ op = 5) ∨
        (i = .dumpRead w ∧ op = 6) →
      (s.mayWrite w .mgmt = false → exec i s = .next s) ∧
      (s.mayWrite w .mgmt = true → s.mgmt.cmd = none → ∃ s', exec i s = .next s' ∧
        s'.mgmt = { s.mgmt with
          cmd := some ⟨op, fld (s.staged .mgmt 0x080) 8 12, s.staged .mgmt 0x084⟩ }) ∧
      (∀ c, s.mayWrite w .mgmt = true → s.mgmt.cmd = some c → ∃ s', exec i s = .next s' ∧
        s'.mgmt = s.mgmt ∧ bit (s'.page (pageNo .mgmt)).irqStatus 2 = true)) ∧
    (s.mgmt.cmd = none → exec .mbDone s = .next s) ∧
    (∀ c, s.mgmt.cmd = some c → s.bootStage.toNat < 2 →
      exec .mbDone s = .next s) ∧
    (∀ c, s.mgmt.cmd = some c → 2 ≤ s.bootStage.toNat → s.mgmt.stage ≠ 15 →
      let m := s.mgmt
      let b := !m.slot
      let x := m.flash.slot b
      let h := m.flash.inForce
      let arg := c.arg.toNat
      let len := c.len.toNat
      let ends (result : Byte) (out : Nat) (also : State → Prop) : Prop :=
        ∃ s', exec .mbDone s = .next s' ∧ s'.mgmt.cmd = none ∧ s'.mgmt.result = result ∧
          s'.mgmt.rlen = BitVec.ofNat 12 out ∧ bit (s'.page (pageNo .mgmt)).irqStatus 0 = true ∧ also s'
      let same (s' : State) : Prop := s'.mgmt.flash = m.flash
      (s.sec.busy = true → ends 6 0 same) ∧
      (s.sec.busy = false →
        (let readable : Prop := ∀ b, ∀ o ∈ (m.flash.slot b).images, (m.flash.slot b).tornIn o 256 = false
         (c.op = 1 → readable → ends 0 2048 same) ∧ (c.op = 1 → ¬ readable → ends 5 0 same)) ∧
        (c.op = 2 → arg % 2048 ≠ 0 ∨ 2048 < len ∨ slotSize < arg + len → ends 2 0 same) ∧
        (c.op = 2 → arg % 2048 = 0 → len ≤ 2048 → arg + len ≤ slotSize → ends 0 0 fun s' =>
          s'.mgmt.flash.slot (!b) = m.flash.slot (!b) ∧ ∀ i, (s'.mgmt.flash.slot b).byte i =
            if arg ≤ i ∧ i < arg + len then (s.mbInput len).getD (i - arg) 0 else x.byte i) ∧
        (c.op = 3 → x.check m.fused = 0 → ends 0 0 fun s' => s'.mgmt.verOther = x.version ∧
          (h.seq ≠ 0xFFFFFFFF → s'.mgmt.flash.inForce =
            { h with pending := some b, tries := 0, seq := h.seq + 1 })) ∧
        (c.op = 3 → x.check m.fused ≠ 0 → ends (if x.check m.fused = 4 then 4
          else if x.check m.fused = 5 then 5 else 3) 0 same) ∧
        (c.op = 4 → ends 0 0 fun s' => s'.mgmt.verOther = 0 ∧
          (h.seq ≠ 0xFFFFFFFF → s'.mgmt.flash.inForce.pending = none)) ∧
        (c.op = 5 → 1024 ≤ arg → ends 2 0 same) ∧
        (c.op = 5 → arg < 1024 → ends 0 (64 * min 32 (1024 - arg)) same) ∧
        (c.op = 6 → s.saggar = true → ends 8 0 same) ∧
        (c.op = 6 → s.saggar = false → 0x200000 ≤ arg → ends 2 0 same) ∧
        (c.op = 6 → s.saggar = false → arg < 0x200000 → ends 0 (min 2048 (0x200000 - arg)) same) ∧
        (c.op = 0 ∨ 6 < c.op.toNat → ends 1 0 same)))

/-! ### Ownership, tenancy and wedging -/

/-- R419, R455 to R464, R470, R473, R475: an owner message needs its session, its ownership state, a fresh nonce and
a signature, in that order, and has its effect; RELEASE, ASSIGN_TENANT and END_TENANCY begin a wedging; the
tenant's messages, the open ones, and the wedging's course to its end.
The cryptographic functions are constants without a body (log entry 7); the order of the checks, the bytes
that a signature covers, the claim window, the phases of a wedging, the fields of the alias certificate and
the chain of slot 0 are the model's (log entries 60, 62, 63 and 66, DEDUCED; 61, 105 and 120, PRESUMED). -/
def Obligations.SecurityRows : Prop :=
  ∀ (s : State),
    let x := s.sec
    let net := x.mgmt && s.awake
    let fresh : Prop := ∃ v t, x.nonce = some (v, t) ∧ (s.time - t).toNat ≤ 60 * 10 ^ 9
    let signs (key : Option (BitVec 776)) (m : List Byte) (sig : BitVec 768) : Prop := ∃ v t k,
      x.nonce = some (v, t) ∧ key = some k ∧ Config.ecdsaOk k (m ++ leBytes v 32) sig = true
    let answers (i : Instr) (result : Byte) (y : Sec) : Prop := ∃ s', exec i s = .next s' ∧
      s'.sec = { y with reply := ⟨result, []⟩ } ∧ s'.cores = s.cores ∧ s'.hbm = s.hbm ∧ s'.rings = s.rings
    let used : Sec := { x with nonce := none }
    let wedges (i : Instr) (n : NextTenancy) : Prop := ∃ s', exec i s = .next s' ∧
      s'.sec.wedging = true ∧ s'.sec.flag = true ∧ s'.sec.next = some n ∧ s'.sec.phase = 5 ∧
      s'.sec.mode = n.mode ∧ (∀ l, s'.cells l = if n.mode = .saggar then sealLine l (s'.hbmBytes l 64)
        else s'.hbmBytes l 64) ∧ s'.sec.keys = [] ∧ s'.sec.bounce = [] ∧ s'.sec.reply = ⟨0, []⟩ ∧
      s'.sec.owner = x.owner ∧ s'.rings = [] ∧ s'.disp = {} ∧ s'.sync = {} ∧
      (∀ t : Tile, (s'.core t).mem = [] ∧ ∀ c, (s'.ctx t c).run = .idle)
    let owners (i : Instr) (stateOk : Bool) (key : Option (BitVec 776)) (m : List Byte)
        (sig : BitVec 768) (does : Prop) : Prop :=
      (net = false → exec i s = .next s) ∧
      (net = true → x.busy = true → answers i 4 x) ∧
      (net = true → x.busy = false → stateOk = false → answers i 3 x) ∧
      (net = true → x.busy = false → stateOk = true → key ≠ none →
        (¬ fresh → answers i 2 used) ∧
        (fresh → ¬ signs key m sig → answers i 1 used) ∧ (fresh → signs key m sig → does))
    let tenants (i : Instr) (does : Prop) : Prop :=
      let reached : Prop := s.fnEnabled 0 = true ∧ s.host.lost = false
      (¬ reached → exec i s = .next s) ∧ (reached → x.busy = true → answers i 4 x) ∧
      (reached → x.busy = false → x.tenant = none → answers i 3 x) ∧
      (∀ k, reached → x.busy = false → x.tenant = some k →
        (x.doe ≠ some (some k) → answers i 9 x) ∧ (x.doe = some (some k) → does))
    (net = false → exec .getNonce s = .next s) ∧
    (net = true → x.busy = true → answers .getNonce 4 x) ∧
    (net = true → x.busy = false → ∃ s' v, exec .getNonce s = .next s' ∧
      s'.sec = { x with nonce := some (v, s.time), reply := ⟨0, leBytes v 32⟩ }) ∧
    (∀ key sig, owners (.claim key sig) (x.owner.isNone && x.claimOpen &&
        decide ((s.time - x.opened).toNat < 600 * 10 ^ 9)) (some key)
      (0x02 :: beBytes key) sig
      (answers (.claim key sig) 0 { used with owner := some key, epoch := 0 })) ∧
    (∀ sig, owners (.release sig) x.owner.isSome x.owner [0x03] sig
      (wedges (.release sig) ⟨false, none, .standard⟩)) ∧
    (∀ key (saggar : Byte) sig, owners (.assignTenant key saggar sig) x.owner.isSome x.owner
      (0x04 :: (beBytes key ++ [saggar])) sig
      (if saggar.toNat ≤ 1 then wedges (.assignTenant key saggar sig)
          ⟨true, some key, if saggar = 1 then .saggar else .standard⟩
        else answers (.assignTenant key saggar sig) 5 used)) ∧
    (∀ sig, owners (.endTenancy sig) (x.owner.isSome && x.tenant.isSome) x.owner [0x05] sig
      (wedges (.endTenancy sig) ⟨true, none, .standard⟩)) ∧
    (∀ sig, owners (.debugUnlock sig) x.owner.isSome x.owner [0x06] sig
      (if x.mode = .saggar then answers (.debugUnlock sig) 8 used
        else answers (.debugUnlock sig) 0 { used with
          mode := .debug, aliasMode := .debug, keys := [], mgmt := false, doe := none })) ∧
    (∀ path, (s.session path = false → exec (.getState path) s = .next s) ∧
      (s.session path = true → ∃ s' data, exec (.getState path) s = .next s' ∧
        s'.sec = { x with reply := ⟨0, data⟩ } ∧ data.length = 448 ∧ data.take 4 = leBytes x.state 4 ∧
        (data.drop 4).take 4 = leBytes x.epoch 4)) ∧
    (∀ path (slot : BitVec 3), ((path = .doe ∧ (s.fnEnabled 0 = false ∨ s.host.lost = true)) ∨ (path = .management ∧ s.awake = false) →
        exec (.getCertificate path slot) s = .next s) ∧
      ((path = .doe → s.fnEnabled 0 = true ∧ s.host.lost = false) → (path = .management → s.awake = true) →
        exec (.getCertificate path slot) s = .next { s with sec := { x with reply := ⟨0,
          if slot = 0 then certificateChain x.measure x.aliasMode.code else []⟩ } })) ∧
    (∀ (fn : BitVec 4) (rs : List (DWord × DWord)), tenants (.setBounce fn rs)
      (let rest := x.bounce.filter fun b => b.func != fn.toFin
       let new : List Bounce := rs.map fun r => ⟨fn.toFin, BitVec.ofNat 19 (r.1.toNat / 2 ^ 21),
         BitVec.ofNat 20 (r.2.toNat / 2 ^ 21)⟩
       let ok : Prop := (∀ r ∈ rs, r.1.toNat % 2 ^ 21 = 0 ∧ r.2.toNat % 2 ^ 21 = 0 ∧
         r.1.toNat + r.2.toNat ≤ 2 ^ 40 ∧ r.1.toNat < 2 ^ 40) ∧ rs.length ≤ 8 ∧
         rest.length + rs.length ≤ 64 ∧ new.Pairwise fun a b => a.meets b = false
       (ok → answers (.setBounce fn rs) 0 { x with bounce := rest ++ new }) ∧
       (¬ ok → answers (.setBounce fn rs) 5 x))) ∧
    (∀ (slot : Byte) fmask eph iv wrapped tag, tenants (.keyLoad slot fmask eph iv wrapped tag)
      (let i : Instr := .keyLoad slot fmask eph iv wrapped tag
       let key := unwrapKey x.measure x.aliasMode.code slot fmask eph iv wrapped tag
       (key = none → answers i 6 x) ∧
       (∀ k, key = some k → (63 < slot.toNat → answers i 5 x) ∧
         (slot.toNat ≤ 63 → Tab.get none x.keys slot.toNat ≠ none → answers i 7 x) ∧
         (slot.toNat ≤ 63 → Tab.get none x.keys slot.toNat = none →
           answers i 0 { x with keys := Tab.set none x.keys slot.toNat (some ⟨fmask, k⟩) })))) ∧
    (∀ slot : Byte, tenants (.keyClear slot)
      (if 63 < slot.toNat then answers (.keyClear slot) 5 x
        else answers (.keyClear slot) 0 { x with keys := Tab.set none x.keys slot.toNat none })) ∧
    (∀ (part : Byte) (off : Word), tenants (.tenantDumpRead part off)
      ((4 ≤ part.toNat ∨ off.toNat % 64 ≠ 0 ∨ 0x80000 ≤ off.toNat →
          answers (.tenantDumpRead part off) 5 x) ∧
        (∀ p : Part, part.toNat = p.val → off.toNat % 64 = 0 → off.toNat < 0x80000 →
          exec (.tenantDumpRead part off) s = .next { s with sec := { x with reply := ⟨0,
            (List.range (min 1024 (0x80000 - off.toNat))).map fun i =>
              (s.parts.get p).dumpByte (off.toNat + i)⟩ } }))) ∧
    (x.claimOpen = true → (s.time - x.opened).toNat < 600 * 10 ^ 9 → exec .claimWindowClose s = .next s) ∧
    (600 * 10 ^ 9 ≤ (s.time - x.opened).toNat →
      ∃ s', exec .claimWindowClose s = .next s' ∧ s'.sec = { x with claimOpen := false }) ∧
    (∀ r, (s.awake = false → exec (.spdmSessionEstablish .management r) s = .next s) ∧ (s.awake = true →
      ∃ s', exec (.spdmSessionEstablish .management r) s = .next s' ∧ s'.sec = { x with mgmt := true })) ∧
    (∀ r, (s.fnEnabled 0 = false ∨ s.host.lost = true →
        exec (.spdmSessionEstablish .doe r) s = .next s) ∧
      (s.fnEnabled 0 = true → s.host.lost = false → exec (.spdmSessionEstablish .doe r) s =
        .next { s with sec := { x with doe := some r } })) ∧
    (x.wedging = false ∨ x.phase ≠ 5 → exec .wedgingZeroDone s = .next s) ∧
    (x.wedging = true → x.phase = 5 → ∃ s', exec .wedgingZeroDone s = .next s' ∧ s'.hbm.mem = [] ∧
      s'.hbm.marks = [] ∧ s'.sec = { x with phase := 6 }) ∧
    (∀ bad, (x.wedging = false ∨ x.phase ≠ 6 → exec (.wedgingVerifyDone bad) s = .next s) ∧
      (∀ n, x.wedging = true → x.phase = 6 → x.next = some n →
        ∃ s', exec (.wedgingVerifyDone bad) s = .next s' ∧ s'.sec = { x with
            owner := (if n.owned then x.owner else none), tenant := n.tenant, kept := n.mode
            epoch := (if n.tenant.isSome then x.epoch + 1 else x.epoch), flag := false, next := none
            wedging := false, phase := 0, wedgeUs := s'.sec.wedgeUs } ∧
          s'.hbm.modeLatched = false ∧ s'.hbm.wide = false ∧
          ∀ c ∈ bad, s'.channelIn ⟨c.val / 16, by omega⟩ (c.val % 16) = false))

/-! ### The Vabor ports, peer queues and time -/

/-- R438, R441 to R444, R450 to R453, R471, R472: what moves a port between its states and what it notes of
its neighbour; an identification's three refusals; key exchanges; a route runs through the first
ACTIVE port to a neighbour, a row hop before another; a time exchange's offset and delay, and the one step forward.
What a packet takes, what silence and a new session reset, and which device steps its time are the model's
(log entries 41 and 44, DESIGN CHOICE; 43, DEDUCED). -/
def Obligations.PeerPortEvents : Prop :=
  ∀ (s : State) (q : Fin 4),
    let p := s.peer.ports.get q
    let gives (i : Instr) (p' : Port) : Prop := ∃ s', exec i s = .next s' ∧ s'.peer.ports.get q = p' ∧
      (∀ r, r ≠ q → s'.peer.ports.get r = s.peer.ports.get r) ∧ s'.peer.queues = s.peer.queues ∧
      s'.cores = s.cores ∧ (p'.run ≠ p.run → bit (s'.page (pageNo (.peer q.val))).irqStatus 0 = true) ∧
      ((p.run = .active ↔ p'.run = .active) → s'.peer.routes = s.peer.routes) ∧
      (¬ (p.run = .active ↔ p'.run = .active) → ∀ r d, (s'.peer.ports.get r).run = .active →
        (s'.peer.ports.get r).nbrId = d → d ≠ s.pins.peerId →
        (∀ u ∈ routeOrder.takeWhile (· ≠ r),
          ¬ ((s'.peer.ports.get u).run = .active ∧ (s'.peer.ports.get u).nbrId = d)) →
        bit (s'.peer.routes.get d.toFin) 4 = true ∧ (fld (s'.peer.routes.get d.toFin) 5 3 : BitVec 3) = 1 ∧
          (fld (s'.peer.routes.get d.toFin) 0 2 : BitVec 2) = BitVec.ofNat 2 r.val)
    let stays (i : Instr) : Prop := exec i s = .next s
    let quiet : Port := { p with
      width := 0, session := none, failed := false, buffer := [], waiting := [], nak := false
      encrypted := false, cause := 0, txSeq := 0, rxGood := 0xFFF, ack := 0xFFF, reqCredit := 0
      respCredit := 0, owedReq := 0, owedResp := 0 }
    (∀ lanes : BitVec 4, (p.run = .detect → 4 ≤ lanes.toNat →
        gives (.peerDetected q lanes) { p with run := .train }) ∧
      (p.run ≠ .detect ∨ lanes.toNat < 4 → stays (.peerDetected q lanes))) ∧
    (∀ x8, let w : BitVec 4 := if x8 then 8 else 4
      (p.run = .train → gives (.peerTrained q x8) { p with run := .ident, width := w }) ∧
      (p.run = .retrain → gives (.peerTrained q x8) { p with run := .active, width := w }) ∧
      (p.run ≠ .train → p.run ≠ .retrain → stays (.peerTrained q x8))) ∧
    (∀ id : PeerIdent, (p.run ≠ .ident → stays (.peerIdent q id)) ∧
      (p.run = .ident →
        let known := { p with nbrId := id.peerId, nbrPort := id.port, serial := id.serial }
        let clash := id.peerId = s.pins.peerId ∨
          (s.reachable id.peerId = true ∧ s.serialOf id.peerId ≠ id.serial)
        let foreign := id.domain ≠ s.domain ∨ id.domain = 0
        let isolated (c : BitVec 2) : Prop := gives (.peerIdent q id)
          { known with run := .isolated, cause := c, encrypted := false }
        (clash → isolated 1) ∧ (¬ clash → foreign → isolated 2) ∧
        (¬ clash → ¬ foreign → id.saggar ≠ s.saggar → isolated 3) ∧
        (¬ clash → ¬ foreign → id.saggar = s.saggar → ∃ s', exec (.peerIdent q id) s = .next s' ∧
          let p' := s'.peer.ports.get q
          p'.run = .key ∧ p'.nbrId = id.peerId ∧ p'.nbrPort = id.port ∧ p'.serial = id.serial ∧ p'.cause = 0 ∧
          p'.encrypted = s.saggar ∧ (p.waiting = [] → p.buffer.length ≤ 125 → p'.txSeq = p.txSeq + 3 ∧
            (p'.out.take 3).map (·.cargo) = List.replicate 3 (.keys (s.exchange p'.eph)))))) ∧
    (∀ kx : KeyExchange,
      (p.run ≠ .key ∨ p.failed = true → stays (.peerKeyExchange q kx)) ∧
      (p.run = .key → p.failed = false → s.kxOk kx = true → ∃ n m, gives (.peerKeyExchange q kx) { p with
        run := .active, session := some (s.sessionOf q kx), sent := 0, got := 0, owedReq := n, owedResp := m }) ∧
      (p.run = .key → p.failed = false → s.kxOk kx = false →
        gives (.peerKeyExchange q kx) { p with failed := true }) ∧
      (p.run ≠ .active ∨ p.failed = true ∨ (p.sent.toNat < 2 ^ 32 ∧ p.got.toNat < 2 ^ 32) →
        stays (.keyRollover q kx)) ∧
      (p.run = .active → p.failed = false → 2 ^ 32 ≤ p.sent.toNat ∨ 2 ^ 32 ≤ p.got.toNat → s.kxOk kx = true →
        ∃ s', exec (.keyRollover q kx) s = .next s' ∧ let p' := s'.peer.ports.get q
          p'.run = .active ∧ p'.sent = 0 ∧ p'.got = 0 ∧
            p'.session = some ((s.modPort q fun x => { x with eph := p'.eph }).sessionOf q kx)) ∧
      (p.run = .active → p.failed = false → 2 ^ 32 ≤ p.sent.toNat ∨ 2 ^ 32 ≤ p.got.toNat → s.kxOk kx = false →
        gives (.keyRollover q kx) { p with failed := true })) ∧
    (∀ (w : Who) (i : Instr), (i = .peerRetrain w q ∧ s.mayWrite w (.peer q.val) = true) ∨
        i = .peerLaneLoss q →
      (p.run = .active → gives i { p with run := .retrain, buffer := p.buffer.map fun x => { x with replays := 0 } }) ∧ (p.run ≠ .active → stays i)) ∧
    (∀ w : Who, s.mayWrite w (.peer q.val) = false → stays (.peerRetrain w q)) ∧
    (p.run = .disabled ∨ p.run = .down → stays (.peerLinkSilence q)) ∧
    (p.run ≠ .disabled → p.run ≠ .down →
      ((∀ f x, x ∈ (s.pq f).flight → x.port ≠ q) →
        gives (.peerLinkSilence q) { quiet with run := .down }) ∧
      ∃ s', exec (.peerLinkSilence q) s = .next s' ∧ s'.peer.ports.get q = { quiet with run := .down } ∧
        ∀ f x rest, (s.pq f).flight = x :: rest → x.failed = none →
          x.port = q →
          (s'.pq f).state = .error ∧ (s'.pq f).head = (s.pq f).head ∧
          (rest = [] → (s'.pq f).flight = [] ∧ (s'.pq f).errStat = 0x46)) ∧
    (p.run = .down ∨ p.run = .isolated → gives (.peerRedetect q) { quiet with run := .detect }) ∧
    (p.run ≠ .down → p.run ≠ .isolated → stays (.peerRedetect q)) ∧
    (∀ t1 t2 t3 t4 : DWord, let i : Instr := .timeExchange q t1 t2 t3 t4
      let offset : DWord := ((t2 - t1) - (t4 - t3)).sshiftRight 1
      (p.run ≠ .active ∨ p.failed = true → stays i) ∧
      (p.run = .active → p.failed = false → ∃ s', exec i s = .next s' ∧ (s'.peer.ports.get q).offset = offset ∧
        (s'.peer.ports.get q).delay = ((t4 - t1) - (t3 - t2)).sshiftRight 1 ∧
        (s.timePort ≠ some q → (s.peer.joined = false ∨ offset.toInt ≤ 0 → s'.time = s.time) ∧
          (s'.time = s.time ∨ s'.time = s.time + offset) ∧ s'.peer.rate = s.peer.rate ∧
          s'.peer.locked = s.peer.locked) ∧
        (s.timePort = some q → s'.peer.ofs = offset.setWidth 32 ∧
          -500 ≤ s'.peer.rate ∧ s'.peer.rate ≤ 500 ∧
          (s.peer.fresh = true ∨ s.peer.joined = false →
            s'.time = (if s.peer.fresh = true ∧ 0 < offset.toInt then s.time + offset else s.time)) ∧
          s'.peer.fresh = false ∧
          (50 < offset.toInt.natAbs → s'.peer.locked = false) ∧
          (offset.toInt.natAbs ≤ 50 → s.peer.locked = true → s'.peer.locked = true) ∧
          (40 < offset.toInt.natAbs → s'.peer.steady = none)))) ∧
    (s.peer.alone = none → exec .timeLockLost s = .next s) ∧
    ∀ t, s.peer.alone = some t →
      (10000000 ≤ (s.time - t).toNat →
        exec .timeLockLost s = .next { s with peer := { s.peer with locked := false, steady := none } }) ∧
      ((s.time - t).toNat < 10000000 → exec .timeLockLost s = .next s)

/-- R439, R440, R444 to R449, R453: a bad flit, and one out of sequence, is answered with NAK; a good one is
taken and answered; the eighth replay retrains; a queue's commit, RUN and RESTART; a descriptor is fetched and its
requests leave, it signals and completes, or fails in order with its status; and what a peer's request does here.
The layout of packets, their size and credit, the source of a refused access, and the performing of a peer's
accesses in their command are the model's (log entries 41 and 107, DESIGN CHOICE; 42, DEDUCED). -/
def Obligations.PeerTransferEvents : Prop :=
  ∀ (s : State) (q : Fin 4) (f : Func),
    let p := s.peer.ports.get q
    let x := s.pq f
    let port (s' : State) : Port := s'.peer.ports.get q
    let open_ : Prop := (p.run = .active ∨ p.run = .key ∨ p.run = .ident) ∧ p.failed = false
    let sends (s' : State) (r : Fin 4) (c : Cargo) : Prop :=
      c ∈ (s'.peer.ports.get r).waiting ∨ c ∈ (s'.peer.ports.get r).out.map (·.cargo)
    let onPeer (s' : State) (i : Nat) : Prop :=
      Tab.get 0 (s'.page (pageNo (.peer 0))).counters i = Tab.get 0 (s.page (pageNo (.peer 0))).counters i + 1
    (∀ flit : Flit, let good : Prop := flit.crc = crc64 (flitBytes flit) ∧ p.tagOk flit = true
      (¬ open_ → exec (.flitReceive q flit) s = .next s) ∧
      (open_ → ¬ good ∨ (flit.type ≠ 0 ∧ flit.seq ≠ p.rxGood + 1) → ∃ s', exec (.flitReceive q flit) s = .next s' ∧
        (port s').rxGood = p.rxGood ∧ (port s').got = p.got ∧ (port s').ack = p.ack ∧
        ∃ l x, (port s').out = l ++ x :: p.out ∧ x.flit.nak = true ∧ x.flit.ack = p.rxGood) ∧
      (open_ → good → flit.type ≠ 0 → flit.seq = p.rxGood + 1 →
        ∃ s', exec (.flitReceive q flit) s = .next s' ∧ onPeer s' 1 ∧ (port s').rxGood = flit.seq ∧
          (port s').nak = false ∧ (port s').got = p.got + 1 ∧
          (flit.type ≠ 1 → p.waiting = [] → (port s').reqCredit = p.reqCredit + flit.creditReq.toNat ∧
            (port s').respCredit = p.respCredit + flit.creditResp.toNat ∧
            ((flit.ack - p.ack).toNat ≤ p.buffer.length → (port s').ack = flit.ack ∧
              (port s').buffer = p.buffer.drop (flit.ack - p.ack).toNat) ∧
            (flit.nak = false → ∃ x, (port s').out = x :: p.out ∧ x.flit.type = 0 ∧ x.flit.ack = flit.seq)) ∧
          (flit.nak = false → (port s').run = p.run)) ∧
      (open_ → good → flit.type = 0 → ∃ s', exec (.flitReceive q flit) s = .next s' ∧ onPeer s' 1 ∧
        (port s').rxGood = p.rxGood ∧ (port s').got = p.got)) ∧
    ((p.run ≠ .active ∧ p.run ≠ .key) ∨ p.buffer = [] → exec (.flitReplayTimeout q) s = .next s) ∧
    (p.run = .active ∨ p.run = .key → p.buffer ≠ [] → ∃ s', exec (.flitReplayTimeout q) s = .next s' ∧ onPeer s' 3 ∧
      (let often : Prop := p.run = .active ∧ ∃ x ∈ p.buffer, 7 ≤ x.replays
       (often → port s' = { p with
          out := p.buffer.reverse ++ p.out, run := .retrain, buffer := p.buffer.map fun x => { x with replays := 0 } }) ∧
       (¬ often → port s' = { p with
          out := p.buffer.reverse ++ p.out, buffer := p.buffer.map fun x => { x with replays := x.replays + 1 } }))) ∧
    (∀ w : Who, Claims.commits (.peerCommit w) w (.peer 0) .peer s ∧
      Claims.commits (.pqCommit w f) w (.peer 0) (.pq f) s ∧
      (s.mayWrite w (.peer 0) = false → ∀ run, exec (.pqRun w f run) s = .next s ∧
        exec (.pqRestart w f) s = .next s) ∧
      (s.mayWrite w (.peer 0) = true → s.checkRuns (.peer 0) (.pq f) = false →
        let settled (y : PeerQueue) : PeerQueue :=
          if y.state = .active ∧ y.run = false ∧ y.flight = [] then { y with state := .idle } else y
        let gives (i : Instr) (y : PeerQueue) : Prop := ∃ s', exec i s = .next s' ∧ s'.pq f = settled y ∧
          (∀ g, g ≠ f → s'.pq g = s.pq g) ∧ s' = { s with peer := s'.peer }
        (∀ run, gives (.pqRun w f run) { x with
          run := run, state := if run && x.committed && x.state == .idle then .active else x.state }) ∧
        gives (.pqRestart w f) { x with state := if x.state = .error then .active else x.state })) ∧
    (s.enabled .disp = false ∨ s.board.svc.state = .failed ∨ x.state ≠ .active ∨ x.run = false ∨ s.kick f = x.head ∨ 16 ≤ x.flight.length →
      exec (.peerDescFetch f) s = .next s) ∧
    (∀ l t, s.enabled .disp = true → s.board.svc.state ≠ .failed → x.state = .active → x.run = true → s.kick f ≠ x.head → x.flight.length < 16 →
      s.xlateRange f (s.pqSlot f x.head) 64 .dispatcher false = (.ok l, t) → t.anyHeld f l = false →
      let r := t.readPieces f l
      let d : BitVec 512 := leVal 512 r.1
      r.2.1 = false → (peerDesc d).fence = false ∨ x.flight = [] →
      (∀ y ∈ x.flight, y.failed = none) →
      (∀ ops u, r.2.2.pqStart f d = .goes ops u → ∃ s', exec (.peerDescFetch f) s = .next s' ∧
        s'.pq f = { x with head := x.head + 1, flight := x.flight ++
          [⟨x.head, d, none, s.time, ops, s.pqPort f (peerDesc d).dev, []⟩] } ∧ s'.disp.fn = f ∧
        ∀ op ∈ ops, sends s' (s.pqPort f (peerDesc d).dev) (.request ((peerDesc d).packet f op))) ∧
      (∀ b u, r.2.2.pqStart f d = .fails b u → x.flight = [] →
        ∃ s', exec (.peerDescFetch f) s = .next s' ∧
          s'.pq f = { x with head := x.head + 1, state := .error, errStat := b }) ∧
      (badPeer d = true → ∃ u, r.2.2.pqStart f d = .fails 0x40 u)) ∧
    (∀ y rest, x.flight = y :: rest → (∀ z ∈ rest, z.failed = none) →
      (s.peer.ports.get y.port).failed = false →
      let d := peerDesc y.desc
      let fails (i : Instr) (b : Byte) : Prop := ∃ s', exec i s = .next s' ∧
        s'.pq f = { x with flight := rest, state := .error, errStat := b } ∧
        bit (s'.page (pageNo (.peer 0))).irqStatus 3 = true ∧ s'.sync = s.sync
      (∃ s', exec (.peerDescComplete f .retry) s = .next s' ∧
        (∃ again, s'.pq f = { x with flight := { y with since := s.time, again := again } :: rest } ∧
          (∀ op ∈ again, op ∈ y.sends) ∧ (y.sends ≠ [] → again ≠ [])) ∧ s'.hbm = s.hbm ∧ s'.sync = s.sync) ∧
      (∀ core, (∀ r ∈ s.board.retried, r.src ≠ core) → (∀ g, g ≠ f → (s.pq g).flight = []) → rest = [] →
        y.again ≠ [] →
        (100000 ≤ (s.time - y.since).toNat → ∃ s', exec (.retryResend core) s = .next s' ∧
          s'.pq f = { x with flight := [{ y with again := [], port := s.pqPort f d.dev }] } ∧
          ∀ op ∈ y.again, sends s' (s.pqPort f d.dev) (.request (d.packet f op))) ∧
        ((s.time - y.since).toNat < 100000 → exec (.retryResend core) s = .next s)) ∧
      (∀ b, fails (.peerDescComplete f (.refused b)) b) ∧
      (s.xferLate y = true → y.failed = none → (∀ z ∈ rest, s.xferLate z = false) → fails (.peerXferTimeout f) 0x46) ∧
      ((∀ z ∈ x.flight, s.xferLate z = false) → exec (.peerXferTimeout f) s = .next s) ∧
      (∀ data, d.op = 1 → fails (.peerDescComplete f (.done data true)) 0x45) ∧
      (∀ data marked, d.op ≠ 1 → ∃ s', exec (.peerDescComplete f (.done data marked)) s = .next s' ∧
        s'.pq f = { x with
          flight := rest
          state := if x.state = .active ∧ x.run = false ∧ rest = [] then .idle else x.state } ∧
        (d.op = 0 → d.rsig = true → sends s' y.port (.request (d.packet f d.signal))) ∧
        s'.sync.queue = if d.lsig then s.sync.queue ++ [⟨.peer, f, d.lobj, .add d.lval⟩]
          else s.sync.queue)) ∧
    (x.flight = [] → ∀ a, exec (.peerDescComplete f a) s = .next s) ∧
    (∀ op, (p.run ≠ .active ∨ p.failed = true → exec (.peerRequest q f op) s = .next s) ∧
      (p.run = .active → p.failed = false → s.board.svc.state = .failed ∨ bit (s.live (.peer 0) 0x064) f.val = false →
        ∃ s', exec (.peerRequest q f op) s = .next s' ∧ s'.peer.reply = .refused 0x43 ∧
          sends s' q (.response (.refused 0x43)) ∧ s'.hbm = s.hbm ∧ s'.sync = s.sync)) ∧
    (p.run = .active → p.failed = false → s.board.svc.state ≠ .failed → bit (s.live (.peer 0) 0x064) f.val = true →
      (∀ (dva : DWord) (data : List Byte), data ≠ [] → dva.toNat % 65536 + data.length ≤ 65536 →
        let t := s.xlateShared f dva .peer true 0
        let i : Instr := .peerRequest q f (.write dva data)
        (∀ c, t.1 = .refused c → ∃ s', exec i s = .next s' ∧ s'.peer.reply = .refused 0x44) ∧
        (∀ dpa, t.1 = .ok dpa → s.recovering (s.stackOf dpa).1 = true → Claims.untraced s → ∃ s', exec i s = .next s' ∧
          s'.peer.reply = .retry ∧ s'.hbm.mem = s.hbm.mem) ∧
        (∀ dpa, t.1 = .ok dpa → s.anyInRecovery [(dpa, data.length)] = false → s.hbmHeld f dpa data.length = true →
          exec i s = .next s) ∧
        ((∃ p, t.1 = .held p) → exec i s = .next s) ∧
        (∀ dpa, t.1 = .ok dpa → s.hbmHeld f dpa data.length = false → Claims.untraced s → ∃ s', exec i s = .next s' ∧
          s'.peer.reply = .written ∧ ∀ a, Tab.get 0 s'.hbm.mem a =
            if dpa ≤ a ∧ a < dpa + data.length ∧ s.lineOk a = true then data.getD (a - dpa) 0
            else Tab.get 0 s.hbm.mem a)) ∧
      (∀ (dva : DWord) (len : BitVec 12), len ≠ 0 → dva.toNat % 65536 + len.toNat ≤ 65536 →
        ∀ dpa t, s.xlateShared f dva .peer false 0 = (.ok dpa, t) →
          s.hbmHeld f dpa len.toNat = false → Claims.untraced s →
          ∃ s', exec (.peerRequest q f (.read dva len)) s = .next s' ∧
            s'.peer.reply = .data (s.hbmBytes dpa len.toNat) (s.hbmAnyMark dpa len.toNat)) ∧
      ∀ obj set value, ∃ s', exec (.peerRequest q f (.signal obj set value)) s = .next s' ∧
        s'.sync.queue = s.sync.queue ++ [⟨.peer, f, obj, if set then .set value else .add value⟩] ∧
        s'.peer.reply = if s.syncOwner obj = some f then .written else .refused 0x47)

/-! ### Clocks, power and temperature -/

/-- What these commands leave alone: cores, jobs, rings, objects and memory. -/
def Claims.quiet (s s' : State) : Prop :=
  s'.cores = s.cores ∧ s'.disp = s.disp ∧ s'.rings = s.rings ∧ s'.sync = s.sync ∧ s'.hbm = s.hbm ∧
  s'.pending = s.pending

/-- R492, R496, R499 to R504, R507, R518, R520: the references; droop episodes, each counted once; the
measured power; the limiter's table; sensors, the thermal trip and a firing for a changed temperature;
throttling by tile and by stack; a regulator's fault.
That a command stands for a time that has passed, that a reading is an operand, when THERMAL_CAP rises
again, and what a regulator's fault does in BOOT are the model's (log entries 9 and 54, DESIGN CHOICE; 55
and 115, DEDUCED). -/
def Obligations.ClockAndPowerEvents : Prop :=
  ∀ (s : State) (i : Island) (tile : Tile) (p : Part),
    let k := s.clocks
    (exec (.clockCalibration i) s = .next s) ∧
    (k.ref100 = false → k.locked = false → exec .refLost s = .next s) ∧
    (k.ref100 = true ∨ k.locked = true → ∃ s', exec .refLost s = .next s' ∧ Claims.quiet s s' ∧
      s'.clocks = { k with ref100 := false, locked := false } ∧
      bit (s'.page (pageNo .clk)).irqStatus 2 = true) ∧
    (exec .referenceRestored s = .next { s with clocks := { k with ref100 := true, locked := true } }) ∧
    ((s.isl i.val).droop = true → exec (.supplyDroop i) s = .next s) ∧
    ((s.isl i.val).droop = false → ∃ s', exec (.supplyDroop i) s = .next s' ∧ Claims.quiet s s' ∧
      (∀ j, s'.isl j = if j = i.val then { s.isl j with droop := true } else s.isl j) ∧
      (∀ c n, (if i.val < 272 then c = PageClass.island (i.val / 8) ∧ n = 2 * (i.val % 8)
          else c = .clk ∧ n = 2 + 2 * (i.val - 272)) →
        Claims.cnt s' c n = (bump .sat32 (Claims.cnt s c n) 1).1)) ∧
    (∃ s', exec (.supplyDroopEnd i) s = .next s' ∧ Claims.quiet s s' ∧ s'.pages = s.pages ∧
      ∀ j, s'.isl j = if j = i.val then { s.isl j with droop := false } else s.isl j) ∧
    (∀ mw : Word, let w := min (mw.toNat / 1000) 1023
      ∃ s', exec (.powerMeasure mw) s = .next s' ∧ Claims.quiet s s' ∧ s'.clocks.estimate = mw.toNat ∧ s'.clocks.measured = some s.time ∧
        s'.clocks.pwrNow.toNat = w ∧ s'.clocks.fscale = k.fscale ∧ s'.clocks.mduty = k.mduty ∧
        (∀ r, (s'.clocks.rails.get r).set = (k.rails.get r).set ∧
          (s'.clocks.rails.get r).goal = (k.rails.get r).goal) ∧
        Claims.cnt s' .pwr 2 = Claims.cnt s .pwr 2 + BitVec.ofNat 64 w) ∧
    (∃ s', exec .powerLimiterTick s = .next s' ∧ Claims.quiet s s' ∧
      let lim := 1000 * (fld (s.live .pwr 0x040) 0 10).toNat
      let fast : Prop := ∃ j, j < 272 ∧ 1200 < s.fnow j
      let sets (f m : Nat) : Prop := s'.clocks.fscale = f ∧ s'.clocks.mduty = m
      let power := s'.clocks.estimate
      (∀ at_, k.measured = some at_ → (s.time - at_).toNat < 1000 → power = k.estimate) ∧
      (lim < power → fast → sets (k.fscale - 8) k.mduty ∧
        (k.fscale = 256 → bit (s'.page (pageNo .pwr)).irqStatus 0 = true)) ∧
      (lim < power → ¬ fast → sets k.fscale (max 4 (k.mduty - 1))) ∧
      (100 * power < 97 * lim → k.mduty < 16 → sets k.fscale (k.mduty + 1)) ∧
      (100 * power < 97 * lim → k.mduty = 16 → k.fscale < 256 →
        sets (if k.fsUp = 0 ∨ 100000 ≤ (s.time - k.fsUp).toNat then min 256 (k.fscale + 2)
          else k.fscale) 16) ∧
      (97 * lim ≤ 100 * power → power ≤ lim → sets k.fscale k.mduty) ∧
      s'.clocks.tcap = k.tcap ∧
      Claims.cnt s' .pwr 0 = Claims.cnt s .pwr 0 + (if k.fscale < 256 ∨ k.mduty < 16 then 10 else 0) ∧
      Claims.cnt s' .pwr 1 = Claims.cnt s .pwr 1 + (if ∃ e ∈ k.tcap, e.2 < 1900 then 10 else 0)) ∧
    (∀ t : BitVec 12,
      let reads (s1 : State) : Prop := Claims.quiet s s1 ∧ s1.pages = s.pages ∧
        (∀ j, s1.isl j = if j = i.val then { s.isl j with temp := t } else s.isl j) ∧
        (∀ j, j < 294 → (s1.isl j).temp.toInt ≤ s1.clocks.tjTemp.toInt) ∧
        s1.clocks.tjTemp = (s1.isl s1.clocks.tjIsland.toNat).temp
      let moved : Prop := ∃ u at_, (s.isl i.val).swept = some (u, at_) ∧
        120 < (t.toInt - u.toInt).natAbs ∧ 600000000000 ≤ (s.time - at_).toNat
      (t.toInt < 920 → ¬ moved → ∃ s1, exec (.tempSample i t) s = .next s1 ∧ reads s1) ∧
      (t.toInt < 920 → moved → ∃ s1, reads s1 ∧
        exec (.tempSample i t) s = .next (s1.askFiring ⟨[.island i], false, 3⟩)) ∧
      (920 ≤ t.toInt → ∃ s', exec (.tempSample i t) s = .next s' ∧ s'.pins.thermtrip = true ∧
        (∀ j, j < 294 → j ≠ 291 → j ≠ 292 → (s'.isl j).gated = true) ∧
        (s.pins.thermtrip = false → s.board.svc.state ≠ .boot → s'.board.svc.state = .failed))) ∧
    (let cap := s.tcapOf tile.val
     let has (a : Int) : Prop := ∃ n, n < 8 ∧ a ≤ (s.isl (8 * tile.val + n)).temp.toInt
     let below (a : Int) : Prop := ∀ n, n < 8 → (s.isl (8 * tile.val + n)).temp.toInt ≤ a
     ∃ s', exec (.thermalThrottleTick tile) s = .next s' ∧ Claims.quiet s s' ∧ s'.clocks.isl = k.isl ∧
      s'.clocks.fscale = k.fscale ∧
      (has 800 → s'.tcapOf tile.val = max 1200 (cap - 50)) ∧
      (below 776 → s'.tcapOf tile.val = min 1900 (cap + 25)) ∧
      (¬ has 800 → ¬ below 776 → s'.tcapOf tile.val = cap) ∧
      (∀ u, u ≠ tile.val → s'.tcapOf u = s.tcapOf u) ∧
      (cap = 1900 → has 800 → bit (s'.page (pageNo .pwr)).irqStatus 1 = true) ∧
      (s'.tcapOf tile.val = 1200 → has 840 → tile ∈ s'.clocks.hold) ∧
      (k.hold.Nodup → below 800 → tile ∉ s'.clocks.hold) ∧
      (∀ u, u ≠ tile → (u ∈ s'.clocks.hold ↔ u ∈ k.hold))) ∧
    (∀ d : BitVec 9, let u := s.hbm.units.get p
      ∃ s', exec (.hbmTempSample p d) s = .next s' ∧ s'.cores = s.cores ∧ s'.hbm.mem = s.hbm.mem ∧
        (let v := s'.hbm.units.get p
         (100 < d.toInt → v.therm = 128 ∧ v.hot = true) ∧
         (95 < d.toInt → d.toInt ≤ 100 → v.therm = 192 ∧ v.hot = true) ∧
         (d.toInt ≤ 90 → v.therm = 256 ∧ v.hot = false) ∧
         (90 < d.toInt → d.toInt ≤ 95 → u.hot = false → v.therm = 256 ∧ v.hot = false) ∧
         (90 < d.toInt → d.toInt ≤ 95 → u.hot = true → v.therm = u.therm ∧ v.hot = true) ∧
         (v.therm < u.therm → bit (s'.page (pageNo .pwr)).irqStatus 2 = true)) ∧
        ∀ q, q ≠ p → (s'.hbm.units.get q).therm = (s.hbm.units.get q).therm) ∧
    (s.board.svc.state ≠ .boot → s.recovering p = false →
      ∃ s', exec (.regulatorFault ⟨p.val, by omega⟩) s = .next s' ∧ s'.recovering p = true ∧
        fld (s'.part p).hangInfo 0 8 = 4 ∧ (s'.part p).hangTime = s.time) ∧
    (s.board.svc.state ≠ .boot → ∀ r : Fin 13, 4 ≤ r.val →
      ∃ s', exec (.regulatorFault r) s = .next s' ∧ s'.board.svc.state = .failed) ∧
    (s.board.svc.state = .boot → ∀ r : Fin 13, ∃ s', exec (.regulatorFault r) s = .next s' ∧ Claims.quiet s s' ∧
      s'.board.svc = s.board.svc ∧ r ∈ s'.clocks.faulty)

/-! ### Firing and BIST -/

/-- TCAP of the island's tile is below 1,900 MHz, and its sweep has not begun. -/
def Claims.hotTile (s : State) (i : Island) : Prop :=
  i.val < 272 ∧ s.tcapOf (i.val / 8) < 1900 ∧ (s.isl (8 * (i.val / 8))).gated = false

/-- A firing is asked for (R507, R517): nothing where it runs or waits already; it waits while another one runs;
a full one begins at partition 0 where none runs or waits. -/
def Claims.asks (s s' : State) (r : FireReq) : Prop :=
  let k := s.clocks
  ((r ∈ k.requests ∨ ∃ f, k.firing = some f ∧ f.req = r) → s' = s) ∧
  (r ∉ k.requests → ∀ f, k.firing = some f → f.req ≠ r →
    (f.choice ≠ none ∨ ∃ x ∈ f.todo, ¬ Claims.hotTile s x) →
    s'.clocks.requests = k.requests ++ [r] ∧ s'.clocks.isl = k.isl ∧ s'.cores = s.cores ∧
    ∃ g, s'.clocks.firing = some g ∧ g.req = f.req ∧ g.group = f.group ∧ g.rest = f.rest ∧
      g.number = f.number) ∧
  (k.requests = [] → k.firing = none → r.groups = fullGroups → r.full = true → s.recovering 0 = false →
    (∃ x ∈ (FireGroup.part 0).islands, s.islandOk x.val = true ∧ ¬ Claims.hotTile s x) →
    s'.clocks.requests = [] ∧ s'.clocks.cause = r.cause ∧ s'.clocks.number = k.number + 1 ∧
    s'.clocks.began = s.time ∧ s'.clocks.scope = 0 ∧ s'.clocks.isl = k.isl ∧ s'.cores = s.cores ∧
    ∃ g, s'.clocks.firing = some g ∧ g.req = r ∧ g.group = .part 0 ∧
      g.rest = [.part 1, .part 2, .part 3, .system] ∧ g.choice = none ∧
      ∀ x, x ∈ g.todo ↔ x ∈ (FireGroup.part 0).islands ∧ s.islandOk x.val = true ∧ ¬ Claims.hotTile s x)

/-- The islands 0 to 6 of a tile that work are gated for a sweep, and no other (R494, R508). -/
def Claims.gatesTile (s s' : State) (t : Tile) (forced : Bool) : Prop :=
  s'.cores = s.cores ∧ s'.disp = s.disp ∧ ∀ j, s'.isl j =
    if j / 8 = t.val ∧ j % 8 ≠ 7 ∧ s.islandOk j = true then { s.isl j with gated := true, forced := forced }
    else s.isl j

/-- R494, R498, R505 to R510, R514, R517, R519: the detectors' flags; firings asked for, skipped and retried;
gating for a sweep; a sweep's readings; the lowest rail voltage that meets every need; the order of rails and set
points; BIST's checks, its end, and what it leaves.
That a command stands for a time that has passed, which islands are gated with a tile, the fit of an
island's ageing, when BIST checks its targets, a spare's RETEST, the gates of pages and of spare tiles are
the model's (log entries 9, 57, 84, 114 and 116, DESIGN CHOICE; 56 and 59, DEDUCED). -/
def Obligations.FiringAndBistEvents : Prop :=
  ∀ (s : State) (i : Island) (tile : Tile) (w : Who),
    let k := s.clocks
    let b := k.bist
    (∀ flags : Word, let thr := (fld (s.live .clk 0x044) 16 8).toNat
      let n := (s.isl i.val).flags + flags.toNat
      (flags.toNat ≤ thr → ∃ s', exec (.tedCap i flags) s = .next s' ∧ Claims.quiet s s' ∧
        ∀ j, s'.isl j = if j = i.val then { s.isl j with flags := n } else s.isl j) ∧
      (thr < flags.toNat → ∃ s1, Claims.quiet s s1 ∧
        exec (.tedCap i flags) s = .next (s1.askFiring ⟨[.island i], false, 4⟩) ∧
        (∀ j, s1.isl j = if j = i.val then
          { s.isl j with flags := n, tedcap := BitVec.ofNat 11 (s.fnow j - 25) } else s.isl j) ∧
        (i.val < 272 → s.capTed i.val = false → s1.capTed i.val = true →
          bit (s1.page (pageNo (.island (i.val / 8)))).irqStatus 0 = true) ∧
        (i.val < 272 →
          Claims.cnt s1 (.island (i.val / 8)) (2 * (i.val % 8) + 1) =
            (bump .sat32 (Claims.cnt s (.island (i.val / 8)) (2 * (i.val % 8) + 1)) flags.toNat).1))) ∧
    (let due : Prop := 3600 * 10 ^ 9 * (fld (s.live .clk 0x044) 0 5).toNat ≤ (s.time - k.began).toNat
     (¬ due → exec .firingInterval s = .next s) ∧
     (due → ∃ s', exec .firingInterval s = .next s' ∧ Claims.asks s s' ⟨fullGroups, true, 1⟩)) ∧
    (s.mayWrite w .clk = false → exec (.firingRequest w) s = .next s) ∧
    (s.mayWrite w .clk = true → ∃ s', exec (.firingRequest w) s = .next s' ∧
      Claims.asks s s' ⟨fullGroups, true, 2⟩) ∧
    (let ripe : Prop := ∃ at_, (tile, at_) ∈ k.skipped ∧ 600 * 10 ^ 9 ≤ (s.time - at_).toNat
     (¬ ripe → exec (.firingSkipRetry tile) s = .next s) ∧
     (ripe → exec (.firingSkipRetry tile) s = .next
      (State.askFiring { s with clocks := { k with skipped := k.skipped.filter fun x => x.1 != tile } }
        ⟨(tileIslands tile).map .island, false, k.cause⟩))) ∧
    (let waits : Prop := ∃ f, k.firing = some f ∧ ∃ x ∈ f.todo, x.val / 8 = tile.val ∧ x.val % 8 ≠ 7
     let hot : Prop := s.tcapOf tile.val < 1900
     let may : Prop := waits ∧ s.lcoreOf tile ≠ none ∧ s.frozen tile = false ∧
      (s.core tile).clearing = false ∧ ¬ hot ∧ (32 ≤ tile.val ∨ ∀ j, (s.board.spares.get j).state ≠ .idle)
     let due : Prop := ∀ u at_, (s.isl i.val).swept = some (u, at_) → 86400 * 10 ^ 9 ≤ (s.time - at_).toNat
     let still : Prop := ∀ c, (s.ctx tile c).run = .idle ∨ (s.ctx tile c).run = .halted
     (may → still → ∃ s', exec (.firingGate tile) s = .next s' ∧ Claims.gatesTile s s' tile false) ∧
     (¬ (may ∧ still) → ¬ (waits ∧ hot) → exec (.firingGate tile) s = .next s) ∧
     (waits → hot → exec (.firingGate tile) s = .next s.pumpFiring) ∧
     (i.val / 8 = tile.val → may → due → i.val % 8 ≠ 7 → ∃ s', exec (.forcedGating i) s = .next s' ∧
      Claims.gatesTile s s' tile true ∧ Claims.cnt s' .clk 1 = Claims.cnt s .clk 1 + 1) ∧
     (i.val / 8 = tile.val → i.val % 8 = 7 ∨ ¬ due ∨ (¬ may ∧ ¬ (waits ∧ hot)) → exec (.forcedGating i) s = .next s) ∧
     (i.val / 8 = tile.val → i.val % 8 ≠ 7 → due → waits → hot → exec (.forcedGating i) s = .next s.pumpFiring)) ∧
    (272 ≤ i.val →
      let memory : Prop := i.val < 284 ∧ (∃ f, k.firing = some f ∧ i ∈ f.todo) ∧
        ∀ u at_, (s.isl i.val).swept = some (u, at_) → 86400 * 10 ^ 9 ≤ (s.time - at_).toNat
      (¬ memory → exec (.forcedGating i) s = .next s) ∧
      (memory → ∃ s', exec (.forcedGating i) s = .next s' ∧ (s'.isl i.val).forced = true ∧
        (s'.isl i.val).gated = (s.isl i.val).gated ∧ Claims.cnt s' .clk 1 = Claims.cnt s .clk 1 + 1)) ∧
    (let calm : Prop := ∀ P, (s.page P).held = []
     ∀ (l0 l1 : BitVec 12) (age : BitVec 16),
      (k.firing = none → calm → exec (.islandSweepDone i l0 l1 age) s = .next s) ∧
      (∀ f, k.firing = some f → i ∉ f.todo ∨ s.sweepable i = false → calm →
        exec (.islandSweepDone i l0 l1 age) s = .next s) ∧
      (∀ f, k.firing = some f → i ∈ f.todo → f.todo.Nodup → calm →
        ((s.isl i.val).gated = true ∧ (s.isl (8 * (i.val / 8))).gated = true) ∨ 272 ≤ i.val →
        (∃ x ∈ f.todo, x ≠ i ∧ ¬ Claims.hotTile s x) →
        (∀ c ∈ islandChannels i.val, s.pausePending (16 * c.1.val + c.2) = false) →
        ∃ s', exec (.islandSweepDone i l0 l1 age) s = .next s' ∧
          (s'.isl i.val).age = age ∧ (s'.isl i.val).fset = (s.isl i.val).fset ∧
          (let v0 := s.railSet (railOf i)
           (sensorsOnly i.val = false → (s'.isl i.val).lim0 = l0 ∧ (s'.isl i.val).lim1 = l1 ∧
            (s'.isl i.val).v0 = v0 ∧ (s'.isl i.val).v1 = (if v0 + 50 ≤ 900 then v0 + 50 else v0 - 50) ∧
            (s'.isl i.val).swept = some ((s.isl i.val).temp, s.time)) ∧
           (sensorsOnly i.val = true → s.board.svc.state ≠ .boot →
            (s'.isl i.val).lim0 = (s.isl i.val).lim0 ∧ (s'.isl i.val).swept = (s.isl i.val).swept)) ∧
          (∃ g, s'.clocks.firing = some g ∧ i ∉ g.todo ∧ g.group = f.group ∧ g.number = f.number ∧
            ∀ x, x ∈ g.todo ↔ x ∈ f.todo ∧ x ≠ i ∧ ¬ Claims.hotTile s x) ∧
          (i.val < 272 → (s.isl (8 * (i.val / 8))).gated = true → b.busy = false → s.pins.thermtrip = false →
            (∀ x ∈ f.todo, x ≠ i → x.val / 8 = i.val / 8 → x.val % 8 = 7) →
            ∀ n, n < 7 → (s'.isl (8 * (i.val / 8) + n)).gated = false))) ∧
    (∀ r : Fin 13, let v := s.railChoice r
      v % 5 = 0 ∧ 650 ≤ v ∧ v ≤ 900 ∧
      (∀ u, u % 5 = 0 → 650 ≤ u → u < v → s.railMeets r u = false) ∧
      (s.railMeets r v = false → v = 900) ∧
      ((k.rails.get r).goal = none → (∀ P, (s.page P).held = []) → exec (.railSettled r) s = .next s)) ∧
    (∀ f v l, k.firing = some f → f.choice = some (v, l) → (∀ P, (s.page P).held = []) →
      let r := f.group.rail
      (∀ v5, (k.rails.get 5).goal = some v5 → (∀ q, q ≠ 5 → (k.rails.get q).goal = none) →
        s.railSet r < v → 800 ≤ v5.toNat →
        (∀ q : Fin 13, q.val < 5 → (if q = r then v else s.railSet q) + 25 ≤ v5.toNat) →
        ∃ s', exec (.railSettled 5) s = .next s' ∧ s'.clocks.isl = k.isl ∧
          (s'.clocks.rails.get 5) = { k.rails.get 5 with set := v5, goal := none } ∧
          (s'.clocks.rails.get r) = { k.rails.get r with goal := some (BitVec.ofNat 12 v) }) ∧
      (∀ q u, q ≠ r → (k.rails.get r).goal = some u → (k.rails.get q).goal ≠ none →
        ∃ s', exec (.railSettled r) s = .next s' ∧ s'.clocks.isl = k.isl ∧
          s'.clocks.rails = k.rails.set r.val { k.rails.get r with set := u, goal := none }) ∧
      ((k.rails.get r).goal = some (BitVec.ofNat 12 v) → v ≤ 900 →
        (∀ q, q ≠ r → (k.rails.get q).goal = none) → 800 < s.railSet 5 →
        (∀ q : Fin 13, q.val < 5 → (if q = r then v else s.railSet q) + 25 < s.railSet 5) →
        (l.map (·.1)).Nodup →
        ∃ s', exec (.railSettled r) s = .next s' ∧ (s'.clocks.rails.get r).set = BitVec.ofNat 12 v ∧
          (∀ x ∈ l, s'.isl x.1.val = { s.isl x.1.val with fset := x.2 }) ∧
          ∃ g, (s'.clocks.rails.get 5).goal = some g ∧ g.toNat < s.railSet 5 ∧ 800 ≤ g.toNat)) ∧
    (s.mayWrite w .bist = false ∨ b.busy = true → exec (.bistGo w) s = .next s) ∧
    (s.mayWrite w .bist = true → b.busy = false →
      let t := s.live .bist 0x040
      let refuses (code : Byte) : Prop := ∃ s', exec (.bistGo w) s = .next s' ∧ s'.cores = s.cores ∧
        s'.clocks = { k with bist := { b with result := 3, code := code } }
      let free : Prop := w = .firmware ∨ s.saggar = false
      (¬ free → refuses 0x08) ∧
      (free → fld t 2 2 = 0 → refuses 0x01) ∧
      (free → fld t 2 2 ≠ 0 →
        (fld t 0 2 = 3 ∨ (fld t 0 2 = 0 ∧ 294 ≤ (fld t 4 9).toNat) → refuses 0x02) ∧
        (fld t 0 2 = 0 → (fld t 4 9).toNat < 272 → (fld t 4 9).toNat % 8 = 7 → refuses 0x40) ∧
        (∀ is, bistTargets t = some is →
          ((∃ x ∈ is, s.targetServes x = true) → refuses 0x40) ∧
          ((∀ x ∈ is, s.targetServes x = false) → (∃ x ∈ is, (s.isl x.val).gated = true) → refuses 0x41) ∧
          ((∀ x ∈ is, s.targetServes x = false ∧ (s.isl x.val).gated = false) → k.firing = none →
            (fld (s.live .bist 0x044) 0 24 = 0 → refuses 0x42) ∧
            (fld (s.live .bist 0x044) 0 24 ≠ 0 → ∃ s', exec (.bistGo w) s = .next s' ∧
              s'.cores = s.cores ∧ s'.disp = s.disp ∧ s'.rings = s.rings ∧ s'.sync = s.sync ∧
              (∀ j, s'.board.spares.get j =
                if (s.board.spares.get j).state = .idle ∧ (∃ x ∈ is, x.val / 8 = 32 + j.val)
                then { s.board.spares.get j with state := .testing } else s.board.spares.get j) ∧
              s'.clocks.bist = { b with busy := true, code := 0, targets := is } ∧
              (∀ j : Island, s'.isl j.val = if j ∈ is then { s.isl j.val with gated := true }
                else s.isl j.val)))))) ∧
    (let calm : Prop := ∀ P, (s.page P).held = []
     let ended (s' : State) (result : BitVec 2) : Prop := s'.clocks.bist.busy = false ∧
      s'.clocks.bist.result = result ∧ s'.clocks.bist.targets = [] ∧
      bit (s'.page (pageNo .bist)).irqStatus 0 = true
     (s.mayWrite w .bist = false → exec (.bistAbort w) s = .next s) ∧
     (b.busy = false → calm → exec (.bistAbort w) s = .next s) ∧
     (s.mayWrite w .bist = true → b.busy = true → calm → ∃ s', exec (.bistAbort w) s = .next s' ∧ ended s' 2 ∧
      (s.pins.thermtrip = false → ∀ x ∈ b.targets, (s'.isl x.val).gated = false) ∧
      (s.lcoreOf tile = none → ∀ n, n ∈ [3, 4, 5] → (∃ x ∈ b.targets, x.val = 8 * tile.val + n) →
        ∀ a, (if n = 3 then a < 0x300000 else if n = 4 then 0x400000 ≤ a ∧ a < 0x800000
          else 0x800000 ≤ a ∧ a < 0x900000) → Tab.get 0 (s'.core tile).mem a = 0)) ∧
     (∀ misr rows failing, let expect : DWord := ((s.live .bist 0x054).setWidth 64 <<< 32) |||
        (s.live .bist 0x050).setWidth 64
      (b.busy = false → calm → exec (.bistDone misr rows failing) s = .next s) ∧
      (b.busy = true → calm → ∃ s', exec (.bistDone misr rows failing) s = .next s' ∧
        ended s' (if misr = expect then 0 else 1) ∧ s'.clocks.bist.misr = misr ∧
        (misr ≠ expect → ∀ x ∈ failing, x ∈ b.targets → s'.islandOk x.val = false) ∧
        (misr = expect → rows = [] → ∀ j, (s.board.spares.get j).state = .testing →
          (∀ n : Fin 7, (⟨8 * (32 + j.val) + n.val, by omega⟩ : Island) ∈ b.targets) →
          (s'.board.spares.get j).state = .idle ∧ (s'.board.spares.get j).retest = false))))

/-! ### Castling, hangs, recovery and the log -/

/-- Partition `p` has been declared hung and recovers (R529, R532, R544): what PART_HANG_INFO and
PART_HANG_TIME name. -/
def Claims.declared (s s' : State) (p : Part) (cause : Byte) (core : Nat) (ctx : Nat) (engine : Nat) : Prop :=
  s'.recovering p = true ∧ (s'.part p).step = 1 ∧ (s'.part p).hangTime = s.time ∧
  fld (s'.part p).hangInfo 0 8 = cause ∧ (fld (s'.part p).hangInfo 8 5).toNat = core ∧
  (fld (s'.part p).hangInfo 13 2).toNat = ctx ∧ (fld (s'.part p).hangInfo 15 2).toNat = engine ∧
  bit (s'.page (pageNo (.part p.val))).irqStatus 0 = true

/-- R26, R28 to R31, R523, R524, R526 to R545: the steps of a castling, check timers and engine watches,
declarations, the PART pages' commands, the steps and the end of a recovery, and the log's flush and
acknowledgement. A partition that recovers is declared once; under wide interleave all four recover.
The cores put OUT, the suspects of a second recovery, the fate of lost writes, the numbers and order of a
dump's sections, abandoned castlings, GEN and CAUSE of changes that no rule names, and where a check timer
stands still are the model's (log entries 46, 48, 51 and 108, DEDUCED; 49, 50, 82, 83 and 84, DESIGN
CHOICE). -/
def Obligations.RecoveryEvents : Prop :=
  ∀ (s : State) (i : Fin 2) (n : LCore) (c : CtxId) (p : Part) (w : Who),
    let sp := s.board.spares.get i
    let m := sp.lcore
    let a := s.tileOf m
    let b : Tile := if sp.back = true then ⟨m.val, by omega⟩ else ⟨32 + i.val, by omega⟩
    let t := s.tileOf n
    let calm (q : Part) : Prop := s.board.svc.state ≠ .boot ∧ s.recovering q = false
    (sp.state ≠ .copying ∨ sp.step ≠ 2 ∨ (s.core a).engineBoundary = false →
      exec (.castlingCopy i) s = .next s) ∧
    (sp.state = .copying → sp.step = 2 → (s.core a).engineBoundary = true →
      ∃ s', exec (.castlingCopy i) s = .next s' ∧ s'.board.map = s.board.map ∧
        s'.board.spares.get i = { sp with step := 3 } ∧ (s'.core a).sb = [] ∧
        (s'.core b).mem = (s'.core a).mem ∧ (s'.core b).tags = (s'.core a).tags ∧
        (s'.core b).ctxs = (s'.core a).ctxs ∧ (s'.core b).mtx = (s'.core a).mtx ∧
        (s'.core b).dma = (s'.core a).dma ∧ (s'.core b).mbx = (s'.core a).mbx ∧
        (s'.core b).remap = (s.core b).remap) ∧
    (sp.state ≠ .copying ∨ sp.step ≠ 3 → exec (.castlingComplete i) s = .next s) ∧
    (sp.state = .copying → sp.step = 3 → (∀ x, x < 8 → s.islandOk (8 * b.val + x) = true) →
      ∃ s', exec (.castlingComplete i) s = .next s' ∧ s'.tileOf m = b ∧
        (s'.board.map.get m).castled = !sp.back ∧
        s'.board.castle.get i = (if sp.back = true then none else some m) ∧
        (∀ j, j ≠ i → (s.board.spares.get j).state = .castled → (s.board.spares.get j).lcore = m →
          s.islandOk (8 * (32 + j.val)) = false → s'.board.spares.get j = { state := .failed } ∧
          s'.board.castle.get j = none) ∧
        (a ≠ b → (s'.page (pageNo (.core b.val))).live = (s.page (pageNo (.core a.val))).live ∧
          (s'.page (pageNo (.core b.val))).enable = (s.page (pageNo (.core a.val))).enable ∧
          (s.clocks.firing = none → s.clocks.requests = [] → (∀ q, (s.part q).later = []) →
            (s'.board.map.get m).mtxOut = false ∧ (s'.core a).mem = [] ∧
            ((∀ j ∈ s.disp.jobs.get m, j.ctx ≠ none) → (s'.core b).mem = (s.core a).mem)))) ∧
    (sp.state ≠ .copying ∨ sp.step ≠ 2 → exec (.castlingCopyTimeout i) s = .next s) ∧
    (sp.state = .copying → sp.step = 2 → calm (partOf m) →
      ∃ s', exec (.castlingCopyTimeout i) s = .next s' ∧
        Claims.declared s s' (partOf m) 5 m.val 0 0 ∧ s'.board.map = s.board.map ∧
        (s'.board.spares.get i).state = (if sp.back = true then .castled else .idle) ∧
        (if sp.back = true then m ∈ (s'.part (partOf m)).back else m ∈ (s'.part (partOf m)).castle)) ∧
    (s.jobOn n c = none ∨ (s.ctx t c).chk ≠ none ∨ s.recovering (partOf n) = true →
      exec (.checkTimer n c) s = .next s) ∧
    (∀ j, s.jobOn n c = some j → (s.ctx t c).chk = none → s.recovering (partOf n) = false →
      (s.late j.job = false → s.timerHeld n c = true ∨ s.chkTimer n c < s.chkLimit n → exec (.checkTimer n c) s = .next s) ∧
      (s.late j.job = true ∨ (s.timerHeld n c = false ∧ s.chkLimit n ≤ s.chkTimer n c) → (s.ctx t c).run ≠ .halted →
        ∃ s', exec (.checkTimer n c) s = .next s' ∧
          Claims.cnt s' (.part (partOf n).val) 1 = Claims.cnt s (.part (partOf n).val) 1 + 1 ∧
          bit (s'.page (pageNo (.part (partOf n).val))).irqStatus 3 = true ∧
          (s'.ctx t c).chk = some (if s.late j.job = true then .deadline else .progress) ∧
          ((s.ctx t c).run ≠ .idle → (s'.ctx t c).stopReq = true))) ∧
    (∀ e : BitVec 2,
      ((s.core t).engineWorks e = false ∨ s.engineHeld n e = true ∨ (s.core t).engTimer e < s.chkLimit n →
        exec (.engineStall n e) s = .next s) ∧
      ((s.core t).engineWorks e = true → s.engineHeld n e = false → s.chkLimit n ≤ (s.core t).engTimer e →
        s.replayed n = none → ∃ s', exec (.engineStall n e) s = .next s' ∧ s'.pages = s.pages ∧
          s'.core t = { s.core t with stalled := setBit (s.core t).stalled e.toNat true } ∧
          (∀ u, u ≠ t → s'.core u = s.core u) ∧ s'.board = s.board) ∧
      (bit (s.core t).stalled e.toNat = false → exec (.hangDeclaration n (.inr e)) s = .next s) ∧
      (bit (s.core t).stalled e.toNat = true → calm (partOf n) →
        ∃ s', exec (.hangDeclaration n (.inr e)) s = .next s' ∧ (s'.core t).stalled = 0 ∧
          Claims.declared s s' (partOf n) 3 n.val 0 e.toNat)) ∧
    ((s.ctx t c).chk = none ∨ (s.ctx t c).run = .idle →
      exec (.hangDeclaration n (.inl c)) s = .next s) ∧
    ((s.ctx t c).chk ≠ none → (s.ctx t c).run = .halted →
      exec (.hangDeclaration n (.inl c)) s = .next (s.ctxReset t c) ∧
      (s.lcoreOf t = some n → s.jobOn n c = none → ((s.ctxReset t c).ctx t c).run = .idle)) ∧
    (∀ k, (s.ctx t c).chk = some k → (s.ctx t c).run ≠ .idle → (s.ctx t c).run ≠ .halted → s.replayed n = none →
      calm (partOf n) →
      ∃ s', exec (.hangDeclaration n (.inl c)) s = .next s' ∧
        Claims.declared s s' (partOf n) (if k = .progress then 1 else 2) n.val c.val 0) ∧
    (let pg := PageClass.part p.val
     let x := s.part p
     (s.mayWrite w pg = false → ∀ q, q = Instr.partRecover w p ∨ q = .partOffline w p ∨
      q = .partOnline w p ∨ q = .dumpAck w p → exec q s = .next s) ∧
     (s.mayWrite w pg = true → calm p → ∃ s', exec (.partRecover w p) s = .next s' ∧
      Claims.declared s s' p 6 0 0 0) ∧
     (s.mayWrite w pg = true → s.recovering p = true → exec (.partOffline w p) s = .next s) ∧
     (s.mayWrite w pg = true → s.recovering p = false → ∃ s', exec (.partOffline w p) s = .next s' ∧
      s'.cores = s.cores ∧ s'.disp = s.disp ∧
      ((∃ q, q ≠ p ∧ (s.partIn q = true ∨ s.recovering q = true)) →
        (∀ d ∈ [284, 289, 290, 291, 292], s.islandOk d = true) → s.fnEnabled 0 = true →
        (s'.part p).offline = true ∧ s'.partIn p = false ∧
        (s'.part p).run = .offline) ∧
      ((∀ q, q ≠ p → s.partIn q = false ∧ s.recovering q = false) → s' = s)) ∧
     (s.mayWrite w pg = true → ∃ s', exec (.partOnline w p) s = .next s' ∧ s'.cores = s.cores ∧
      s'.disp = s.disp ∧ s'.part p = { x with
        offline := false
        run := if x.run ≠ .offline then x.run else if x.replayCore = none then .serving else .replaying }) ∧
     (s.mayWrite w pg = true → ∃ s', exec (.dumpAck w p) s = .next s' ∧ s'.pages = s.pages ∧
      s'.cores = s.cores ∧ s'.part p = { x with dumpValid := false, dumpLost := false } ∧
      ∀ q, q ≠ p → s'.part q = s.part q)) ∧
    (s.hbm.wide = false →
      let x := s.part p
      (s.recovering p = false → exec (.recoveryStepDone p) s = .next s) ∧
      (s.recovering p = true → ∃ s', exec (.recoveryStepDone p) s = .next s' ∧ s'.recovering p = true ∧
        (1 ≤ x.step.toNat → x.step.toNat ≤ 5 → (s'.part p).step = x.step + 1) ∧
        (x.step = 0 ∨ x.step = 6 ∨ x.step = 7 → s' = s) ∧
        (x.step = 2 → s'.cores = s.cores ∧ (s'.part p).dumpValid = true ∧
          (x.dumpValid = true → (s'.part p).dumpLost = true ∧ (s'.part p).dump = x.dump) ∧
          (x.dumpValid = false → ∃ d, (s'.part p).dump = some d ∧ d.info = x.hangInfo ∧
            d.time = x.hangTime ∧ d.gen = s.board.gen ∧ d.body = s.collect p)) ∧
        (x.step = 3 → s'.cores = s.cores ∧ (s'.hbm.units.get p).selfRefresh = true ∧
          ∀ r ∈ s'.hbm.queue, r.part = p → partOf r.agent.source.1 ≠ p) ∧
        (x.step = 4 → (∀ r ∈ s.board.mesh, partOf r.src ≠ p) → ∀ q, partOf q = p →
          (s'.core (s'.tileOf q)).mem = [] ∧ (s'.core (s'.tileOf q)).tags = [] ∧
          (s'.core (s'.tileOf q)).mtx = {} ∧ s'.disp.jobs.get q = [] ∧
          ∀ d, (s'.ctx (s'.tileOf q) d).run = .idle) ∧
        (x.step = 5 → (s'.hbm.units.get p).selfRefresh = false)) ∧
      (∀ lost, (s.recovering p = false ∨ x.step.toNat < 5 → exec (.recoveryComplete p lost) s = .next s) ∧
        (s.recovering p = true → 5 ≤ x.step.toNat → ∃ s', exec (.recoveryComplete p lost) s = .next s' ∧
          (∀ d ∈ lost, d.val / 16 = p.val → s.channelIn p (d.val % 16) = true →
            s'.channelIn p (d.val % 16) = false) ∧
          (x.suspects = [] → x.later = [] → x.back = [] → s.clocks.firing = none →
            s.clocks.requests = [] → s'.recovering p = false ∧ (s'.part p).step = 0 ∧
            (s'.part p).run = (if x.offline = true then .offline else .serving) ∧
            (s'.part p).bystanders = [] ∧
            (s'.hbm.units.get p).selfRefresh = false ∧
            bit (s'.page (pageNo (.part p.val))).irqStatus 1 = true ∧
            bit (s'.page (pageNo (.dat p.val))).errSummary 2 = false ∧
            Claims.cnt s' (.part p.val) 2 = Claims.cnt s (.part p.val) 2 + 1 ∧
            (s'.part p).result = (if s'.partIn p = false then 3
              else if s'.partParts p < x.before then 2 else 1))))) ∧
    (∀ severe, ∃ s', exec (.logFlush severe) s = .next s' ∧ s'.pages = s.pages ∧ s'.cores = s.cores ∧
      (Tab.wf none s.journal.places = true → ∀ y,
        (∀ r, s.place y = some r → (severe = false ∨ r.severe = true) →
          s'.place y = some { r with flushed := true } ∧
          Tab.get none s'.journal.flash y = some { r with flushed := true }) ∧
        (∀ r, s.place y = some r → severe = true → r.severe = false → s'.place y = some r) ∧
        (s.place y = none → s'.place y = none))) ∧
    (∀ seq, (s.mayWrite w (.part 0) = false → exec (.logAck w seq) s = .next s) ∧
      (s.mayWrite w (.part 0) = true → ∃ s', exec (.logAck w seq) s = .next s' ∧ s'.cores = s.cores ∧
        (Tab.wf none s.journal.places = true → ∀ y, s'.place y = (s.place y).map fun r =>
          if (r.seq = seq ∨ seq = 0xFFFFFFFF) ∧ r.ack = false then { r with ack := true, flushed := false }
          else r) ∧
        (Tab.wf none s.journal.places = true → Tab.wf {} s.pages = true → seq = 0xFFFFFFFF → ∀ P,
          (s'.page P).errSummary &&& 0xB = 0)))

/-! ### The register pages -/

/-- Of the pages only `c` has changed, and nothing but pages, MSI-X and what a read shows. -/
def Claims.onlyPage (s s' : State) (c : PageClass) (p : Page) : Prop :=
  Claims.quiet s s' ∧ s'.clocks = s.clocks ∧ s'.board = s.board ∧ s'.page (pageNo c) = p ∧
  ∀ P, P ≠ pageNo c → s'.page P = s.page P

/-- R41, R44, R45, R49 to R53, R56 to R64, R67, R69 to R72, R494, R517, R518, R561: writes to a page whose island is gated
wait; writes that reach no page or come
narrow are dropped; staged and write-once registers; ENABLE, its check and its outcome; LOCK and SOFT_RESET; the
header's interrupt and violation bits; counters written and read; the snapshot; the service registers' latch.
DEGRADED and the refusal codes, LOCK's row, what SOFT_RESET leaves, the header of a function's page, the
latch of CHIP_SVC, dropped counter writes and the gate of a page are the model's (log entries 68, 69, 70, 73
and 74, DEDUCED and PRESUMED; 71, 72 and 114, DESIGN CHOICE). -/
def Obligations.RegisterPages : Prop :=
  ∀ (s : State) (w : Who) (page : BitVec 13) (c : PageClass),
    let P := pageNo c
    let p := s.page P
    let fixed : Prop := roCtrl c = true ∨ (∃ k, c = .syncObj k) ∨ (fwOnlyCtrl c = true ∧ w ≠ .firmware)
    (∀ i : Instr, (i = .blkEnable w page ∨ i = .blkDisable w page ∨ i = .blkLock w page ∨
        i = .softReset w page ∨ i = .woViolClear w page ∨ i = .snapTake w page ∨ i = .snapRelease w page ∨
        (∃ bits, i = .irqStatusClear w page bits ∨ i = .irqForce w page bits)) →
      (pageClass page.toNat = none → exec i s = .next s) ∧
      (pageClass page.toNat = some c → s.mayWrite w c = false → exec i s = .next s)) ∧
    (∀ bar4 addr size data,
      (w = .firmware → bar4 = true → exec (.registerWrite w bar4 addr size data) s = .next s) ∧
      (bar4 = false → s.reach w (addr.toNat / 4096) = none →
        exec (.registerWrite w bar4 addr size data) s = .next s) ∧
      (bar4 = false → size = .b1 ∨ size = .b2 ∨ (size = .b4 ∧ addr.toNat % 4 ≠ 0) ∨
          (size = .b8 ∧ addr.toNat % 8 ≠ 0) →
        exec (.registerWrite w bar4 addr size data) s = .next s) ∧
      (bar4 = false → s.reach w (addr.toNat / 4096) = some c → s.mayWrite w c = true → size = .b4 →
        let o := addr.toNat % 4096
        o % 4 = 0 →
        (∀ r, c ∈ [PageClass.clk, .pwr, .disp] → regInfo c o = some r →
          (p.checking ≠ [] → ∃ s', exec (.registerWrite w bar4 addr size data) s = .next s' ∧
            Claims.onlyPage s s' c { p with held := p.held ++ [⟨w, BitVec.ofNat 12 o, .b4, data &&& 0xFFFFFFFF⟩] }) ∧
          (p.checking = [] → p.held = [] → ∃ s', exec (.registerWrite w bar4 addr size data) s = .next s' ∧
            Claims.onlyPage s s' c { p with
              staged := Tab.set r.reset p.staged o (data.setWidth 32 &&& r.mask) })) ∧
        (c = .dat 0 → o = 0x040 → p.held = [] →
          (BitVec.ofNat 12 o ∉ p.written → ∃ s', exec (.registerWrite w bar4 addr size data) s = .next s' ∧
            s'.staged c o = data.setWidth 32 &&& 1 ∧ BitVec.ofNat 12 o ∈ (s'.page P).written) ∧
          (BitVec.ofNat 12 o ∈ p.written → ∃ s', exec (.registerWrite w bar4 addr size data) s = .next s' ∧
            s'.staged c o = s.staged c o ∧ (s'.page P).woViol = true ∧ bit (s'.page P).irqStatus 31 = true ∧
            (s'.page P).viol.offset = 0x040 ∧ (s'.page P).viol.kind = 1 ∧
            (s'.page P).viol.count.toNat = min 255 (p.viol.count.toNat + 1))))) ∧
    (pageClass page.toNat = some c → s.mayWrite w c = true → s.gatedPage c = true →
      let waits (i : Instr) (off : BitVec 12) (data : DWord) : Prop := ∃ s', exec i s = .next s' ∧
        Claims.onlyPage s s' c { p with held := p.held ++ [⟨w, off, .b4, data⟩] }
      waits (.blkEnable w page) 0x008 1 ∧ waits (.blkDisable w page) 0x008 0 ∧ waits (.softReset w page) 0x008 0x10 ∧
      waits (.woViolClear w page) 0x00C 0x10000 ∧ waits (.snapTake w page) 0x020 1 ∧
      waits (.snapRelease w page) 0x020 2 ∧ ∀ bits : Word, waits (.irqStatusClear w page bits) 0x010 (bits.setWidth 64) ∧
        waits (.irqForce w page bits) 0x018 (bits.setWidth 64)) ∧
    (pageClass page.toNat = some c → s.mayWrite w c = true → s.gatedPage c = false → p.held = [] ∨ p.checking ≠ [] →
      let shows (i : Instr) (q : Page) : Prop := ∃ s', exec i s = .next s' ∧ Claims.onlyPage s s' c q
      let held (data : DWord) : Page := { p with held := p.held ++ [⟨w, 0x008, .b4, data⟩] }
      (fixed → exec (.blkEnable w page) s = .next s ∧ exec (.blkDisable w page) s = .next s ∧
        exec (.blkLock w page) s = .next s ∧ exec (.softReset w page) s = .next s) ∧
      (¬ fixed → p.checking ≠ [] →
        shows (.blkEnable w page) (held 1) ∧ shows (.blkDisable w page) (held 0) ∧
        shows (.softReset w page) (held 0x10)) ∧
      (¬ fixed → p.checking = [] →
        (p.enable = true → exec (.blkEnable w page) s = .next s) ∧
        (p.enable = false → shows (.blkEnable w page) { p with
          checking := [.enable], refused := false, refuseCode := 0, lockNext := false }) ∧
        (p.enable = false → exec (.blkDisable w page) s = .next s) ∧
        (p.enable = true → ∃ s', exec (.blkDisable w page) s = .next s' ∧ (s'.page P).enable = false ∧
          (s'.page P).staged = p.staged ∧ (s'.page P).live = p.live ∧
          (∀ t n, c = .core t → s.lcoreOf (subTile t) = some n → ∀ j ∈ s'.disp.jobs.get n, j.ctx ≠ none)) ∧
        shows (.blkLock w page) { p with lock := true } ∧
        (∃ s', exec (.softReset w page) s = .next s' ∧
          (let q := s'.page P
           q.enable = false ∧ q.active = false ∧ q.refused = false ∧ q.refuseCode = 0 ∧ q.lock = p.lock ∧
           q.counters = p.counters ∧ q.ovf = p.ovf ∧ q.woViol = p.woViol ∧ q.viol = p.viol ∧
           q.written = p.written ∧ q.irqEnable = p.irqEnable ∧ q.snapSeq = p.snapSeq ∧
           bit q.irqStatus 31 = bit p.irqStatus 31) ∧
          (∀ o r, regInfo c o = some r →
            (r.kind ≠ .once → s'.staged c o = r.reset ∧ s'.live c o = r.reset) ∧
            (r.kind = .once → s'.staged c o = s.staged c o ∧ s'.live c o = s.live c o)) ∧
          (∀ t, c = .mtx t → (s'.core (subTile t)).mtx.queue = [] ∧ (s'.core (subTile t)).mtx.cb = [] ∧
            (s'.core (subTile t)).mtx.kept = none ∧
            (s'.core (subTile t)).mtx.trk = (s.core (subTile t)).mtx.trk) ∧
          (∀ t, c = .core t → (∀ n, ∀ j ∈ s.disp.jobs.get n, j.replay = false) →
            ∀ d, (s'.ctx (subTile t) d).run = .idle) ∧
          (c = .disp → s'.disp.fetches = [] ∧ ∀ e, s'.tracked e = none))) ∧
      (∀ bits, shows (.irqStatusClear w page bits) { p with irqStatus := p.irqStatus &&& ~~~bits } ∧
        shows (.irqForce w page bits) { p with irqStatus := p.irqStatus ||| (bits &&& irqMask c) }) ∧
      shows (.woViolClear w page) { p with woViol := false, viol := { p.viol with count := 0 } } ∧
      shows (.snapRelease w page) { p with snapHeld := false } ∧
      (roCtrl c = true → exec (.snapTake w page) s = .next s) ∧
      (roCtrl c = false → ∃ s', exec (.snapTake w page) s = .next s' ∧ s'.cores = s.cores ∧
        s'.page P = { p with
          snapHeld := true, snapSeq := p.snapSeq + 1, snapshot := p.counters, snapOvf := p.ovf } ∧
        ∀ k (j : Fin 16), c = .ring k → (s'.ring (16 * k + j.val)).snapshot =
          some ((s.ring (16 * k + j.val)).counters, (s.ring (16 * k + j.val)).ovf))) ∧
    (∀ sub, (pageClass page.toNat = none → page.toNat < 0x1FF0 → exec (.consistencyCheckDone page sub) s = .next s) ∧
      (pageClass page.toNat = some c → p.checking = [] →
        exec (.consistencyCheckDone page sub) s = .next s)) ∧
    (pageClass page.toNat = some c → p.checking = [.enable] → p.held = [] →
      let refuses (code : Byte) : Prop := ∃ s', exec (.consistencyCheckDone page none) s = .next s' ∧
        (s'.page P).checking = [] ∧ (s'.page P).refused = true ∧ (s'.page P).refuseCode = code ∧
        (s'.page P).enable = p.enable ∧ (s'.page P).live = p.live ∧ (s'.page P).staged = p.staged ∧
        (s'.page P).lock = p.lock
      (s.blockCheck c false ≠ 0 → refuses (s.blockCheck c false)) ∧
      (s.blockCheck c false = 0 →
        (c = .pwr → (s.staged .pwr 0x040).toNat < 300 ∨ 520 < (s.staged .pwr 0x040).toNat → refuses 0x02) ∧
        (c = .clk → (fld (s.staged .clk 0x044) 0 5).toNat < 1 ∨ 24 < (fld (s.staged .clk 0x044) 0 5).toNat →
          refuses 0x40) ∧
        (s.enableTests c ≠ 0 → (s.enableTests c).toNat < 0x40 → refuses (s.enableTests c)) ∧
        (s.enableTests c = 0 ∨ 0x40 ≤ (s.enableTests c).toNat → (∃ d ∈ s.needs c, s.enabled d = false) →
          refuses 0x05) ∧
        (s.enableTests c ≠ 0 → (∀ d ∈ s.needs c, s.enabled d = true) → refuses (s.enableTests c)) ∧
        (s.enableTests c = 0 → (∀ d ∈ s.needs c, s.enabled d = true) → ∃ s', exec (.consistencyCheckDone page none) s = .next s' ∧
          (s'.page P).checking = [] ∧ (s'.page P).enable = true ∧ (s'.page P).active = true ∧
          (s'.page P).lock = (p.lock || p.lockNext) ∧ (s'.page P).staged = p.staged ∧
          ∀ o, o < 4096 → o % 4 = 0 → s'.live c o = (match regInfo c o with
            | some r => if r.kind = .staged then s.staged c o else s.live c o
            | none => s.live c o)))) ∧
    (∀ off : BitVec 12, pageClass page.toNat = none ∨ (pageClass page.toNat = some c ∧ s.mayRead w c = false) →
      ∃ s', exec (.counterLowRead w page off) s = .next s' ∧ s'.host.rdata = 0 ∧ s'.pages = s.pages) ∧
    (∀ (off : BitVec 12) (i : Nat) (k : CounterKind), pageClass page.toNat = some c → off.toNat % 4 = 0 →
      (s.mayRead w c = true → s.hides w = false → k ≠ .sat32 → counterAt c off.toNat = some (.page i k, false) →
        let v : DWord := Tab.get 0 (if p.snapHeld = true then p.snapshot else p.counters) i
        ∃ s', exec (.counterLowRead w page off) s = .next s' ∧ s'.host.rdata = v &&& 0xFFFFFFFF ∧
          Claims.onlyPage s s' c { p with
            latch := Tab.set 0 p.latch (Who.reader w) ((v >>> 32).setWidth 32) }) ∧
      (s.mayWrite w c = true → s.gatedPage c = false → p.held = [] → ∀ data inc : DWord,
        let cut (v : DWord) : DWord := if k = .perf48 then v &&& 0xFFFFFFFFFFFF else v
        let leaves (size : AccSize) (v : DWord) : Prop :=
          ∃ s', exec (.counterWrite w page off size data inc) s = .next s' ∧ s'.cores = s.cores ∧
            Claims.cnt s' c i = (bump k v inc.toNat).1 ∧
            ((bump k v inc.toNat).2 = true → bit (s'.page P).ovf i = true)
        (counterAt c off.toNat = some (.page i k, false) →
          (k ≠ .sat32 → off.toNat % 8 = 0 → leaves .b8 (cut data)) ∧
          leaves .b4 (data &&& 0xFFFFFFFF)) ∧
        (counterAt c off.toNat = some (.page i k, true) → leaves .b4 (Claims.cnt s c i)))) ∧
    (s.mayRead w .chip = true → ∃ s', exec (.chipSvcStateRead w) s = .next s' ∧ s'.pages = s.pages ∧
      s'.host.rdata = s.board.svc.word.setWidth 64 ∧
      Tab.get [] s'.board.latch (Who.reader w) = s.board.svc.count :: s.board.svc.part.toList ∧
      ∀ y, y ≠ Who.reader w → Tab.get [] s'.board.latch y = Tab.get [] s.board.latch y) ∧
    (s.mayRead w .chip = false → ∃ s', exec (.chipSvcStateRead w) s = .next s' ∧ s'.pages = s.pages ∧
      s'.board = s.board ∧ s'.host.rdata = 0)

/-! ### The whole machine -/

/-- A step carries out the command at the front of the queue with the rest of the queue left to wait. On an
empty queue the block idles for one nanosecond, which the correction of its rate stretches or skips (R450): the model's
choice (DESIGN CHOICE, log entry 1), no rule of the spec. The check timer of a context advances with that time, except
in the states that hold it, and while its partition recovers (R526).
The magnitude of the rate correction, and where the check timer stands still, are the model's too (log
entries 44, DESIGN CHOICE, and 108, DEDUCED). -/
def Obligations.StepRunsFront : Prop :=
  (∀ (c : Instr) (rest : List Instr) (s : State), s.pending = c :: rest →
    step s = exec c { s with pending := rest }) ∧
  (∀ s : State, s.pending = [] →
    ∃ s', step s = .next s' ∧ s' = { s with time := s'.time, peer := s'.peer, cores := s'.cores } ∧
      (s'.time - s.time).toNat ≤ 2 ∧
      (s.peer.rate = 0 → -10 ^ 6 < s.peer.drift → s.peer.drift < 10 ^ 6 → s'.time = s.time + 1 ∧ s'.peer = s.peer) ∧
      (∀ t, s'.core t = { s.core t with timers := (s'.core t).timers }) ∧
      (∀ n c, (∀ m, m ≠ n → s.tileOf m ≠ s.tileOf n) → s'.chkTimer n c =
        if s.jobOn n c = none ∨ s.recovering (partOf n) = true ∨ s.timerHeld n c = true then s.chkTimer n c
        else s.chkTimer n c + (s'.time - s.time).toNat))

/-- Every command completes in every state, and none takes another from the queue or adds one. -/
def Obligations.EveryCommandAnswers : Prop :=
  ∀ (c : Instr) (s : State), ∃ t, exec c s = .next t ∧ t.pending = s.pending

/-- Every step keeps the memories of the machine, their marks and their tags in canonical form: addresses
strictly rising, and no entry that equals what an unlisted address reads as.
What an unlisted address reads as is the model's choice (log entry 5, DESIGN CHOICE). -/
def Obligations.MemoryCanonical : Prop :=
  ∀ s t : State, s.memoryWf = true → step s = .next t → t.memoryWf = true

/-- R24, R25, R28, R36, R46, R67, R77, R140, R225, R323, R325, R357, R389, R402, R453, R495, R515, R517, R518, R544:
what reset leaves, as the registers' tables give it: BOOT, every core on its own tile with its contexts IDLE, no
page enabled, every counter 0, each configuration register at its reset value, and the memories, which list
nothing, in canonical form.
The queue, the rings' lists and the objects' values, for which no table gives a value, are empty and 0, and memory
lists nothing: the model's choice (log entries 4 and 5, DESIGN CHOICE). -/
def Obligations.ResetState : Prop :=
  let r := State.reset
  r.memoryWf = true ∧ r.pending = [] ∧ r.time = 0 ∧ r.board.svc.state = .boot ∧ r.board.svc.seq = 0 ∧
  (∀ n : LCore, r.tileOf n = ⟨n.val, by omega⟩ ∧ (r.board.map.get n).castled = false ∧
    (r.board.map.get n).out = false ∧ (r.board.map.get n).mtxOut = false) ∧
  (∀ i, (r.board.spares.get i).state = .idle) ∧
  (∀ t c, (r.ctx t c).run = .idle) ∧
  (∀ P, (r.page P).enable = false ∧ (r.page P).lock = false ∧ (r.page P).irqStatus = 0 ∧
    (r.page P).irqEnable = 0 ∧ (r.page P).errSummary = 0 ∧ (r.page P).snapSeq = 0 ∧
    ∀ i, Tab.get 0 (r.page P).counters i = 0) ∧
  (∀ t, r.live (.core t) 0x080 = 4096 ∧ r.live (.stripe t) 0x050 = 10000 ∧ r.live (.spad t) 0x040 = 10000) ∧
  (∀ f, f < 16 → r.live .disp (0x040 + 4 * f) = 0x40001) ∧ r.live .disp 0x080 = 10000 ∧
  r.live .clk 0x044 = 0x100606 ∧ r.live .pwr 0x040 = 450 ∧ (∀ p, r.live (.part p) 0x048 = 50) ∧
  r.live (.peer 0) 0x06C = 100000 ∧
  (∀ p : Part, (r.hbm.units.get p).therm = 256 ∧ (r.part p).run = .serving ∧ (r.part p).hangInfo = 0) ∧
  (∀ i : Island, (r.isl i.val).tedcap = 1900 ∧ (r.isl i.val).days = 0xFFFF ∧
    (r.isl i.val).failed = false ∧ (r.isl i.val).gated = false ∧
    (i.val < 284 ∨ i.val = 289 ∨ i.val = 290 → r.fnow i.val = 1600) ∧
    (284 ≤ i.val ∧ i.val ≤ 288 → r.fnow i.val = 1000)) ∧
  r.clocks.fscale = 256 ∧ r.clocks.mduty = 16 ∧ (∀ t, r.tcapOf t = 1900) ∧
  (∀ o, r.obj o = 0) ∧ (∀ q, (r.ring q).state = .idle ∧ (r.ring q).tail = 0 ∧ (r.ring q).committed = false) ∧
  (∀ q : Fin 4, (r.port q).run = .disabled) ∧ r.sec.mode = .standard ∧ r.mgmt.stage = 0
end

