-- ==== Sys2Proof/Laws/Tab.lean ====
section
/-! SUPPORT. Sparse tables: what a read gives after a write, and that every operation keeps the
canonical form. -/

namespace Sys2Proof.Machine

variable {α : Type}

@[simp] theorem Tab.get_nil (d : α) (k : Nat) : Tab.get d [] k = d := rfl

theorem Tab.get_erase_same (d : α) (t : Tab α) (k : Nat) : Tab.get d (Tab.erase t k) k = d := by
  induction t with
  | nil => rfl
  | cons e t ih =>
    obtain ⟨j, v⟩ := e
    by_cases h : j = k <;> simp [Tab.erase, Tab.get, h, ih]

theorem Tab.get_erase_ne (d : α) (t : Tab α) {k j : Nat} (h : j ≠ k) :
    Tab.get d (Tab.erase t k) j = Tab.get d t j := by
  induction t with
  | nil => rfl
  | cons e t ih =>
    obtain ⟨i, v⟩ := e
    by_cases hi : i = k
    · subst hi
      simp [Tab.erase, Tab.get, ih, Ne.symm h]
    · by_cases hj : i = j
      · subst hj
        simp [Tab.erase, Tab.get, hi]
      · simp [Tab.erase, Tab.get, hi, hj, ih]

theorem Tab.get_insert_same (d : α) (t : Tab α) (k : Nat) (v : α) :
    Tab.get d (Tab.insert t k v) k = v := by
  induction t with
  | nil => simp [Tab.insert, Tab.get]
  | cons e t ih =>
    obtain ⟨j, u⟩ := e
    simp only [Tab.insert]
    split
    · simp [Tab.get]
    · split
      · simp [Tab.get]
      · rename_i h
        simp [Tab.get, Ne.symm h, ih]

theorem Tab.get_insert_ne (d : α) (t : Tab α) {k j : Nat} (v : α) (h : j ≠ k) :
    Tab.get d (Tab.insert t k v) j = Tab.get d t j := by
  induction t with
  | nil => simp [Tab.insert, Tab.get, Ne.symm h]
  | cons e t ih =>
    obtain ⟨i, u⟩ := e
    simp only [Tab.insert]
    split
    · simp [Tab.get, Ne.symm h]
    · split
      · rename_i hk
        subst hk
        simp [Tab.get, Ne.symm h]
      · by_cases hj : i = j <;> simp [Tab.get, hj, ih]

theorem Tab.mem_erase {t : Tab α} {k : Nat} {e : Nat × α} (h : e ∈ Tab.erase t k) : e ∈ t := by
  induction t with
  | nil => simp [Tab.erase] at h
  | cons x t ih =>
    obtain ⟨j, v⟩ := x
    simp only [Tab.erase] at h
    split at h
    · exact List.mem_cons_of_mem _ (ih h)
    · rcases List.mem_cons.1 h with h | h
      · exact h ▸ List.mem_cons_self ..
      · exact List.mem_cons_of_mem _ (ih h)

theorem Tab.mem_insert {t : Tab α} {k : Nat} {v : α} {e : Nat × α} (h : e ∈ Tab.insert t k v) :
    e = (k, v) ∨ e ∈ t := by
  induction t with
  | nil => simpa [Tab.insert] using h
  | cons x t ih =>
    obtain ⟨j, u⟩ := x
    simp only [Tab.insert] at h
    split at h
    · simpa using h
    · split at h
      · rcases List.mem_cons.1 h with h | h
        · exact .inl h
        · exact .inr (List.mem_cons_of_mem _ h)
      · rcases List.mem_cons.1 h with h | h
        · exact .inr (h ▸ List.mem_cons_self ..)
        · exact (ih h).imp id (List.mem_cons_of_mem _)

/-- The canonical form, stated by membership: keys rise and no default is listed. -/
def Tab.Sorted (d : α) (t : Tab α) : Prop := t.Pairwise (fun a b => a.1 < b.1) ∧ ∀ e ∈ t, e.2 ≠ d

theorem Tab.sorted_erase {d : α} {t : Tab α} (k : Nat) (h : Tab.Sorted d t) :
    Tab.Sorted d (Tab.erase t k) := by
  refine ⟨?_, fun e he => h.2 e (Tab.mem_erase he)⟩
  have hp := h.1
  clear h
  induction t with
  | nil => simp [Tab.erase]
  | cons x t ih =>
    obtain ⟨j, v⟩ := x
    have hp' := List.pairwise_cons.1 hp
    simp only [Tab.erase]
    split
    · exact ih hp'.2
    · exact List.pairwise_cons.2 ⟨fun e he => hp'.1 e (Tab.mem_erase he), ih hp'.2⟩

theorem Tab.sorted_insert {d : α} {t : Tab α} (k : Nat) {v : α} (hv : v ≠ d) (h : Tab.Sorted d t) :
    Tab.Sorted d (Tab.insert t k v) := by
  refine ⟨?_, fun e he => (Tab.mem_insert he).elim (fun h' => h' ▸ hv) (h.2 e)⟩
  have hp := h.1
  clear h
  induction t with
  | nil => simp [Tab.insert]
  | cons x t ih =>
    obtain ⟨j, u⟩ := x
    have hp' := List.pairwise_cons.1 hp
    simp only [Tab.insert]
    split
    · rename_i hk
      refine List.pairwise_cons.2 ⟨fun e he => ?_, hp⟩
      rcases List.mem_cons.1 he with rfl | he
      · exact hk
      · exact Nat.lt_trans hk (hp'.1 e he)
    · split
      · rename_i hk
        subst hk
        exact List.pairwise_cons.2 ⟨hp'.1, hp'.2⟩
      · rename_i h1 h2
        refine List.pairwise_cons.2 ⟨fun e he => ?_, ih hp'.2⟩
        rcases Tab.mem_insert he with rfl | he
        · show j < k
          omega
        · exact hp'.1 e he

variable [DecidableEq α]

/-- A read after a write to the same key gives the value written. -/
@[simp] theorem Tab.get_set_same (d : α) (t : Tab α) (k : Nat) (v : α) :
    Tab.get d (Tab.set d t k v) k = v := by
  unfold Tab.set
  split
  · rename_i h
    rw [Tab.get_erase_same, h]
  · exact Tab.get_insert_same d t k v

/-- A write leaves every other key alone. -/
theorem Tab.get_set_ne (d : α) (t : Tab α) {k j : Nat} (v : α) (h : j ≠ k) :
    Tab.get d (Tab.set d t k v) j = Tab.get d t j := by
  unfold Tab.set
  split
  · exact Tab.get_erase_ne d t h
  · exact Tab.get_insert_ne d t v h

@[simp] theorem Tab.get_mod_same (d : α) (t : Tab α) (k : Nat) (f : α → α) :
    Tab.get d (Tab.mod d t k f) k = f (Tab.get d t k) := Tab.get_set_same d t k _

theorem Tab.get_mod_ne (d : α) (t : Tab α) {k j : Nat} (f : α → α) (h : j ≠ k) :
    Tab.get d (Tab.mod d t k f) j = Tab.get d t j := Tab.get_set_ne d t _ h

/-! ### The canonical form -/

theorem Tab.wf_iff (d : α) (t : Tab α) : Tab.wf d t = true ↔ Tab.Sorted d t := by
  induction t with
  | nil => simp [Tab.wf, Tab.Sorted]
  | cons e t ih =>
    obtain ⟨j, v⟩ := e
    cases t with
    | nil => simp [Tab.wf, Tab.Sorted]
    | cons e' t =>
      obtain ⟨k, u⟩ := e'
      simp only [Tab.wf, Bool.and_eq_true, decide_eq_true_eq, ih, Tab.Sorted, List.pairwise_cons,
        List.mem_cons, forall_eq_or_imp]
      constructor
      · rintro ⟨⟨hv, hjk⟩, ⟨hp, hs⟩, hu, hd⟩
        exact ⟨⟨⟨hjk, fun e he => Nat.lt_trans hjk (hp e he)⟩, hp, hs⟩, hv, hu, hd⟩
      · rintro ⟨⟨⟨hjk, _⟩, hp, hs⟩, hv, hu, hd⟩
        exact ⟨⟨hv, hjk⟩, ⟨hp, hs⟩, hu, hd⟩

/-- A write keeps the canonical form. -/
theorem Tab.wf_set {d : α} {t : Tab α} (k : Nat) (v : α) (h : Tab.wf d t = true) :
    Tab.wf d (Tab.set d t k v) = true := by
  rw [Tab.wf_iff] at h ⊢
  unfold Tab.set
  split
  · exact Tab.sorted_erase k h
  · rename_i hv
    exact Tab.sorted_insert k hv h

theorem Tab.wf_mod {d : α} {t : Tab α} (k : Nat) (f : α → α) (h : Tab.wf d t = true) :
    Tab.wf d (Tab.mod d t k f) = true := Tab.wf_set k _ h

/-- A write of a run of keys keeps the canonical form. -/
theorem Tab.wf_setRange {d : α} (vs : List α) {t : Tab α} (k : Nat) (h : Tab.wf d t = true) :
    Tab.wf d (Tab.setRange d t k vs) = true := by
  induction vs generalizing t k with
  | nil => exact h
  | cons v vs ih => exact ih (k + 1) (Tab.wf_set k v h)

theorem Tab.wf_filter {d : α} {t : Tab α} (p : Nat × α → Bool) (h : Tab.wf d t = true) :
    Tab.wf d (List.filter p t) = true := by
  rw [Tab.wf_iff] at h ⊢
  exact ⟨h.1.filter p, fun e he => h.2 e (List.mem_filter.1 he).1⟩

/-- Clearing a range keeps the canonical form. -/
theorem Tab.wf_clearRange {d : α} {t : Tab α} (lo n : Nat) (h : Tab.wf d t = true) :
    Tab.wf d (Tab.clearRange t lo n) = true := Tab.wf_filter _ h

theorem Tab.mem_mapVals {d : α} {f : Nat → α → α} {t : Tab α} {e : Nat × α}
    (h : e ∈ Tab.mapVals d f t) : e.2 ≠ d ∧ ∃ x ∈ t, x.1 = e.1 := by
  induction t with
  | nil => simp [Tab.mapVals] at h
  | cons x t ih =>
    obtain ⟨j, v⟩ := x
    simp only [Tab.mapVals] at h
    split at h
    · obtain ⟨h1, y, hy, h2⟩ := ih h
      exact ⟨h1, y, List.mem_cons_of_mem _ hy, h2⟩
    · rename_i hv
      rcases List.mem_cons.1 h with rfl | h
      · exact ⟨hv, _, List.mem_cons_self .., rfl⟩
      · obtain ⟨h1, y, hy, h2⟩ := ih h
        exact ⟨h1, y, List.mem_cons_of_mem _ hy, h2⟩

/-- Changing every value keeps the canonical form. -/
theorem Tab.wf_mapVals {d : α} {t : Tab α} (f : Nat → α → α) (h : Tab.wf d t = true) :
    Tab.wf d (Tab.mapVals d f t) = true := by
  rw [Tab.wf_iff] at h ⊢
  refine ⟨?_, fun e he => (Tab.mem_mapVals he).1⟩
  have hp := h.1
  clear h
  induction t with
  | nil => simp [Tab.mapVals]
  | cons x t ih =>
    obtain ⟨j, v⟩ := x
    have hp' := List.pairwise_cons.1 hp
    simp only [Tab.mapVals]
    split
    · exact ih hp'.2
    · refine List.pairwise_cons.2 ⟨fun e he => ?_, ih hp'.2⟩
      obtain ⟨-, y, hy, h2⟩ := Tab.mem_mapVals he
      exact h2 ▸ hp'.1 y hy

end Sys2Proof.Machine
end

