-- ==== Sys2Proof/Laws/State.lean ====
section
/-! SUPPORT. What each primitive update of the state leaves alone, and what it makes of the field it
names. -/

namespace Sys2Proof.Machine

/-! ### tick -/

@[simp] theorem State.tick_pending (s : State) :
    s.tick.pending = s.pending := rfl
@[simp] theorem State.tick_pages (s : State) :
    s.tick.pages = s.pages := rfl
@[simp] theorem State.tick_board (s : State) :
    s.tick.board = s.board := rfl
@[simp] theorem State.tick_cores (s : State) :
    s.tick.cores = s.cores := rfl
@[simp] theorem State.tick_host (s : State) :
    s.tick.host = s.host := rfl
@[simp] theorem State.tick_hbm (s : State) :
    s.tick.hbm = s.hbm := rfl
@[simp] theorem State.tick_journal (s : State) :
    s.tick.journal = s.journal := rfl
@[simp] theorem State.tick_rings (s : State) :
    s.tick.rings = s.rings := rfl
@[simp] theorem State.tick_disp (s : State) :
    s.tick.disp = s.disp := rfl
@[simp] theorem State.tick_sync (s : State) :
    s.tick.sync = s.sync := rfl
@[simp] theorem State.tick_parts (s : State) :
    s.tick.parts = s.parts := rfl
@[simp] theorem State.tick_dumpSerial (s : State) :
    s.tick.dumpSerial = s.dumpSerial := rfl
@[simp] theorem State.tick_sec (s : State) :
    s.tick.sec = s.sec := rfl
@[simp] theorem State.tick_mgmt (s : State) :
    s.tick.mgmt = s.mgmt := rfl
@[simp] theorem State.tick_pins (s : State) :
    s.tick.pins = s.pins := rfl
@[simp] theorem State.tick_clocks (s : State) :
    s.tick.clocks = s.clocks := rfl
@[simp] theorem State.tick_free (s : State) :
    s.tick.free = s.free := rfl

/-! ### modCore -/

@[simp] theorem State.modCore_pending (s : State) (t : Tile) (f : Core → Core) :
    (s.modCore t f).pending = s.pending := rfl
@[simp] theorem State.modCore_time (s : State) (t : Tile) (f : Core → Core) :
    (s.modCore t f).time = s.time := rfl
@[simp] theorem State.modCore_pages (s : State) (t : Tile) (f : Core → Core) :
    (s.modCore t f).pages = s.pages := rfl
@[simp] theorem State.modCore_board (s : State) (t : Tile) (f : Core → Core) :
    (s.modCore t f).board = s.board := rfl
@[simp] theorem State.modCore_host (s : State) (t : Tile) (f : Core → Core) :
    (s.modCore t f).host = s.host := rfl
@[simp] theorem State.modCore_hbm (s : State) (t : Tile) (f : Core → Core) :
    (s.modCore t f).hbm = s.hbm := rfl
@[simp] theorem State.modCore_journal (s : State) (t : Tile) (f : Core → Core) :
    (s.modCore t f).journal = s.journal := rfl
@[simp] theorem State.modCore_rings (s : State) (t : Tile) (f : Core → Core) :
    (s.modCore t f).rings = s.rings := rfl
@[simp] theorem State.modCore_disp (s : State) (t : Tile) (f : Core → Core) :
    (s.modCore t f).disp = s.disp := rfl
@[simp] theorem State.modCore_sync (s : State) (t : Tile) (f : Core → Core) :
    (s.modCore t f).sync = s.sync := rfl
@[simp] theorem State.modCore_parts (s : State) (t : Tile) (f : Core → Core) :
    (s.modCore t f).parts = s.parts := rfl
@[simp] theorem State.modCore_dumpSerial (s : State) (t : Tile) (f : Core → Core) :
    (s.modCore t f).dumpSerial = s.dumpSerial := rfl
@[simp] theorem State.modCore_sec (s : State) (t : Tile) (f : Core → Core) :
    (s.modCore t f).sec = s.sec := rfl
@[simp] theorem State.modCore_mgmt (s : State) (t : Tile) (f : Core → Core) :
    (s.modCore t f).mgmt = s.mgmt := rfl
@[simp] theorem State.modCore_pins (s : State) (t : Tile) (f : Core → Core) :
    (s.modCore t f).pins = s.pins := rfl
@[simp] theorem State.modCore_clocks (s : State) (t : Tile) (f : Core → Core) :
    (s.modCore t f).clocks = s.clocks := rfl
@[simp] theorem State.modCore_peer (s : State) (t : Tile) (f : Core → Core) :
    (s.modCore t f).peer = s.peer := rfl
@[simp] theorem State.modCore_free (s : State) (t : Tile) (f : Core → Core) :
    (s.modCore t f).free = s.free := rfl

/-! ### modCtx -/

@[simp] theorem State.modCtx_pending (s : State) (t : Tile) (c : CtxId) (f : Ctx → Ctx) :
    (s.modCtx t c f).pending = s.pending := rfl
@[simp] theorem State.modCtx_time (s : State) (t : Tile) (c : CtxId) (f : Ctx → Ctx) :
    (s.modCtx t c f).time = s.time := rfl
@[simp] theorem State.modCtx_pages (s : State) (t : Tile) (c : CtxId) (f : Ctx → Ctx) :
    (s.modCtx t c f).pages = s.pages := rfl
@[simp] theorem State.modCtx_board (s : State) (t : Tile) (c : CtxId) (f : Ctx → Ctx) :
    (s.modCtx t c f).board = s.board := rfl
@[simp] theorem State.modCtx_host (s : State) (t : Tile) (c : CtxId) (f : Ctx → Ctx) :
    (s.modCtx t c f).host = s.host := rfl
@[simp] theorem State.modCtx_hbm (s : State) (t : Tile) (c : CtxId) (f : Ctx → Ctx) :
    (s.modCtx t c f).hbm = s.hbm := rfl
@[simp] theorem State.modCtx_journal (s : State) (t : Tile) (c : CtxId) (f : Ctx → Ctx) :
    (s.modCtx t c f).journal = s.journal := rfl
@[simp] theorem State.modCtx_rings (s : State) (t : Tile) (c : CtxId) (f : Ctx → Ctx) :
    (s.modCtx t c f).rings = s.rings := rfl
@[simp] theorem State.modCtx_disp (s : State) (t : Tile) (c : CtxId) (f : Ctx → Ctx) :
    (s.modCtx t c f).disp = s.disp := rfl
@[simp] theorem State.modCtx_sync (s : State) (t : Tile) (c : CtxId) (f : Ctx → Ctx) :
    (s.modCtx t c f).sync = s.sync := rfl
@[simp] theorem State.modCtx_parts (s : State) (t : Tile) (c : CtxId) (f : Ctx → Ctx) :
    (s.modCtx t c f).parts = s.parts := rfl
@[simp] theorem State.modCtx_dumpSerial (s : State) (t : Tile) (c : CtxId) (f : Ctx → Ctx) :
    (s.modCtx t c f).dumpSerial = s.dumpSerial := rfl
@[simp] theorem State.modCtx_sec (s : State) (t : Tile) (c : CtxId) (f : Ctx → Ctx) :
    (s.modCtx t c f).sec = s.sec := rfl
@[simp] theorem State.modCtx_mgmt (s : State) (t : Tile) (c : CtxId) (f : Ctx → Ctx) :
    (s.modCtx t c f).mgmt = s.mgmt := rfl
@[simp] theorem State.modCtx_pins (s : State) (t : Tile) (c : CtxId) (f : Ctx → Ctx) :
    (s.modCtx t c f).pins = s.pins := rfl
@[simp] theorem State.modCtx_clocks (s : State) (t : Tile) (c : CtxId) (f : Ctx → Ctx) :
    (s.modCtx t c f).clocks = s.clocks := rfl
@[simp] theorem State.modCtx_peer (s : State) (t : Tile) (c : CtxId) (f : Ctx → Ctx) :
    (s.modCtx t c f).peer = s.peer := rfl
@[simp] theorem State.modCtx_free (s : State) (t : Tile) (c : CtxId) (f : Ctx → Ctx) :
    (s.modCtx t c f).free = s.free := rfl

/-! ### modPage -/

@[simp] theorem State.modPage_pending (s : State) (P : Nat) (f : Page → Page) :
    (s.modPage P f).pending = s.pending := rfl
@[simp] theorem State.modPage_time (s : State) (P : Nat) (f : Page → Page) :
    (s.modPage P f).time = s.time := rfl
@[simp] theorem State.modPage_board (s : State) (P : Nat) (f : Page → Page) :
    (s.modPage P f).board = s.board := rfl
@[simp] theorem State.modPage_cores (s : State) (P : Nat) (f : Page → Page) :
    (s.modPage P f).cores = s.cores := rfl
@[simp] theorem State.modPage_host (s : State) (P : Nat) (f : Page → Page) :
    (s.modPage P f).host = s.host := rfl
@[simp] theorem State.modPage_hbm (s : State) (P : Nat) (f : Page → Page) :
    (s.modPage P f).hbm = s.hbm := rfl
@[simp] theorem State.modPage_journal (s : State) (P : Nat) (f : Page → Page) :
    (s.modPage P f).journal = s.journal := rfl
@[simp] theorem State.modPage_rings (s : State) (P : Nat) (f : Page → Page) :
    (s.modPage P f).rings = s.rings := rfl
@[simp] theorem State.modPage_disp (s : State) (P : Nat) (f : Page → Page) :
    (s.modPage P f).disp = s.disp := rfl
@[simp] theorem State.modPage_sync (s : State) (P : Nat) (f : Page → Page) :
    (s.modPage P f).sync = s.sync := rfl
@[simp] theorem State.modPage_parts (s : State) (P : Nat) (f : Page → Page) :
    (s.modPage P f).parts = s.parts := rfl
@[simp] theorem State.modPage_dumpSerial (s : State) (P : Nat) (f : Page → Page) :
    (s.modPage P f).dumpSerial = s.dumpSerial := rfl
@[simp] theorem State.modPage_sec (s : State) (P : Nat) (f : Page → Page) :
    (s.modPage P f).sec = s.sec := rfl
@[simp] theorem State.modPage_mgmt (s : State) (P : Nat) (f : Page → Page) :
    (s.modPage P f).mgmt = s.mgmt := rfl
@[simp] theorem State.modPage_pins (s : State) (P : Nat) (f : Page → Page) :
    (s.modPage P f).pins = s.pins := rfl
@[simp] theorem State.modPage_clocks (s : State) (P : Nat) (f : Page → Page) :
    (s.modPage P f).clocks = s.clocks := rfl
@[simp] theorem State.modPage_peer (s : State) (P : Nat) (f : Page → Page) :
    (s.modPage P f).peer = s.peer := rfl
@[simp] theorem State.modPage_free (s : State) (P : Nat) (f : Page → Page) :
    (s.modPage P f).free = s.free := rfl

/-! ### modRing -/

@[simp] theorem State.modRing_pending (s : State) (r : Nat) (f : Ring → Ring) :
    (s.modRing r f).pending = s.pending := rfl
@[simp] theorem State.modRing_time (s : State) (r : Nat) (f : Ring → Ring) :
    (s.modRing r f).time = s.time := rfl
@[simp] theorem State.modRing_pages (s : State) (r : Nat) (f : Ring → Ring) :
    (s.modRing r f).pages = s.pages := rfl
@[simp] theorem State.modRing_board (s : State) (r : Nat) (f : Ring → Ring) :
    (s.modRing r f).board = s.board := rfl
@[simp] theorem State.modRing_cores (s : State) (r : Nat) (f : Ring → Ring) :
    (s.modRing r f).cores = s.cores := rfl
@[simp] theorem State.modRing_host (s : State) (r : Nat) (f : Ring → Ring) :
    (s.modRing r f).host = s.host := rfl
@[simp] theorem State.modRing_hbm (s : State) (r : Nat) (f : Ring → Ring) :
    (s.modRing r f).hbm = s.hbm := rfl
@[simp] theorem State.modRing_journal (s : State) (r : Nat) (f : Ring → Ring) :
    (s.modRing r f).journal = s.journal := rfl
@[simp] theorem State.modRing_disp (s : State) (r : Nat) (f : Ring → Ring) :
    (s.modRing r f).disp = s.disp := rfl
@[simp] theorem State.modRing_sync (s : State) (r : Nat) (f : Ring → Ring) :
    (s.modRing r f).sync = s.sync := rfl
@[simp] theorem State.modRing_parts (s : State) (r : Nat) (f : Ring → Ring) :
    (s.modRing r f).parts = s.parts := rfl
@[simp] theorem State.modRing_dumpSerial (s : State) (r : Nat) (f : Ring → Ring) :
    (s.modRing r f).dumpSerial = s.dumpSerial := rfl
@[simp] theorem State.modRing_sec (s : State) (r : Nat) (f : Ring → Ring) :
    (s.modRing r f).sec = s.sec := rfl
@[simp] theorem State.modRing_mgmt (s : State) (r : Nat) (f : Ring → Ring) :
    (s.modRing r f).mgmt = s.mgmt := rfl
@[simp] theorem State.modRing_pins (s : State) (r : Nat) (f : Ring → Ring) :
    (s.modRing r f).pins = s.pins := rfl
@[simp] theorem State.modRing_clocks (s : State) (r : Nat) (f : Ring → Ring) :
    (s.modRing r f).clocks = s.clocks := rfl
@[simp] theorem State.modRing_peer (s : State) (r : Nat) (f : Ring → Ring) :
    (s.modRing r f).peer = s.peer := rfl
@[simp] theorem State.modRing_free (s : State) (r : Nat) (f : Ring → Ring) :
    (s.modRing r f).free = s.free := rfl

/-! ### modIsl -/

@[simp] theorem State.modIsl_pending (s : State) (i : Nat) (f : Isl → Isl) :
    (s.modIsl i f).pending = s.pending := rfl
@[simp] theorem State.modIsl_time (s : State) (i : Nat) (f : Isl → Isl) :
    (s.modIsl i f).time = s.time := rfl
@[simp] theorem State.modIsl_pages (s : State) (i : Nat) (f : Isl → Isl) :
    (s.modIsl i f).pages = s.pages := rfl
@[simp] theorem State.modIsl_board (s : State) (i : Nat) (f : Isl → Isl) :
    (s.modIsl i f).board = s.board := rfl
@[simp] theorem State.modIsl_cores (s : State) (i : Nat) (f : Isl → Isl) :
    (s.modIsl i f).cores = s.cores := rfl
@[simp] theorem State.modIsl_host (s : State) (i : Nat) (f : Isl → Isl) :
    (s.modIsl i f).host = s.host := rfl
@[simp] theorem State.modIsl_hbm (s : State) (i : Nat) (f : Isl → Isl) :
    (s.modIsl i f).hbm = s.hbm := rfl
@[simp] theorem State.modIsl_journal (s : State) (i : Nat) (f : Isl → Isl) :
    (s.modIsl i f).journal = s.journal := rfl
@[simp] theorem State.modIsl_rings (s : State) (i : Nat) (f : Isl → Isl) :
    (s.modIsl i f).rings = s.rings := rfl
@[simp] theorem State.modIsl_disp (s : State) (i : Nat) (f : Isl → Isl) :
    (s.modIsl i f).disp = s.disp := rfl
@[simp] theorem State.modIsl_sync (s : State) (i : Nat) (f : Isl → Isl) :
    (s.modIsl i f).sync = s.sync := rfl
@[simp] theorem State.modIsl_parts (s : State) (i : Nat) (f : Isl → Isl) :
    (s.modIsl i f).parts = s.parts := rfl
@[simp] theorem State.modIsl_dumpSerial (s : State) (i : Nat) (f : Isl → Isl) :
    (s.modIsl i f).dumpSerial = s.dumpSerial := rfl
@[simp] theorem State.modIsl_sec (s : State) (i : Nat) (f : Isl → Isl) :
    (s.modIsl i f).sec = s.sec := rfl
@[simp] theorem State.modIsl_mgmt (s : State) (i : Nat) (f : Isl → Isl) :
    (s.modIsl i f).mgmt = s.mgmt := rfl
@[simp] theorem State.modIsl_pins (s : State) (i : Nat) (f : Isl → Isl) :
    (s.modIsl i f).pins = s.pins := rfl
@[simp] theorem State.modIsl_peer (s : State) (i : Nat) (f : Isl → Isl) :
    (s.modIsl i f).peer = s.peer := rfl
@[simp] theorem State.modIsl_free (s : State) (i : Nat) (f : Isl → Isl) :
    (s.modIsl i f).free = s.free := rfl

/-! ### modClk -/

@[simp] theorem State.modClk_pending (s : State) (f : Clocks → Clocks) :
    (s.modClk f).pending = s.pending := rfl
@[simp] theorem State.modClk_time (s : State) (f : Clocks → Clocks) :
    (s.modClk f).time = s.time := rfl
@[simp] theorem State.modClk_pages (s : State) (f : Clocks → Clocks) :
    (s.modClk f).pages = s.pages := rfl
@[simp] theorem State.modClk_board (s : State) (f : Clocks → Clocks) :
    (s.modClk f).board = s.board := rfl
@[simp] theorem State.modClk_cores (s : State) (f : Clocks → Clocks) :
    (s.modClk f).cores = s.cores := rfl
@[simp] theorem State.modClk_host (s : State) (f : Clocks → Clocks) :
    (s.modClk f).host = s.host := rfl
@[simp] theorem State.modClk_hbm (s : State) (f : Clocks → Clocks) :
    (s.modClk f).hbm = s.hbm := rfl
@[simp] theorem State.modClk_journal (s : State) (f : Clocks → Clocks) :
    (s.modClk f).journal = s.journal := rfl
@[simp] theorem State.modClk_rings (s : State) (f : Clocks → Clocks) :
    (s.modClk f).rings = s.rings := rfl
@[simp] theorem State.modClk_disp (s : State) (f : Clocks → Clocks) :
    (s.modClk f).disp = s.disp := rfl
@[simp] theorem State.modClk_sync (s : State) (f : Clocks → Clocks) :
    (s.modClk f).sync = s.sync := rfl
@[simp] theorem State.modClk_parts (s : State) (f : Clocks → Clocks) :
    (s.modClk f).parts = s.parts := rfl
@[simp] theorem State.modClk_dumpSerial (s : State) (f : Clocks → Clocks) :
    (s.modClk f).dumpSerial = s.dumpSerial := rfl
@[simp] theorem State.modClk_sec (s : State) (f : Clocks → Clocks) :
    (s.modClk f).sec = s.sec := rfl
@[simp] theorem State.modClk_mgmt (s : State) (f : Clocks → Clocks) :
    (s.modClk f).mgmt = s.mgmt := rfl
@[simp] theorem State.modClk_pins (s : State) (f : Clocks → Clocks) :
    (s.modClk f).pins = s.pins := rfl
@[simp] theorem State.modClk_peer (s : State) (f : Clocks → Clocks) :
    (s.modClk f).peer = s.peer := rfl
@[simp] theorem State.modClk_free (s : State) (f : Clocks → Clocks) :
    (s.modClk f).free = s.free := rfl
@[simp] theorem State.modClk_clocks (s : State) (f : Clocks → Clocks) :
    (s.modClk f).clocks = f s.clocks := rfl

/-! ### modRail -/

@[simp] theorem State.modRail_pending (s : State) (r : Fin 13) (f : Rail → Rail) :
    (s.modRail r f).pending = s.pending := rfl
@[simp] theorem State.modRail_time (s : State) (r : Fin 13) (f : Rail → Rail) :
    (s.modRail r f).time = s.time := rfl
@[simp] theorem State.modRail_pages (s : State) (r : Fin 13) (f : Rail → Rail) :
    (s.modRail r f).pages = s.pages := rfl
@[simp] theorem State.modRail_board (s : State) (r : Fin 13) (f : Rail → Rail) :
    (s.modRail r f).board = s.board := rfl
@[simp] theorem State.modRail_cores (s : State) (r : Fin 13) (f : Rail → Rail) :
    (s.modRail r f).cores = s.cores := rfl
@[simp] theorem State.modRail_host (s : State) (r : Fin 13) (f : Rail → Rail) :
    (s.modRail r f).host = s.host := rfl
@[simp] theorem State.modRail_hbm (s : State) (r : Fin 13) (f : Rail → Rail) :
    (s.modRail r f).hbm = s.hbm := rfl
@[simp] theorem State.modRail_journal (s : State) (r : Fin 13) (f : Rail → Rail) :
    (s.modRail r f).journal = s.journal := rfl
@[simp] theorem State.modRail_rings (s : State) (r : Fin 13) (f : Rail → Rail) :
    (s.modRail r f).rings = s.rings := rfl
@[simp] theorem State.modRail_disp (s : State) (r : Fin 13) (f : Rail → Rail) :
    (s.modRail r f).disp = s.disp := rfl
@[simp] theorem State.modRail_sync (s : State) (r : Fin 13) (f : Rail → Rail) :
    (s.modRail r f).sync = s.sync := rfl
@[simp] theorem State.modRail_parts (s : State) (r : Fin 13) (f : Rail → Rail) :
    (s.modRail r f).parts = s.parts := rfl
@[simp] theorem State.modRail_dumpSerial (s : State) (r : Fin 13) (f : Rail → Rail) :
    (s.modRail r f).dumpSerial = s.dumpSerial := rfl
@[simp] theorem State.modRail_sec (s : State) (r : Fin 13) (f : Rail → Rail) :
    (s.modRail r f).sec = s.sec := rfl
@[simp] theorem State.modRail_mgmt (s : State) (r : Fin 13) (f : Rail → Rail) :
    (s.modRail r f).mgmt = s.mgmt := rfl
@[simp] theorem State.modRail_pins (s : State) (r : Fin 13) (f : Rail → Rail) :
    (s.modRail r f).pins = s.pins := rfl
@[simp] theorem State.modRail_peer (s : State) (r : Fin 13) (f : Rail → Rail) :
    (s.modRail r f).peer = s.peer := rfl
@[simp] theorem State.modRail_free (s : State) (r : Fin 13) (f : Rail → Rail) :
    (s.modRail r f).free = s.free := rfl

/-! ### modBoard -/

@[simp] theorem State.modBoard_pending (s : State) (f : Board → Board) :
    (s.modBoard f).pending = s.pending := rfl
@[simp] theorem State.modBoard_time (s : State) (f : Board → Board) :
    (s.modBoard f).time = s.time := rfl
@[simp] theorem State.modBoard_pages (s : State) (f : Board → Board) :
    (s.modBoard f).pages = s.pages := rfl
@[simp] theorem State.modBoard_cores (s : State) (f : Board → Board) :
    (s.modBoard f).cores = s.cores := rfl
@[simp] theorem State.modBoard_host (s : State) (f : Board → Board) :
    (s.modBoard f).host = s.host := rfl
@[simp] theorem State.modBoard_hbm (s : State) (f : Board → Board) :
    (s.modBoard f).hbm = s.hbm := rfl
@[simp] theorem State.modBoard_journal (s : State) (f : Board → Board) :
    (s.modBoard f).journal = s.journal := rfl
@[simp] theorem State.modBoard_rings (s : State) (f : Board → Board) :
    (s.modBoard f).rings = s.rings := rfl
@[simp] theorem State.modBoard_disp (s : State) (f : Board → Board) :
    (s.modBoard f).disp = s.disp := rfl
@[simp] theorem State.modBoard_sync (s : State) (f : Board → Board) :
    (s.modBoard f).sync = s.sync := rfl
@[simp] theorem State.modBoard_parts (s : State) (f : Board → Board) :
    (s.modBoard f).parts = s.parts := rfl
@[simp] theorem State.modBoard_dumpSerial (s : State) (f : Board → Board) :
    (s.modBoard f).dumpSerial = s.dumpSerial := rfl
@[simp] theorem State.modBoard_sec (s : State) (f : Board → Board) :
    (s.modBoard f).sec = s.sec := rfl
@[simp] theorem State.modBoard_mgmt (s : State) (f : Board → Board) :
    (s.modBoard f).mgmt = s.mgmt := rfl
@[simp] theorem State.modBoard_pins (s : State) (f : Board → Board) :
    (s.modBoard f).pins = s.pins := rfl
@[simp] theorem State.modBoard_clocks (s : State) (f : Board → Board) :
    (s.modBoard f).clocks = s.clocks := rfl
@[simp] theorem State.modBoard_peer (s : State) (f : Board → Board) :
    (s.modBoard f).peer = s.peer := rfl
@[simp] theorem State.modBoard_free (s : State) (f : Board → Board) :
    (s.modBoard f).free = s.free := rfl
@[simp] theorem State.modBoard_board (s : State) (f : Board → Board) :
    (s.modBoard f).board = f s.board := rfl

/-! ### modMap -/

@[simp] theorem State.modMap_pending (s : State) (n : LCore) (f : MapEntry → MapEntry) :
    (s.modMap n f).pending = s.pending := rfl
@[simp] theorem State.modMap_time (s : State) (n : LCore) (f : MapEntry → MapEntry) :
    (s.modMap n f).time = s.time := rfl
@[simp] theorem State.modMap_pages (s : State) (n : LCore) (f : MapEntry → MapEntry) :
    (s.modMap n f).pages = s.pages := rfl
@[simp] theorem State.modMap_cores (s : State) (n : LCore) (f : MapEntry → MapEntry) :
    (s.modMap n f).cores = s.cores := rfl
@[simp] theorem State.modMap_host (s : State) (n : LCore) (f : MapEntry → MapEntry) :
    (s.modMap n f).host = s.host := rfl
@[simp] theorem State.modMap_hbm (s : State) (n : LCore) (f : MapEntry → MapEntry) :
    (s.modMap n f).hbm = s.hbm := rfl
@[simp] theorem State.modMap_journal (s : State) (n : LCore) (f : MapEntry → MapEntry) :
    (s.modMap n f).journal = s.journal := rfl
@[simp] theorem State.modMap_rings (s : State) (n : LCore) (f : MapEntry → MapEntry) :
    (s.modMap n f).rings = s.rings := rfl
@[simp] theorem State.modMap_disp (s : State) (n : LCore) (f : MapEntry → MapEntry) :
    (s.modMap n f).disp = s.disp := rfl
@[simp] theorem State.modMap_sync (s : State) (n : LCore) (f : MapEntry → MapEntry) :
    (s.modMap n f).sync = s.sync := rfl
@[simp] theorem State.modMap_parts (s : State) (n : LCore) (f : MapEntry → MapEntry) :
    (s.modMap n f).parts = s.parts := rfl
@[simp] theorem State.modMap_dumpSerial (s : State) (n : LCore) (f : MapEntry → MapEntry) :
    (s.modMap n f).dumpSerial = s.dumpSerial := rfl
@[simp] theorem State.modMap_sec (s : State) (n : LCore) (f : MapEntry → MapEntry) :
    (s.modMap n f).sec = s.sec := rfl
@[simp] theorem State.modMap_mgmt (s : State) (n : LCore) (f : MapEntry → MapEntry) :
    (s.modMap n f).mgmt = s.mgmt := rfl
@[simp] theorem State.modMap_pins (s : State) (n : LCore) (f : MapEntry → MapEntry) :
    (s.modMap n f).pins = s.pins := rfl
@[simp] theorem State.modMap_clocks (s : State) (n : LCore) (f : MapEntry → MapEntry) :
    (s.modMap n f).clocks = s.clocks := rfl
@[simp] theorem State.modMap_peer (s : State) (n : LCore) (f : MapEntry → MapEntry) :
    (s.modMap n f).peer = s.peer := rfl
@[simp] theorem State.modMap_free (s : State) (n : LCore) (f : MapEntry → MapEntry) :
    (s.modMap n f).free = s.free := rfl

/-! ### modSpare -/

@[simp] theorem State.modSpare_pending (s : State) (i : Fin 2) (f : Spare → Spare) :
    (s.modSpare i f).pending = s.pending := rfl
@[simp] theorem State.modSpare_time (s : State) (i : Fin 2) (f : Spare → Spare) :
    (s.modSpare i f).time = s.time := rfl
@[simp] theorem State.modSpare_pages (s : State) (i : Fin 2) (f : Spare → Spare) :
    (s.modSpare i f).pages = s.pages := rfl
@[simp] theorem State.modSpare_cores (s : State) (i : Fin 2) (f : Spare → Spare) :
    (s.modSpare i f).cores = s.cores := rfl
@[simp] theorem State.modSpare_host (s : State) (i : Fin 2) (f : Spare → Spare) :
    (s.modSpare i f).host = s.host := rfl
@[simp] theorem State.modSpare_hbm (s : State) (i : Fin 2) (f : Spare → Spare) :
    (s.modSpare i f).hbm = s.hbm := rfl
@[simp] theorem State.modSpare_journal (s : State) (i : Fin 2) (f : Spare → Spare) :
    (s.modSpare i f).journal = s.journal := rfl
@[simp] theorem State.modSpare_rings (s : State) (i : Fin 2) (f : Spare → Spare) :
    (s.modSpare i f).rings = s.rings := rfl
@[simp] theorem State.modSpare_disp (s : State) (i : Fin 2) (f : Spare → Spare) :
    (s.modSpare i f).disp = s.disp := rfl
@[simp] theorem State.modSpare_sync (s : State) (i : Fin 2) (f : Spare → Spare) :
    (s.modSpare i f).sync = s.sync := rfl
@[simp] theorem State.modSpare_parts (s : State) (i : Fin 2) (f : Spare → Spare) :
    (s.modSpare i f).parts = s.parts := rfl
@[simp] theorem State.modSpare_dumpSerial (s : State) (i : Fin 2) (f : Spare → Spare) :
    (s.modSpare i f).dumpSerial = s.dumpSerial := rfl
@[simp] theorem State.modSpare_sec (s : State) (i : Fin 2) (f : Spare → Spare) :
    (s.modSpare i f).sec = s.sec := rfl
@[simp] theorem State.modSpare_mgmt (s : State) (i : Fin 2) (f : Spare → Spare) :
    (s.modSpare i f).mgmt = s.mgmt := rfl
@[simp] theorem State.modSpare_pins (s : State) (i : Fin 2) (f : Spare → Spare) :
    (s.modSpare i f).pins = s.pins := rfl
@[simp] theorem State.modSpare_clocks (s : State) (i : Fin 2) (f : Spare → Spare) :
    (s.modSpare i f).clocks = s.clocks := rfl
@[simp] theorem State.modSpare_peer (s : State) (i : Fin 2) (f : Spare → Spare) :
    (s.modSpare i f).peer = s.peer := rfl
@[simp] theorem State.modSpare_free (s : State) (i : Fin 2) (f : Spare → Spare) :
    (s.modSpare i f).free = s.free := rfl

/-! ### modDisp -/

@[simp] theorem State.modDisp_pending (s : State) (f : Dispatch → Dispatch) :
    (s.modDisp f).pending = s.pending := rfl
@[simp] theorem State.modDisp_time (s : State) (f : Dispatch → Dispatch) :
    (s.modDisp f).time = s.time := rfl
@[simp] theorem State.modDisp_pages (s : State) (f : Dispatch → Dispatch) :
    (s.modDisp f).pages = s.pages := rfl
@[simp] theorem State.modDisp_board (s : State) (f : Dispatch → Dispatch) :
    (s.modDisp f).board = s.board := rfl
@[simp] theorem State.modDisp_cores (s : State) (f : Dispatch → Dispatch) :
    (s.modDisp f).cores = s.cores := rfl
@[simp] theorem State.modDisp_host (s : State) (f : Dispatch → Dispatch) :
    (s.modDisp f).host = s.host := rfl
@[simp] theorem State.modDisp_hbm (s : State) (f : Dispatch → Dispatch) :
    (s.modDisp f).hbm = s.hbm := rfl
@[simp] theorem State.modDisp_journal (s : State) (f : Dispatch → Dispatch) :
    (s.modDisp f).journal = s.journal := rfl
@[simp] theorem State.modDisp_rings (s : State) (f : Dispatch → Dispatch) :
    (s.modDisp f).rings = s.rings := rfl
@[simp] theorem State.modDisp_sync (s : State) (f : Dispatch → Dispatch) :
    (s.modDisp f).sync = s.sync := rfl
@[simp] theorem State.modDisp_parts (s : State) (f : Dispatch → Dispatch) :
    (s.modDisp f).parts = s.parts := rfl
@[simp] theorem State.modDisp_dumpSerial (s : State) (f : Dispatch → Dispatch) :
    (s.modDisp f).dumpSerial = s.dumpSerial := rfl
@[simp] theorem State.modDisp_sec (s : State) (f : Dispatch → Dispatch) :
    (s.modDisp f).sec = s.sec := rfl
@[simp] theorem State.modDisp_mgmt (s : State) (f : Dispatch → Dispatch) :
    (s.modDisp f).mgmt = s.mgmt := rfl
@[simp] theorem State.modDisp_pins (s : State) (f : Dispatch → Dispatch) :
    (s.modDisp f).pins = s.pins := rfl
@[simp] theorem State.modDisp_clocks (s : State) (f : Dispatch → Dispatch) :
    (s.modDisp f).clocks = s.clocks := rfl
@[simp] theorem State.modDisp_peer (s : State) (f : Dispatch → Dispatch) :
    (s.modDisp f).peer = s.peer := rfl
@[simp] theorem State.modDisp_free (s : State) (f : Dispatch → Dispatch) :
    (s.modDisp f).free = s.free := rfl
@[simp] theorem State.modDisp_disp (s : State) (f : Dispatch → Dispatch) :
    (s.modDisp f).disp = f s.disp := rfl

/-! ### modJobs -/

@[simp] theorem State.modJobs_pending (s : State) (n : LCore) (f : List CoreJob → List CoreJob) :
    (s.modJobs n f).pending = s.pending := rfl
@[simp] theorem State.modJobs_time (s : State) (n : LCore) (f : List CoreJob → List CoreJob) :
    (s.modJobs n f).time = s.time := rfl
@[simp] theorem State.modJobs_pages (s : State) (n : LCore) (f : List CoreJob → List CoreJob) :
    (s.modJobs n f).pages = s.pages := rfl
@[simp] theorem State.modJobs_board (s : State) (n : LCore) (f : List CoreJob → List CoreJob) :
    (s.modJobs n f).board = s.board := rfl
@[simp] theorem State.modJobs_cores (s : State) (n : LCore) (f : List CoreJob → List CoreJob) :
    (s.modJobs n f).cores = s.cores := rfl
@[simp] theorem State.modJobs_host (s : State) (n : LCore) (f : List CoreJob → List CoreJob) :
    (s.modJobs n f).host = s.host := rfl
@[simp] theorem State.modJobs_hbm (s : State) (n : LCore) (f : List CoreJob → List CoreJob) :
    (s.modJobs n f).hbm = s.hbm := rfl
@[simp] theorem State.modJobs_journal (s : State) (n : LCore) (f : List CoreJob → List CoreJob) :
    (s.modJobs n f).journal = s.journal := rfl
@[simp] theorem State.modJobs_rings (s : State) (n : LCore) (f : List CoreJob → List CoreJob) :
    (s.modJobs n f).rings = s.rings := rfl
@[simp] theorem State.modJobs_sync (s : State) (n : LCore) (f : List CoreJob → List CoreJob) :
    (s.modJobs n f).sync = s.sync := rfl
@[simp] theorem State.modJobs_parts (s : State) (n : LCore) (f : List CoreJob → List CoreJob) :
    (s.modJobs n f).parts = s.parts := rfl
@[simp] theorem State.modJobs_dumpSerial (s : State) (n : LCore) (f : List CoreJob → List CoreJob) :
    (s.modJobs n f).dumpSerial = s.dumpSerial := rfl
@[simp] theorem State.modJobs_sec (s : State) (n : LCore) (f : List CoreJob → List CoreJob) :
    (s.modJobs n f).sec = s.sec := rfl
@[simp] theorem State.modJobs_mgmt (s : State) (n : LCore) (f : List CoreJob → List CoreJob) :
    (s.modJobs n f).mgmt = s.mgmt := rfl
@[simp] theorem State.modJobs_pins (s : State) (n : LCore) (f : List CoreJob → List CoreJob) :
    (s.modJobs n f).pins = s.pins := rfl
@[simp] theorem State.modJobs_clocks (s : State) (n : LCore) (f : List CoreJob → List CoreJob) :
    (s.modJobs n f).clocks = s.clocks := rfl
@[simp] theorem State.modJobs_peer (s : State) (n : LCore) (f : List CoreJob → List CoreJob) :
    (s.modJobs n f).peer = s.peer := rfl
@[simp] theorem State.modJobs_free (s : State) (n : LCore) (f : List CoreJob → List CoreJob) :
    (s.modJobs n f).free = s.free := rfl

/-! ### modChan -/

@[simp] theorem State.modChan_pending (s : State) (i : Nat) (f : Channel → Channel) :
    (s.modChan i f).pending = s.pending := rfl
@[simp] theorem State.modChan_time (s : State) (i : Nat) (f : Channel → Channel) :
    (s.modChan i f).time = s.time := rfl
@[simp] theorem State.modChan_pages (s : State) (i : Nat) (f : Channel → Channel) :
    (s.modChan i f).pages = s.pages := rfl
@[simp] theorem State.modChan_board (s : State) (i : Nat) (f : Channel → Channel) :
    (s.modChan i f).board = s.board := rfl
@[simp] theorem State.modChan_cores (s : State) (i : Nat) (f : Channel → Channel) :
    (s.modChan i f).cores = s.cores := rfl
@[simp] theorem State.modChan_host (s : State) (i : Nat) (f : Channel → Channel) :
    (s.modChan i f).host = s.host := rfl
@[simp] theorem State.modChan_journal (s : State) (i : Nat) (f : Channel → Channel) :
    (s.modChan i f).journal = s.journal := rfl
@[simp] theorem State.modChan_rings (s : State) (i : Nat) (f : Channel → Channel) :
    (s.modChan i f).rings = s.rings := rfl
@[simp] theorem State.modChan_disp (s : State) (i : Nat) (f : Channel → Channel) :
    (s.modChan i f).disp = s.disp := rfl
@[simp] theorem State.modChan_sync (s : State) (i : Nat) (f : Channel → Channel) :
    (s.modChan i f).sync = s.sync := rfl
@[simp] theorem State.modChan_parts (s : State) (i : Nat) (f : Channel → Channel) :
    (s.modChan i f).parts = s.parts := rfl
@[simp] theorem State.modChan_dumpSerial (s : State) (i : Nat) (f : Channel → Channel) :
    (s.modChan i f).dumpSerial = s.dumpSerial := rfl
@[simp] theorem State.modChan_sec (s : State) (i : Nat) (f : Channel → Channel) :
    (s.modChan i f).sec = s.sec := rfl
@[simp] theorem State.modChan_mgmt (s : State) (i : Nat) (f : Channel → Channel) :
    (s.modChan i f).mgmt = s.mgmt := rfl
@[simp] theorem State.modChan_pins (s : State) (i : Nat) (f : Channel → Channel) :
    (s.modChan i f).pins = s.pins := rfl
@[simp] theorem State.modChan_clocks (s : State) (i : Nat) (f : Channel → Channel) :
    (s.modChan i f).clocks = s.clocks := rfl
@[simp] theorem State.modChan_peer (s : State) (i : Nat) (f : Channel → Channel) :
    (s.modChan i f).peer = s.peer := rfl
@[simp] theorem State.modChan_free (s : State) (i : Nat) (f : Channel → Channel) :
    (s.modChan i f).free = s.free := rfl

/-! ### modUnit -/

@[simp] theorem State.modUnit_pending (s : State) (p : Part) (f : DatUnit → DatUnit) :
    (s.modUnit p f).pending = s.pending := rfl
@[simp] theorem State.modUnit_time (s : State) (p : Part) (f : DatUnit → DatUnit) :
    (s.modUnit p f).time = s.time := rfl
@[simp] theorem State.modUnit_pages (s : State) (p : Part) (f : DatUnit → DatUnit) :
    (s.modUnit p f).pages = s.pages := rfl
@[simp] theorem State.modUnit_board (s : State) (p : Part) (f : DatUnit → DatUnit) :
    (s.modUnit p f).board = s.board := rfl
@[simp] theorem State.modUnit_cores (s : State) (p : Part) (f : DatUnit → DatUnit) :
    (s.modUnit p f).cores = s.cores := rfl
@[simp] theorem State.modUnit_host (s : State) (p : Part) (f : DatUnit → DatUnit) :
    (s.modUnit p f).host = s.host := rfl
@[simp] theorem State.modUnit_journal (s : State) (p : Part) (f : DatUnit → DatUnit) :
    (s.modUnit p f).journal = s.journal := rfl
@[simp] theorem State.modUnit_rings (s : State) (p : Part) (f : DatUnit → DatUnit) :
    (s.modUnit p f).rings = s.rings := rfl
@[simp] theorem State.modUnit_disp (s : State) (p : Part) (f : DatUnit → DatUnit) :
    (s.modUnit p f).disp = s.disp := rfl
@[simp] theorem State.modUnit_sync (s : State) (p : Part) (f : DatUnit → DatUnit) :
    (s.modUnit p f).sync = s.sync := rfl
@[simp] theorem State.modUnit_parts (s : State) (p : Part) (f : DatUnit → DatUnit) :
    (s.modUnit p f).parts = s.parts := rfl
@[simp] theorem State.modUnit_dumpSerial (s : State) (p : Part) (f : DatUnit → DatUnit) :
    (s.modUnit p f).dumpSerial = s.dumpSerial := rfl
@[simp] theorem State.modUnit_sec (s : State) (p : Part) (f : DatUnit → DatUnit) :
    (s.modUnit p f).sec = s.sec := rfl
@[simp] theorem State.modUnit_mgmt (s : State) (p : Part) (f : DatUnit → DatUnit) :
    (s.modUnit p f).mgmt = s.mgmt := rfl
@[simp] theorem State.modUnit_pins (s : State) (p : Part) (f : DatUnit → DatUnit) :
    (s.modUnit p f).pins = s.pins := rfl
@[simp] theorem State.modUnit_clocks (s : State) (p : Part) (f : DatUnit → DatUnit) :
    (s.modUnit p f).clocks = s.clocks := rfl
@[simp] theorem State.modUnit_peer (s : State) (p : Part) (f : DatUnit → DatUnit) :
    (s.modUnit p f).peer = s.peer := rfl
@[simp] theorem State.modUnit_free (s : State) (p : Part) (f : DatUnit → DatUnit) :
    (s.modUnit p f).free = s.free := rfl

/-! ### modHost -/

@[simp] theorem State.modHost_pending (s : State) (f : Endpoint → Endpoint) :
    (s.modHost f).pending = s.pending := rfl
@[simp] theorem State.modHost_time (s : State) (f : Endpoint → Endpoint) :
    (s.modHost f).time = s.time := rfl
@[simp] theorem State.modHost_pages (s : State) (f : Endpoint → Endpoint) :
    (s.modHost f).pages = s.pages := rfl
@[simp] theorem State.modHost_board (s : State) (f : Endpoint → Endpoint) :
    (s.modHost f).board = s.board := rfl
@[simp] theorem State.modHost_cores (s : State) (f : Endpoint → Endpoint) :
    (s.modHost f).cores = s.cores := rfl
@[simp] theorem State.modHost_hbm (s : State) (f : Endpoint → Endpoint) :
    (s.modHost f).hbm = s.hbm := rfl
@[simp] theorem State.modHost_journal (s : State) (f : Endpoint → Endpoint) :
    (s.modHost f).journal = s.journal := rfl
@[simp] theorem State.modHost_rings (s : State) (f : Endpoint → Endpoint) :
    (s.modHost f).rings = s.rings := rfl
@[simp] theorem State.modHost_disp (s : State) (f : Endpoint → Endpoint) :
    (s.modHost f).disp = s.disp := rfl
@[simp] theorem State.modHost_sync (s : State) (f : Endpoint → Endpoint) :
    (s.modHost f).sync = s.sync := rfl
@[simp] theorem State.modHost_parts (s : State) (f : Endpoint → Endpoint) :
    (s.modHost f).parts = s.parts := rfl
@[simp] theorem State.modHost_dumpSerial (s : State) (f : Endpoint → Endpoint) :
    (s.modHost f).dumpSerial = s.dumpSerial := rfl
@[simp] theorem State.modHost_sec (s : State) (f : Endpoint → Endpoint) :
    (s.modHost f).sec = s.sec := rfl
@[simp] theorem State.modHost_mgmt (s : State) (f : Endpoint → Endpoint) :
    (s.modHost f).mgmt = s.mgmt := rfl
@[simp] theorem State.modHost_pins (s : State) (f : Endpoint → Endpoint) :
    (s.modHost f).pins = s.pins := rfl
@[simp] theorem State.modHost_clocks (s : State) (f : Endpoint → Endpoint) :
    (s.modHost f).clocks = s.clocks := rfl
@[simp] theorem State.modHost_peer (s : State) (f : Endpoint → Endpoint) :
    (s.modHost f).peer = s.peer := rfl
@[simp] theorem State.modHost_free (s : State) (f : Endpoint → Endpoint) :
    (s.modHost f).free = s.free := rfl
@[simp] theorem State.modHost_host (s : State) (f : Endpoint → Endpoint) :
    (s.modHost f).host = f s.host := rfl

/-! ### modPeer -/

@[simp] theorem State.modPeer_pending (s : State) (f : Peer → Peer) :
    (s.modPeer f).pending = s.pending := rfl
@[simp] theorem State.modPeer_time (s : State) (f : Peer → Peer) :
    (s.modPeer f).time = s.time := rfl
@[simp] theorem State.modPeer_pages (s : State) (f : Peer → Peer) :
    (s.modPeer f).pages = s.pages := rfl
@[simp] theorem State.modPeer_board (s : State) (f : Peer → Peer) :
    (s.modPeer f).board = s.board := rfl
@[simp] theorem State.modPeer_cores (s : State) (f : Peer → Peer) :
    (s.modPeer f).cores = s.cores := rfl
@[simp] theorem State.modPeer_host (s : State) (f : Peer → Peer) :
    (s.modPeer f).host = s.host := rfl
@[simp] theorem State.modPeer_hbm (s : State) (f : Peer → Peer) :
    (s.modPeer f).hbm = s.hbm := rfl
@[simp] theorem State.modPeer_journal (s : State) (f : Peer → Peer) :
    (s.modPeer f).journal = s.journal := rfl
@[simp] theorem State.modPeer_rings (s : State) (f : Peer → Peer) :
    (s.modPeer f).rings = s.rings := rfl
@[simp] theorem State.modPeer_disp (s : State) (f : Peer → Peer) :
    (s.modPeer f).disp = s.disp := rfl
@[simp] theorem State.modPeer_sync (s : State) (f : Peer → Peer) :
    (s.modPeer f).sync = s.sync := rfl
@[simp] theorem State.modPeer_parts (s : State) (f : Peer → Peer) :
    (s.modPeer f).parts = s.parts := rfl
@[simp] theorem State.modPeer_dumpSerial (s : State) (f : Peer → Peer) :
    (s.modPeer f).dumpSerial = s.dumpSerial := rfl
@[simp] theorem State.modPeer_sec (s : State) (f : Peer → Peer) :
    (s.modPeer f).sec = s.sec := rfl
@[simp] theorem State.modPeer_mgmt (s : State) (f : Peer → Peer) :
    (s.modPeer f).mgmt = s.mgmt := rfl
@[simp] theorem State.modPeer_pins (s : State) (f : Peer → Peer) :
    (s.modPeer f).pins = s.pins := rfl
@[simp] theorem State.modPeer_clocks (s : State) (f : Peer → Peer) :
    (s.modPeer f).clocks = s.clocks := rfl
@[simp] theorem State.modPeer_free (s : State) (f : Peer → Peer) :
    (s.modPeer f).free = s.free := rfl
@[simp] theorem State.modPeer_peer (s : State) (f : Peer → Peer) :
    (s.modPeer f).peer = f s.peer := rfl

/-! ### modPort -/

@[simp] theorem State.modPort_pending (s : State) (q : Fin 4) (f : Port → Port) :
    (s.modPort q f).pending = s.pending := rfl
@[simp] theorem State.modPort_time (s : State) (q : Fin 4) (f : Port → Port) :
    (s.modPort q f).time = s.time := rfl
@[simp] theorem State.modPort_pages (s : State) (q : Fin 4) (f : Port → Port) :
    (s.modPort q f).pages = s.pages := rfl
@[simp] theorem State.modPort_board (s : State) (q : Fin 4) (f : Port → Port) :
    (s.modPort q f).board = s.board := rfl
@[simp] theorem State.modPort_cores (s : State) (q : Fin 4) (f : Port → Port) :
    (s.modPort q f).cores = s.cores := rfl
@[simp] theorem State.modPort_host (s : State) (q : Fin 4) (f : Port → Port) :
    (s.modPort q f).host = s.host := rfl
@[simp] theorem State.modPort_hbm (s : State) (q : Fin 4) (f : Port → Port) :
    (s.modPort q f).hbm = s.hbm := rfl
@[simp] theorem State.modPort_journal (s : State) (q : Fin 4) (f : Port → Port) :
    (s.modPort q f).journal = s.journal := rfl
@[simp] theorem State.modPort_rings (s : State) (q : Fin 4) (f : Port → Port) :
    (s.modPort q f).rings = s.rings := rfl
@[simp] theorem State.modPort_disp (s : State) (q : Fin 4) (f : Port → Port) :
    (s.modPort q f).disp = s.disp := rfl
@[simp] theorem State.modPort_sync (s : State) (q : Fin 4) (f : Port → Port) :
    (s.modPort q f).sync = s.sync := rfl
@[simp] theorem State.modPort_parts (s : State) (q : Fin 4) (f : Port → Port) :
    (s.modPort q f).parts = s.parts := rfl
@[simp] theorem State.modPort_dumpSerial (s : State) (q : Fin 4) (f : Port → Port) :
    (s.modPort q f).dumpSerial = s.dumpSerial := rfl
@[simp] theorem State.modPort_sec (s : State) (q : Fin 4) (f : Port → Port) :
    (s.modPort q f).sec = s.sec := rfl
@[simp] theorem State.modPort_mgmt (s : State) (q : Fin 4) (f : Port → Port) :
    (s.modPort q f).mgmt = s.mgmt := rfl
@[simp] theorem State.modPort_pins (s : State) (q : Fin 4) (f : Port → Port) :
    (s.modPort q f).pins = s.pins := rfl
@[simp] theorem State.modPort_clocks (s : State) (q : Fin 4) (f : Port → Port) :
    (s.modPort q f).clocks = s.clocks := rfl
@[simp] theorem State.modPort_free (s : State) (q : Fin 4) (f : Port → Port) :
    (s.modPort q f).free = s.free := rfl

/-! ### modPq -/

@[simp] theorem State.modPq_pending (s : State) (q : Func) (f : PeerQueue → PeerQueue) :
    (s.modPq q f).pending = s.pending := rfl
@[simp] theorem State.modPq_time (s : State) (q : Func) (f : PeerQueue → PeerQueue) :
    (s.modPq q f).time = s.time := rfl
@[simp] theorem State.modPq_pages (s : State) (q : Func) (f : PeerQueue → PeerQueue) :
    (s.modPq q f).pages = s.pages := rfl
@[simp] theorem State.modPq_board (s : State) (q : Func) (f : PeerQueue → PeerQueue) :
    (s.modPq q f).board = s.board := rfl
@[simp] theorem State.modPq_cores (s : State) (q : Func) (f : PeerQueue → PeerQueue) :
    (s.modPq q f).cores = s.cores := rfl
@[simp] theorem State.modPq_host (s : State) (q : Func) (f : PeerQueue → PeerQueue) :
    (s.modPq q f).host = s.host := rfl
@[simp] theorem State.modPq_hbm (s : State) (q : Func) (f : PeerQueue → PeerQueue) :
    (s.modPq q f).hbm = s.hbm := rfl
@[simp] theorem State.modPq_journal (s : State) (q : Func) (f : PeerQueue → PeerQueue) :
    (s.modPq q f).journal = s.journal := rfl
@[simp] theorem State.modPq_rings (s : State) (q : Func) (f : PeerQueue → PeerQueue) :
    (s.modPq q f).rings = s.rings := rfl
@[simp] theorem State.modPq_disp (s : State) (q : Func) (f : PeerQueue → PeerQueue) :
    (s.modPq q f).disp = s.disp := rfl
@[simp] theorem State.modPq_sync (s : State) (q : Func) (f : PeerQueue → PeerQueue) :
    (s.modPq q f).sync = s.sync := rfl
@[simp] theorem State.modPq_parts (s : State) (q : Func) (f : PeerQueue → PeerQueue) :
    (s.modPq q f).parts = s.parts := rfl
@[simp] theorem State.modPq_dumpSerial (s : State) (q : Func) (f : PeerQueue → PeerQueue) :
    (s.modPq q f).dumpSerial = s.dumpSerial := rfl
@[simp] theorem State.modPq_sec (s : State) (q : Func) (f : PeerQueue → PeerQueue) :
    (s.modPq q f).sec = s.sec := rfl
@[simp] theorem State.modPq_mgmt (s : State) (q : Func) (f : PeerQueue → PeerQueue) :
    (s.modPq q f).mgmt = s.mgmt := rfl
@[simp] theorem State.modPq_pins (s : State) (q : Func) (f : PeerQueue → PeerQueue) :
    (s.modPq q f).pins = s.pins := rfl
@[simp] theorem State.modPq_clocks (s : State) (q : Func) (f : PeerQueue → PeerQueue) :
    (s.modPq q f).clocks = s.clocks := rfl
@[simp] theorem State.modPq_free (s : State) (q : Func) (f : PeerQueue → PeerQueue) :
    (s.modPq q f).free = s.free := rfl

/-! ### modPart -/

@[simp] theorem State.modPart_pending (s : State) (p : Part) (f : PartState → PartState) :
    (s.modPart p f).pending = s.pending := rfl
@[simp] theorem State.modPart_time (s : State) (p : Part) (f : PartState → PartState) :
    (s.modPart p f).time = s.time := rfl
@[simp] theorem State.modPart_pages (s : State) (p : Part) (f : PartState → PartState) :
    (s.modPart p f).pages = s.pages := rfl
@[simp] theorem State.modPart_board (s : State) (p : Part) (f : PartState → PartState) :
    (s.modPart p f).board = s.board := rfl
@[simp] theorem State.modPart_cores (s : State) (p : Part) (f : PartState → PartState) :
    (s.modPart p f).cores = s.cores := rfl
@[simp] theorem State.modPart_host (s : State) (p : Part) (f : PartState → PartState) :
    (s.modPart p f).host = s.host := rfl
@[simp] theorem State.modPart_hbm (s : State) (p : Part) (f : PartState → PartState) :
    (s.modPart p f).hbm = s.hbm := rfl
@[simp] theorem State.modPart_journal (s : State) (p : Part) (f : PartState → PartState) :
    (s.modPart p f).journal = s.journal := rfl
@[simp] theorem State.modPart_rings (s : State) (p : Part) (f : PartState → PartState) :
    (s.modPart p f).rings = s.rings := rfl
@[simp] theorem State.modPart_disp (s : State) (p : Part) (f : PartState → PartState) :
    (s.modPart p f).disp = s.disp := rfl
@[simp] theorem State.modPart_sync (s : State) (p : Part) (f : PartState → PartState) :
    (s.modPart p f).sync = s.sync := rfl
@[simp] theorem State.modPart_dumpSerial (s : State) (p : Part) (f : PartState → PartState) :
    (s.modPart p f).dumpSerial = s.dumpSerial := rfl
@[simp] theorem State.modPart_sec (s : State) (p : Part) (f : PartState → PartState) :
    (s.modPart p f).sec = s.sec := rfl
@[simp] theorem State.modPart_mgmt (s : State) (p : Part) (f : PartState → PartState) :
    (s.modPart p f).mgmt = s.mgmt := rfl
@[simp] theorem State.modPart_pins (s : State) (p : Part) (f : PartState → PartState) :
    (s.modPart p f).pins = s.pins := rfl
@[simp] theorem State.modPart_clocks (s : State) (p : Part) (f : PartState → PartState) :
    (s.modPart p f).clocks = s.clocks := rfl
@[simp] theorem State.modPart_peer (s : State) (p : Part) (f : PartState → PartState) :
    (s.modPart p f).peer = s.peer := rfl
@[simp] theorem State.modPart_free (s : State) (p : Part) (f : PartState → PartState) :
    (s.modPart p f).free = s.free := rfl

/-! ### modSec -/

@[simp] theorem State.modSec_pending (s : State) (f : Sec → Sec) :
    (s.modSec f).pending = s.pending := rfl
@[simp] theorem State.modSec_time (s : State) (f : Sec → Sec) :
    (s.modSec f).time = s.time := rfl
@[simp] theorem State.modSec_pages (s : State) (f : Sec → Sec) :
    (s.modSec f).pages = s.pages := rfl
@[simp] theorem State.modSec_board (s : State) (f : Sec → Sec) :
    (s.modSec f).board = s.board := rfl
@[simp] theorem State.modSec_cores (s : State) (f : Sec → Sec) :
    (s.modSec f).cores = s.cores := rfl
@[simp] theorem State.modSec_host (s : State) (f : Sec → Sec) :
    (s.modSec f).host = s.host := rfl
@[simp] theorem State.modSec_hbm (s : State) (f : Sec → Sec) :
    (s.modSec f).hbm = s.hbm := rfl
@[simp] theorem State.modSec_journal (s : State) (f : Sec → Sec) :
    (s.modSec f).journal = s.journal := rfl
@[simp] theorem State.modSec_rings (s : State) (f : Sec → Sec) :
    (s.modSec f).rings = s.rings := rfl
@[simp] theorem State.modSec_disp (s : State) (f : Sec → Sec) :
    (s.modSec f).disp = s.disp := rfl
@[simp] theorem State.modSec_sync (s : State) (f : Sec → Sec) :
    (s.modSec f).sync = s.sync := rfl
@[simp] theorem State.modSec_parts (s : State) (f : Sec → Sec) :
    (s.modSec f).parts = s.parts := rfl
@[simp] theorem State.modSec_dumpSerial (s : State) (f : Sec → Sec) :
    (s.modSec f).dumpSerial = s.dumpSerial := rfl
@[simp] theorem State.modSec_mgmt (s : State) (f : Sec → Sec) :
    (s.modSec f).mgmt = s.mgmt := rfl
@[simp] theorem State.modSec_pins (s : State) (f : Sec → Sec) :
    (s.modSec f).pins = s.pins := rfl
@[simp] theorem State.modSec_clocks (s : State) (f : Sec → Sec) :
    (s.modSec f).clocks = s.clocks := rfl
@[simp] theorem State.modSec_peer (s : State) (f : Sec → Sec) :
    (s.modSec f).peer = s.peer := rfl
@[simp] theorem State.modSec_free (s : State) (f : Sec → Sec) :
    (s.modSec f).free = s.free := rfl
@[simp] theorem State.modSec_sec (s : State) (f : Sec → Sec) :
    (s.modSec f).sec = f s.sec := rfl

/-! ### modSync -/

@[simp] theorem State.modSync_pending (s : State) (f : SyncBlock → SyncBlock) :
    (s.modSync f).pending = s.pending := rfl
@[simp] theorem State.modSync_time (s : State) (f : SyncBlock → SyncBlock) :
    (s.modSync f).time = s.time := rfl
@[simp] theorem State.modSync_pages (s : State) (f : SyncBlock → SyncBlock) :
    (s.modSync f).pages = s.pages := rfl
@[simp] theorem State.modSync_board (s : State) (f : SyncBlock → SyncBlock) :
    (s.modSync f).board = s.board := rfl
@[simp] theorem State.modSync_cores (s : State) (f : SyncBlock → SyncBlock) :
    (s.modSync f).cores = s.cores := rfl
@[simp] theorem State.modSync_host (s : State) (f : SyncBlock → SyncBlock) :
    (s.modSync f).host = s.host := rfl
@[simp] theorem State.modSync_hbm (s : State) (f : SyncBlock → SyncBlock) :
    (s.modSync f).hbm = s.hbm := rfl
@[simp] theorem State.modSync_journal (s : State) (f : SyncBlock → SyncBlock) :
    (s.modSync f).journal = s.journal := rfl
@[simp] theorem State.modSync_rings (s : State) (f : SyncBlock → SyncBlock) :
    (s.modSync f).rings = s.rings := rfl
@[simp] theorem State.modSync_disp (s : State) (f : SyncBlock → SyncBlock) :
    (s.modSync f).disp = s.disp := rfl
@[simp] theorem State.modSync_parts (s : State) (f : SyncBlock → SyncBlock) :
    (s.modSync f).parts = s.parts := rfl
@[simp] theorem State.modSync_dumpSerial (s : State) (f : SyncBlock → SyncBlock) :
    (s.modSync f).dumpSerial = s.dumpSerial := rfl
@[simp] theorem State.modSync_sec (s : State) (f : SyncBlock → SyncBlock) :
    (s.modSync f).sec = s.sec := rfl
@[simp] theorem State.modSync_mgmt (s : State) (f : SyncBlock → SyncBlock) :
    (s.modSync f).mgmt = s.mgmt := rfl
@[simp] theorem State.modSync_pins (s : State) (f : SyncBlock → SyncBlock) :
    (s.modSync f).pins = s.pins := rfl
@[simp] theorem State.modSync_clocks (s : State) (f : SyncBlock → SyncBlock) :
    (s.modSync f).clocks = s.clocks := rfl
@[simp] theorem State.modSync_peer (s : State) (f : SyncBlock → SyncBlock) :
    (s.modSync f).peer = s.peer := rfl
@[simp] theorem State.modSync_free (s : State) (f : SyncBlock → SyncBlock) :
    (s.modSync f).free = s.free := rfl
@[simp] theorem State.modSync_sync (s : State) (f : SyncBlock → SyncBlock) :
    (s.modSync f).sync = f s.sync := rfl

/-! ### modMgmt -/

@[simp] theorem State.modMgmt_pending (s : State) (f : Mgmt → Mgmt) :
    (s.modMgmt f).pending = s.pending := rfl
@[simp] theorem State.modMgmt_time (s : State) (f : Mgmt → Mgmt) :
    (s.modMgmt f).time = s.time := rfl
@[simp] theorem State.modMgmt_pages (s : State) (f : Mgmt → Mgmt) :
    (s.modMgmt f).pages = s.pages := rfl
@[simp] theorem State.modMgmt_board (s : State) (f : Mgmt → Mgmt) :
    (s.modMgmt f).board = s.board := rfl
@[simp] theorem State.modMgmt_cores (s : State) (f : Mgmt → Mgmt) :
    (s.modMgmt f).cores = s.cores := rfl
@[simp] theorem State.modMgmt_host (s : State) (f : Mgmt → Mgmt) :
    (s.modMgmt f).host = s.host := rfl
@[simp] theorem State.modMgmt_hbm (s : State) (f : Mgmt → Mgmt) :
    (s.modMgmt f).hbm = s.hbm := rfl
@[simp] theorem State.modMgmt_journal (s : State) (f : Mgmt → Mgmt) :
    (s.modMgmt f).journal = s.journal := rfl
@[simp] theorem State.modMgmt_rings (s : State) (f : Mgmt → Mgmt) :
    (s.modMgmt f).rings = s.rings := rfl
@[simp] theorem State.modMgmt_disp (s : State) (f : Mgmt → Mgmt) :
    (s.modMgmt f).disp = s.disp := rfl
@[simp] theorem State.modMgmt_sync (s : State) (f : Mgmt → Mgmt) :
    (s.modMgmt f).sync = s.sync := rfl
@[simp] theorem State.modMgmt_parts (s : State) (f : Mgmt → Mgmt) :
    (s.modMgmt f).parts = s.parts := rfl
@[simp] theorem State.modMgmt_dumpSerial (s : State) (f : Mgmt → Mgmt) :
    (s.modMgmt f).dumpSerial = s.dumpSerial := rfl
@[simp] theorem State.modMgmt_sec (s : State) (f : Mgmt → Mgmt) :
    (s.modMgmt f).sec = s.sec := rfl
@[simp] theorem State.modMgmt_pins (s : State) (f : Mgmt → Mgmt) :
    (s.modMgmt f).pins = s.pins := rfl
@[simp] theorem State.modMgmt_clocks (s : State) (f : Mgmt → Mgmt) :
    (s.modMgmt f).clocks = s.clocks := rfl
@[simp] theorem State.modMgmt_peer (s : State) (f : Mgmt → Mgmt) :
    (s.modMgmt f).peer = s.peer := rfl
@[simp] theorem State.modMgmt_free (s : State) (f : Mgmt → Mgmt) :
    (s.modMgmt f).free = s.free := rfl
@[simp] theorem State.modMgmt_mgmt (s : State) (f : Mgmt → Mgmt) :
    (s.modMgmt f).mgmt = f s.mgmt := rfl

/-! ### modFlash -/

@[simp] theorem State.modFlash_pending (s : State) (f : Flash → Flash) :
    (s.modFlash f).pending = s.pending := rfl
@[simp] theorem State.modFlash_time (s : State) (f : Flash → Flash) :
    (s.modFlash f).time = s.time := rfl
@[simp] theorem State.modFlash_pages (s : State) (f : Flash → Flash) :
    (s.modFlash f).pages = s.pages := rfl
@[simp] theorem State.modFlash_board (s : State) (f : Flash → Flash) :
    (s.modFlash f).board = s.board := rfl
@[simp] theorem State.modFlash_cores (s : State) (f : Flash → Flash) :
    (s.modFlash f).cores = s.cores := rfl
@[simp] theorem State.modFlash_host (s : State) (f : Flash → Flash) :
    (s.modFlash f).host = s.host := rfl
@[simp] theorem State.modFlash_hbm (s : State) (f : Flash → Flash) :
    (s.modFlash f).hbm = s.hbm := rfl
@[simp] theorem State.modFlash_journal (s : State) (f : Flash → Flash) :
    (s.modFlash f).journal = s.journal := rfl
@[simp] theorem State.modFlash_rings (s : State) (f : Flash → Flash) :
    (s.modFlash f).rings = s.rings := rfl
@[simp] theorem State.modFlash_disp (s : State) (f : Flash → Flash) :
    (s.modFlash f).disp = s.disp := rfl
@[simp] theorem State.modFlash_sync (s : State) (f : Flash → Flash) :
    (s.modFlash f).sync = s.sync := rfl
@[simp] theorem State.modFlash_parts (s : State) (f : Flash → Flash) :
    (s.modFlash f).parts = s.parts := rfl
@[simp] theorem State.modFlash_dumpSerial (s : State) (f : Flash → Flash) :
    (s.modFlash f).dumpSerial = s.dumpSerial := rfl
@[simp] theorem State.modFlash_sec (s : State) (f : Flash → Flash) :
    (s.modFlash f).sec = s.sec := rfl
@[simp] theorem State.modFlash_pins (s : State) (f : Flash → Flash) :
    (s.modFlash f).pins = s.pins := rfl
@[simp] theorem State.modFlash_clocks (s : State) (f : Flash → Flash) :
    (s.modFlash f).clocks = s.clocks := rfl
@[simp] theorem State.modFlash_peer (s : State) (f : Flash → Flash) :
    (s.modFlash f).peer = s.peer := rfl
@[simp] theorem State.modFlash_free (s : State) (f : Flash → Flash) :
    (s.modFlash f).free = s.free := rfl

/-! ### modPins -/

@[simp] theorem State.modPins_pending (s : State) (f : Pins → Pins) :
    (s.modPins f).pending = s.pending := rfl
@[simp] theorem State.modPins_time (s : State) (f : Pins → Pins) :
    (s.modPins f).time = s.time := rfl
@[simp] theorem State.modPins_pages (s : State) (f : Pins → Pins) :
    (s.modPins f).pages = s.pages := rfl
@[simp] theorem State.modPins_board (s : State) (f : Pins → Pins) :
    (s.modPins f).board = s.board := rfl
@[simp] theorem State.modPins_cores (s : State) (f : Pins → Pins) :
    (s.modPins f).cores = s.cores := rfl
@[simp] theorem State.modPins_host (s : State) (f : Pins → Pins) :
    (s.modPins f).host = s.host := rfl
@[simp] theorem State.modPins_hbm (s : State) (f : Pins → Pins) :
    (s.modPins f).hbm = s.hbm := rfl
@[simp] theorem State.modPins_journal (s : State) (f : Pins → Pins) :
    (s.modPins f).journal = s.journal := rfl
@[simp] theorem State.modPins_rings (s : State) (f : Pins → Pins) :
    (s.modPins f).rings = s.rings := rfl
@[simp] theorem State.modPins_disp (s : State) (f : Pins → Pins) :
    (s.modPins f).disp = s.disp := rfl
@[simp] theorem State.modPins_sync (s : State) (f : Pins → Pins) :
    (s.modPins f).sync = s.sync := rfl
@[simp] theorem State.modPins_parts (s : State) (f : Pins → Pins) :
    (s.modPins f).parts = s.parts := rfl
@[simp] theorem State.modPins_dumpSerial (s : State) (f : Pins → Pins) :
    (s.modPins f).dumpSerial = s.dumpSerial := rfl
@[simp] theorem State.modPins_sec (s : State) (f : Pins → Pins) :
    (s.modPins f).sec = s.sec := rfl
@[simp] theorem State.modPins_mgmt (s : State) (f : Pins → Pins) :
    (s.modPins f).mgmt = s.mgmt := rfl
@[simp] theorem State.modPins_clocks (s : State) (f : Pins → Pins) :
    (s.modPins f).clocks = s.clocks := rfl
@[simp] theorem State.modPins_peer (s : State) (f : Pins → Pins) :
    (s.modPins f).peer = s.peer := rfl
@[simp] theorem State.modPins_free (s : State) (f : Pins → Pins) :
    (s.modPins f).free = s.free := rfl
@[simp] theorem State.modPins_pins (s : State) (f : Pins → Pins) :
    (s.modPins f).pins = f s.pins := rfl

/-! ### modCh -/

@[simp] theorem State.modCh_pending (s : State) (t : Tile) (c : Fin 8) (f : DmaCh → DmaCh) :
    (s.modCh t c f).pending = s.pending := rfl
@[simp] theorem State.modCh_time (s : State) (t : Tile) (c : Fin 8) (f : DmaCh → DmaCh) :
    (s.modCh t c f).time = s.time := rfl
@[simp] theorem State.modCh_pages (s : State) (t : Tile) (c : Fin 8) (f : DmaCh → DmaCh) :
    (s.modCh t c f).pages = s.pages := rfl
@[simp] theorem State.modCh_board (s : State) (t : Tile) (c : Fin 8) (f : DmaCh → DmaCh) :
    (s.modCh t c f).board = s.board := rfl
@[simp] theorem State.modCh_host (s : State) (t : Tile) (c : Fin 8) (f : DmaCh → DmaCh) :
    (s.modCh t c f).host = s.host := rfl
@[simp] theorem State.modCh_hbm (s : State) (t : Tile) (c : Fin 8) (f : DmaCh → DmaCh) :
    (s.modCh t c f).hbm = s.hbm := rfl
@[simp] theorem State.modCh_journal (s : State) (t : Tile) (c : Fin 8) (f : DmaCh → DmaCh) :
    (s.modCh t c f).journal = s.journal := rfl
@[simp] theorem State.modCh_rings (s : State) (t : Tile) (c : Fin 8) (f : DmaCh → DmaCh) :
    (s.modCh t c f).rings = s.rings := rfl
@[simp] theorem State.modCh_disp (s : State) (t : Tile) (c : Fin 8) (f : DmaCh → DmaCh) :
    (s.modCh t c f).disp = s.disp := rfl
@[simp] theorem State.modCh_sync (s : State) (t : Tile) (c : Fin 8) (f : DmaCh → DmaCh) :
    (s.modCh t c f).sync = s.sync := rfl
@[simp] theorem State.modCh_parts (s : State) (t : Tile) (c : Fin 8) (f : DmaCh → DmaCh) :
    (s.modCh t c f).parts = s.parts := rfl
@[simp] theorem State.modCh_dumpSerial (s : State) (t : Tile) (c : Fin 8) (f : DmaCh → DmaCh) :
    (s.modCh t c f).dumpSerial = s.dumpSerial := rfl
@[simp] theorem State.modCh_sec (s : State) (t : Tile) (c : Fin 8) (f : DmaCh → DmaCh) :
    (s.modCh t c f).sec = s.sec := rfl
@[simp] theorem State.modCh_mgmt (s : State) (t : Tile) (c : Fin 8) (f : DmaCh → DmaCh) :
    (s.modCh t c f).mgmt = s.mgmt := rfl
@[simp] theorem State.modCh_pins (s : State) (t : Tile) (c : Fin 8) (f : DmaCh → DmaCh) :
    (s.modCh t c f).pins = s.pins := rfl
@[simp] theorem State.modCh_clocks (s : State) (t : Tile) (c : Fin 8) (f : DmaCh → DmaCh) :
    (s.modCh t c f).clocks = s.clocks := rfl
@[simp] theorem State.modCh_peer (s : State) (t : Tile) (c : Fin 8) (f : DmaCh → DmaCh) :
    (s.modCh t c f).peer = s.peer := rfl
@[simp] theorem State.modCh_free (s : State) (t : Tile) (c : Fin 8) (f : DmaCh → DmaCh) :
    (s.modCh t c f).free = s.free := rfl

/-! ### modMtx -/

@[simp] theorem State.modMtx_pending (s : State) (t : Tile) (f : Mtx → Mtx) :
    (s.modMtx t f).pending = s.pending := rfl
@[simp] theorem State.modMtx_time (s : State) (t : Tile) (f : Mtx → Mtx) :
    (s.modMtx t f).time = s.time := rfl
@[simp] theorem State.modMtx_pages (s : State) (t : Tile) (f : Mtx → Mtx) :
    (s.modMtx t f).pages = s.pages := rfl
@[simp] theorem State.modMtx_board (s : State) (t : Tile) (f : Mtx → Mtx) :
    (s.modMtx t f).board = s.board := rfl
@[simp] theorem State.modMtx_host (s : State) (t : Tile) (f : Mtx → Mtx) :
    (s.modMtx t f).host = s.host := rfl
@[simp] theorem State.modMtx_hbm (s : State) (t : Tile) (f : Mtx → Mtx) :
    (s.modMtx t f).hbm = s.hbm := rfl
@[simp] theorem State.modMtx_journal (s : State) (t : Tile) (f : Mtx → Mtx) :
    (s.modMtx t f).journal = s.journal := rfl
@[simp] theorem State.modMtx_rings (s : State) (t : Tile) (f : Mtx → Mtx) :
    (s.modMtx t f).rings = s.rings := rfl
@[simp] theorem State.modMtx_disp (s : State) (t : Tile) (f : Mtx → Mtx) :
    (s.modMtx t f).disp = s.disp := rfl
@[simp] theorem State.modMtx_sync (s : State) (t : Tile) (f : Mtx → Mtx) :
    (s.modMtx t f).sync = s.sync := rfl
@[simp] theorem State.modMtx_parts (s : State) (t : Tile) (f : Mtx → Mtx) :
    (s.modMtx t f).parts = s.parts := rfl
@[simp] theorem State.modMtx_dumpSerial (s : State) (t : Tile) (f : Mtx → Mtx) :
    (s.modMtx t f).dumpSerial = s.dumpSerial := rfl
@[simp] theorem State.modMtx_sec (s : State) (t : Tile) (f : Mtx → Mtx) :
    (s.modMtx t f).sec = s.sec := rfl
@[simp] theorem State.modMtx_mgmt (s : State) (t : Tile) (f : Mtx → Mtx) :
    (s.modMtx t f).mgmt = s.mgmt := rfl
@[simp] theorem State.modMtx_pins (s : State) (t : Tile) (f : Mtx → Mtx) :
    (s.modMtx t f).pins = s.pins := rfl
@[simp] theorem State.modMtx_clocks (s : State) (t : Tile) (f : Mtx → Mtx) :
    (s.modMtx t f).clocks = s.clocks := rfl
@[simp] theorem State.modMtx_peer (s : State) (t : Tile) (f : Mtx → Mtx) :
    (s.modMtx t f).peer = s.peer := rfl
@[simp] theorem State.modMtx_free (s : State) (t : Tile) (f : Mtx → Mtx) :
    (s.modMtx t f).free = s.free := rfl

/-! ### modStr -/

@[simp] theorem State.modStr_pending (s : State) (t : Tile) (f : StripeEngine → StripeEngine) :
    (s.modStr t f).pending = s.pending := rfl
@[simp] theorem State.modStr_time (s : State) (t : Tile) (f : StripeEngine → StripeEngine) :
    (s.modStr t f).time = s.time := rfl
@[simp] theorem State.modStr_pages (s : State) (t : Tile) (f : StripeEngine → StripeEngine) :
    (s.modStr t f).pages = s.pages := rfl
@[simp] theorem State.modStr_board (s : State) (t : Tile) (f : StripeEngine → StripeEngine) :
    (s.modStr t f).board = s.board := rfl
@[simp] theorem State.modStr_host (s : State) (t : Tile) (f : StripeEngine → StripeEngine) :
    (s.modStr t f).host = s.host := rfl
@[simp] theorem State.modStr_hbm (s : State) (t : Tile) (f : StripeEngine → StripeEngine) :
    (s.modStr t f).hbm = s.hbm := rfl
@[simp] theorem State.modStr_journal (s : State) (t : Tile) (f : StripeEngine → StripeEngine) :
    (s.modStr t f).journal = s.journal := rfl
@[simp] theorem State.modStr_rings (s : State) (t : Tile) (f : StripeEngine → StripeEngine) :
    (s.modStr t f).rings = s.rings := rfl
@[simp] theorem State.modStr_disp (s : State) (t : Tile) (f : StripeEngine → StripeEngine) :
    (s.modStr t f).disp = s.disp := rfl
@[simp] theorem State.modStr_sync (s : State) (t : Tile) (f : StripeEngine → StripeEngine) :
    (s.modStr t f).sync = s.sync := rfl
@[simp] theorem State.modStr_parts (s : State) (t : Tile) (f : StripeEngine → StripeEngine) :
    (s.modStr t f).parts = s.parts := rfl
@[simp] theorem State.modStr_dumpSerial (s : State) (t : Tile) (f : StripeEngine → StripeEngine) :
    (s.modStr t f).dumpSerial = s.dumpSerial := rfl
@[simp] theorem State.modStr_sec (s : State) (t : Tile) (f : StripeEngine → StripeEngine) :
    (s.modStr t f).sec = s.sec := rfl
@[simp] theorem State.modStr_mgmt (s : State) (t : Tile) (f : StripeEngine → StripeEngine) :
    (s.modStr t f).mgmt = s.mgmt := rfl
@[simp] theorem State.modStr_pins (s : State) (t : Tile) (f : StripeEngine → StripeEngine) :
    (s.modStr t f).pins = s.pins := rfl
@[simp] theorem State.modStr_clocks (s : State) (t : Tile) (f : StripeEngine → StripeEngine) :
    (s.modStr t f).clocks = s.clocks := rfl
@[simp] theorem State.modStr_peer (s : State) (t : Tile) (f : StripeEngine → StripeEngine) :
    (s.modStr t f).peer = s.peer := rfl
@[simp] theorem State.modStr_free (s : State) (t : Tile) (f : StripeEngine → StripeEngine) :
    (s.modStr t f).free = s.free := rfl

/-! ### sendMesh -/

@[simp] theorem State.sendMesh_pending (s : State) (r : MeshReq) :
    (s.sendMesh r).pending = s.pending := rfl
@[simp] theorem State.sendMesh_time (s : State) (r : MeshReq) :
    (s.sendMesh r).time = s.time := rfl
@[simp] theorem State.sendMesh_pages (s : State) (r : MeshReq) :
    (s.sendMesh r).pages = s.pages := rfl
@[simp] theorem State.sendMesh_cores (s : State) (r : MeshReq) :
    (s.sendMesh r).cores = s.cores := rfl
@[simp] theorem State.sendMesh_host (s : State) (r : MeshReq) :
    (s.sendMesh r).host = s.host := rfl
@[simp] theorem State.sendMesh_hbm (s : State) (r : MeshReq) :
    (s.sendMesh r).hbm = s.hbm := rfl
@[simp] theorem State.sendMesh_journal (s : State) (r : MeshReq) :
    (s.sendMesh r).journal = s.journal := rfl
@[simp] theorem State.sendMesh_rings (s : State) (r : MeshReq) :
    (s.sendMesh r).rings = s.rings := rfl
@[simp] theorem State.sendMesh_disp (s : State) (r : MeshReq) :
    (s.sendMesh r).disp = s.disp := rfl
@[simp] theorem State.sendMesh_sync (s : State) (r : MeshReq) :
    (s.sendMesh r).sync = s.sync := rfl
@[simp] theorem State.sendMesh_parts (s : State) (r : MeshReq) :
    (s.sendMesh r).parts = s.parts := rfl
@[simp] theorem State.sendMesh_dumpSerial (s : State) (r : MeshReq) :
    (s.sendMesh r).dumpSerial = s.dumpSerial := rfl
@[simp] theorem State.sendMesh_sec (s : State) (r : MeshReq) :
    (s.sendMesh r).sec = s.sec := rfl
@[simp] theorem State.sendMesh_mgmt (s : State) (r : MeshReq) :
    (s.sendMesh r).mgmt = s.mgmt := rfl
@[simp] theorem State.sendMesh_pins (s : State) (r : MeshReq) :
    (s.sendMesh r).pins = s.pins := rfl
@[simp] theorem State.sendMesh_clocks (s : State) (r : MeshReq) :
    (s.sendMesh r).clocks = s.clocks := rfl
@[simp] theorem State.sendMesh_peer (s : State) (r : MeshReq) :
    (s.sendMesh r).peer = s.peer := rfl
@[simp] theorem State.sendMesh_free (s : State) (r : MeshReq) :
    (s.sendMesh r).free = s.free := rfl

/-! ### sendHbm -/

@[simp] theorem State.sendHbm_pending (s : State) (r : HbmReq) :
    (s.sendHbm r).pending = s.pending := rfl
@[simp] theorem State.sendHbm_time (s : State) (r : HbmReq) :
    (s.sendHbm r).time = s.time := rfl
@[simp] theorem State.sendHbm_pages (s : State) (r : HbmReq) :
    (s.sendHbm r).pages = s.pages := rfl
@[simp] theorem State.sendHbm_board (s : State) (r : HbmReq) :
    (s.sendHbm r).board = s.board := rfl
@[simp] theorem State.sendHbm_cores (s : State) (r : HbmReq) :
    (s.sendHbm r).cores = s.cores := rfl
@[simp] theorem State.sendHbm_host (s : State) (r : HbmReq) :
    (s.sendHbm r).host = s.host := rfl
@[simp] theorem State.sendHbm_journal (s : State) (r : HbmReq) :
    (s.sendHbm r).journal = s.journal := rfl
@[simp] theorem State.sendHbm_rings (s : State) (r : HbmReq) :
    (s.sendHbm r).rings = s.rings := rfl
@[simp] theorem State.sendHbm_disp (s : State) (r : HbmReq) :
    (s.sendHbm r).disp = s.disp := rfl
@[simp] theorem State.sendHbm_sync (s : State) (r : HbmReq) :
    (s.sendHbm r).sync = s.sync := rfl
@[simp] theorem State.sendHbm_parts (s : State) (r : HbmReq) :
    (s.sendHbm r).parts = s.parts := rfl
@[simp] theorem State.sendHbm_dumpSerial (s : State) (r : HbmReq) :
    (s.sendHbm r).dumpSerial = s.dumpSerial := rfl
@[simp] theorem State.sendHbm_sec (s : State) (r : HbmReq) :
    (s.sendHbm r).sec = s.sec := rfl
@[simp] theorem State.sendHbm_mgmt (s : State) (r : HbmReq) :
    (s.sendHbm r).mgmt = s.mgmt := rfl
@[simp] theorem State.sendHbm_pins (s : State) (r : HbmReq) :
    (s.sendHbm r).pins = s.pins := rfl
@[simp] theorem State.sendHbm_clocks (s : State) (r : HbmReq) :
    (s.sendHbm r).clocks = s.clocks := rfl
@[simp] theorem State.sendHbm_peer (s : State) (r : HbmReq) :
    (s.sendHbm r).peer = s.peer := rfl
@[simp] theorem State.sendHbm_free (s : State) (r : HbmReq) :
    (s.sendHbm r).free = s.free := rfl

/-! ### Registers held in vectors -/

theorem vector_get_set_same {α : Type} {n : Nat} (v : Vector α n) (i : Fin n) (x : α) :
    (v.set i.val x i.isLt).get i = x := by
  show (v.set i.val x i.isLt)[i.val] = x
  simp
theorem vector_get_set_ne {α : Type} {n : Nat} (v : Vector α n) {i j : Fin n} (x : α) (h : j ≠ i) :
    (v.set i.val x i.isLt).get j = v.get j := by
  show (v.set i.val x i.isLt)[j.val] = v[j.val]
  have h' : i.val ≠ j.val := fun e => h (Fin.ext e.symm)
  simp [h']

/-! ### The fields that the updates name -/

/-- Without a correction of its rate, time moves on by one nanosecond. -/
theorem State.tick_time (s : State) (h : s.peer.rate = 0) (lo : -10 ^ 6 < s.peer.drift) (hi : s.peer.drift < 10 ^ 6) :
    s.tick.time = s.time + 1 := by
  have a : ¬ (1000000 : Int) ≤ s.peer.drift := by omega
  have b : ¬ s.peer.drift ≤ -1000000 := by omega
  simp [State.tick, h, a, b]

@[simp] theorem Core.modCtx_same (k : Core) (c : CtxId) (f : Ctx → Ctx) :
    (k.modCtx c f).ctxs.get c = f (k.ctxs.get c) := by
  simp [Core.modCtx, vector_get_set_same]

theorem Core.modCtx_ne (k : Core) {c d : CtxId} (f : Ctx → Ctx) (h : d ≠ c) :
    (k.modCtx c f).ctxs.get d = k.ctxs.get d := by
  exact vector_get_set_ne _ _ h

@[simp] theorem State.core_modCore_same (s : State) (t : Tile) (f : Core → Core) :
    (s.modCore t f).core t = f (s.core t) := by
  simp [State.modCore, State.core, vector_get_set_same]

theorem State.core_modCore_ne (s : State) {t u : Tile} (f : Core → Core) (h : u ≠ t) :
    (s.modCore t f).core u = s.core u := by
  exact vector_get_set_ne _ _ h

@[simp] theorem State.core_modCtx_same (s : State) (t : Tile) (c : CtxId) (f : Ctx → Ctx) :
    (s.modCtx t c f).core t = (s.core t).modCtx c f := State.core_modCore_same s t _

theorem State.core_modCtx_ne (s : State) {t u : Tile} (c : CtxId) (f : Ctx → Ctx) (h : u ≠ t) :
    (s.modCtx t c f).core u = s.core u := State.core_modCore_ne s _ h

@[simp] theorem State.ctx_modCtx_same (s : State) (t : Tile) (c : CtxId) (f : Ctx → Ctx) :
    (s.modCtx t c f).ctx t c = f (s.ctx t c) := by
  simp [State.ctx]

theorem State.ctx_modCtx_ne (s : State) (t : Tile) {c d : CtxId} (f : Ctx → Ctx) (h : d ≠ c) :
    (s.modCtx t c f).ctx t d = s.ctx t d := by
  simp [State.ctx, Core.modCtx_ne _ f h]

@[simp] theorem State.page_modPage_same (s : State) (P : Nat) (f : Page → Page) :
    (s.modPage P f).page P = f (s.page P) := by
  simp [State.page, State.modPage]

theorem State.page_modPage_ne (s : State) {P Q : Nat} (f : Page → Page) (h : Q ≠ P) :
    (s.modPage P f).page Q = s.page Q :=
  Tab.get_mod_ne _ _ f h

@[simp] theorem State.ring_modRing_same (s : State) (r : Nat) (f : Ring → Ring) :
    (s.modRing r f).ring r = f (s.ring r) := by
  simp [State.ring, State.modRing]

theorem State.ring_modRing_ne (s : State) {r q : Nat} (f : Ring → Ring) (h : q ≠ r) :
    (s.modRing r f).ring q = s.ring q :=
  Tab.get_mod_ne _ _ f h

@[simp] theorem State.port_modPort_same (s : State) (q : Fin 4) (f : Port → Port) :
    (s.modPort q f).port q = f (s.port q) := by
  simp [State.modPort, State.port, State.modPeer, vector_get_set_same]

theorem State.port_modPort_ne (s : State) {q r : Fin 4} (f : Port → Port) (h : r ≠ q) :
    (s.modPort q f).port r = s.port r := by
  exact vector_get_set_ne _ _ h

@[simp] theorem State.part_modPart_same (s : State) (p : Part) (f : PartState → PartState) :
    (s.modPart p f).part p = f (s.part p) := by
  simp [State.modPart, State.part, vector_get_set_same]

theorem State.part_modPart_ne (s : State) {p q : Part} (f : PartState → PartState) (h : q ≠ p) :
    (s.modPart p f).part q = s.part q := by
  exact vector_get_set_ne _ _ h

@[simp] theorem State.isl_modIsl_same (s : State) (i : Nat) (f : Isl → Isl) :
    (s.modIsl i f).isl i = f (s.isl i) := by
  simp [State.modIsl, State.isl]

end Sys2Proof.Machine
end

