-- ==== Sys2Proof/Laws/Count.lean ====
section
/-! SUPPORT. Counters and interrupts: they change the endpoint and the counters, overflow bits and
interrupt bits of pages, and nothing else (R53, R67, R69, R429). -/

namespace Sys2Proof.Machine

/-! ### What they leave alone -/

@[simp] theorem State.sendVec_pending (s : State) (f : Func) (v : Nat) :
    (s.sendVec f v).pending = s.pending := by
  unfold State.sendVec
  split <;> (try split) <;> rfl

@[simp] theorem State.sendVec_time (s : State) (f : Func) (v : Nat) :
    (s.sendVec f v).time = s.time := by
  unfold State.sendVec
  split <;> (try split) <;> rfl

@[simp] theorem State.sendVec_board (s : State) (f : Func) (v : Nat) :
    (s.sendVec f v).board = s.board := by
  unfold State.sendVec
  split <;> (try split) <;> rfl

@[simp] theorem State.sendVec_cores (s : State) (f : Func) (v : Nat) :
    (s.sendVec f v).cores = s.cores := by
  unfold State.sendVec
  split <;> (try split) <;> rfl

@[simp] theorem State.sendVec_hbm (s : State) (f : Func) (v : Nat) :
    (s.sendVec f v).hbm = s.hbm := by
  unfold State.sendVec
  split <;> (try split) <;> rfl

@[simp] theorem State.sendVec_journal (s : State) (f : Func) (v : Nat) :
    (s.sendVec f v).journal = s.journal := by
  unfold State.sendVec
  split <;> (try split) <;> rfl

@[simp] theorem State.sendVec_rings (s : State) (f : Func) (v : Nat) :
    (s.sendVec f v).rings = s.rings := by
  unfold State.sendVec
  split <;> (try split) <;> rfl

@[simp] theorem State.sendVec_disp (s : State) (f : Func) (v : Nat) :
    (s.sendVec f v).disp = s.disp := by
  unfold State.sendVec
  split <;> (try split) <;> rfl

@[simp] theorem State.sendVec_sync (s : State) (f : Func) (v : Nat) :
    (s.sendVec f v).sync = s.sync := by
  unfold State.sendVec
  split <;> (try split) <;> rfl

@[simp] theorem State.sendVec_parts (s : State) (f : Func) (v : Nat) :
    (s.sendVec f v).parts = s.parts := by
  unfold State.sendVec
  split <;> (try split) <;> rfl

@[simp] theorem State.sendVec_dumpSerial (s : State) (f : Func) (v : Nat) :
    (s.sendVec f v).dumpSerial = s.dumpSerial := by
  unfold State.sendVec
  split <;> (try split) <;> rfl

@[simp] theorem State.sendVec_sec (s : State) (f : Func) (v : Nat) :
    (s.sendVec f v).sec = s.sec := by
  unfold State.sendVec
  split <;> (try split) <;> rfl

@[simp] theorem State.sendVec_mgmt (s : State) (f : Func) (v : Nat) :
    (s.sendVec f v).mgmt = s.mgmt := by
  unfold State.sendVec
  split <;> (try split) <;> rfl

@[simp] theorem State.sendVec_pins (s : State) (f : Func) (v : Nat) :
    (s.sendVec f v).pins = s.pins := by
  unfold State.sendVec
  split <;> (try split) <;> rfl

@[simp] theorem State.sendVec_clocks (s : State) (f : Func) (v : Nat) :
    (s.sendVec f v).clocks = s.clocks := by
  unfold State.sendVec
  split <;> (try split) <;> rfl

@[simp] theorem State.sendVec_peer (s : State) (f : Func) (v : Nat) :
    (s.sendVec f v).peer = s.peer := by
  unfold State.sendVec
  split <;> (try split) <;> rfl

@[simp] theorem State.sendVec_free (s : State) (f : Func) (v : Nat) :
    (s.sendVec f v).free = s.free := by
  unfold State.sendVec
  split <;> (try split) <;> rfl

@[simp] theorem State.evalVec_pending (s : State) (f : Func) (v : Nat) (again : Bool) :
    (s.evalVec f v again).pending = s.pending := by
  unfold State.evalVec
  dsimp only
  split <;> simp

@[simp] theorem State.evalVec_time (s : State) (f : Func) (v : Nat) (again : Bool) :
    (s.evalVec f v again).time = s.time := by
  unfold State.evalVec
  dsimp only
  split <;> simp

@[simp] theorem State.evalVec_board (s : State) (f : Func) (v : Nat) (again : Bool) :
    (s.evalVec f v again).board = s.board := by
  unfold State.evalVec
  dsimp only
  split <;> simp

@[simp] theorem State.evalVec_cores (s : State) (f : Func) (v : Nat) (again : Bool) :
    (s.evalVec f v again).cores = s.cores := by
  unfold State.evalVec
  dsimp only
  split <;> simp

@[simp] theorem State.evalVec_hbm (s : State) (f : Func) (v : Nat) (again : Bool) :
    (s.evalVec f v again).hbm = s.hbm := by
  unfold State.evalVec
  dsimp only
  split <;> simp

@[simp] theorem State.evalVec_journal (s : State) (f : Func) (v : Nat) (again : Bool) :
    (s.evalVec f v again).journal = s.journal := by
  unfold State.evalVec
  dsimp only
  split <;> simp

@[simp] theorem State.evalVec_rings (s : State) (f : Func) (v : Nat) (again : Bool) :
    (s.evalVec f v again).rings = s.rings := by
  unfold State.evalVec
  dsimp only
  split <;> simp

@[simp] theorem State.evalVec_disp (s : State) (f : Func) (v : Nat) (again : Bool) :
    (s.evalVec f v again).disp = s.disp := by
  unfold State.evalVec
  dsimp only
  split <;> simp

@[simp] theorem State.evalVec_sync (s : State) (f : Func) (v : Nat) (again : Bool) :
    (s.evalVec f v again).sync = s.sync := by
  unfold State.evalVec
  dsimp only
  split <;> simp

@[simp] theorem State.evalVec_parts (s : State) (f : Func) (v : Nat) (again : Bool) :
    (s.evalVec f v again).parts = s.parts := by
  unfold State.evalVec
  dsimp only
  split <;> simp

@[simp] theorem State.evalVec_dumpSerial (s : State) (f : Func) (v : Nat) (again : Bool) :
    (s.evalVec f v again).dumpSerial = s.dumpSerial := by
  unfold State.evalVec
  dsimp only
  split <;> simp

@[simp] theorem State.evalVec_sec (s : State) (f : Func) (v : Nat) (again : Bool) :
    (s.evalVec f v again).sec = s.sec := by
  unfold State.evalVec
  dsimp only
  split <;> simp

@[simp] theorem State.evalVec_mgmt (s : State) (f : Func) (v : Nat) (again : Bool) :
    (s.evalVec f v again).mgmt = s.mgmt := by
  unfold State.evalVec
  dsimp only
  split <;> simp

@[simp] theorem State.evalVec_pins (s : State) (f : Func) (v : Nat) (again : Bool) :
    (s.evalVec f v again).pins = s.pins := by
  unfold State.evalVec
  dsimp only
  split <;> simp

@[simp] theorem State.evalVec_clocks (s : State) (f : Func) (v : Nat) (again : Bool) :
    (s.evalVec f v again).clocks = s.clocks := by
  unfold State.evalVec
  dsimp only
  split <;> simp

@[simp] theorem State.evalVec_peer (s : State) (f : Func) (v : Nat) (again : Bool) :
    (s.evalVec f v again).peer = s.peer := by
  unfold State.evalVec
  dsimp only
  split <;> simp

@[simp] theorem State.evalVec_free (s : State) (f : Func) (v : Nat) (again : Bool) :
    (s.evalVec f v again).free = s.free := by
  unfold State.evalVec
  dsimp only
  split <;> simp

@[simp] theorem State.raise_pending (s : State) (c : PageClass) (bits : Word) :
    (s.raise c bits).pending = s.pending := by
  simp [State.raise]

@[simp] theorem State.raise_time (s : State) (c : PageClass) (bits : Word) :
    (s.raise c bits).time = s.time := by
  simp [State.raise]

@[simp] theorem State.raise_board (s : State) (c : PageClass) (bits : Word) :
    (s.raise c bits).board = s.board := by
  simp [State.raise]

@[simp] theorem State.raise_cores (s : State) (c : PageClass) (bits : Word) :
    (s.raise c bits).cores = s.cores := by
  simp [State.raise]

@[simp] theorem State.raise_hbm (s : State) (c : PageClass) (bits : Word) :
    (s.raise c bits).hbm = s.hbm := by
  simp [State.raise]

@[simp] theorem State.raise_journal (s : State) (c : PageClass) (bits : Word) :
    (s.raise c bits).journal = s.journal := by
  simp [State.raise]

@[simp] theorem State.raise_rings (s : State) (c : PageClass) (bits : Word) :
    (s.raise c bits).rings = s.rings := by
  simp [State.raise]

@[simp] theorem State.raise_disp (s : State) (c : PageClass) (bits : Word) :
    (s.raise c bits).disp = s.disp := by
  simp [State.raise]

@[simp] theorem State.raise_sync (s : State) (c : PageClass) (bits : Word) :
    (s.raise c bits).sync = s.sync := by
  simp [State.raise]

@[simp] theorem State.raise_parts (s : State) (c : PageClass) (bits : Word) :
    (s.raise c bits).parts = s.parts := by
  simp [State.raise]

@[simp] theorem State.raise_dumpSerial (s : State) (c : PageClass) (bits : Word) :
    (s.raise c bits).dumpSerial = s.dumpSerial := by
  simp [State.raise]

@[simp] theorem State.raise_sec (s : State) (c : PageClass) (bits : Word) :
    (s.raise c bits).sec = s.sec := by
  simp [State.raise]

@[simp] theorem State.raise_mgmt (s : State) (c : PageClass) (bits : Word) :
    (s.raise c bits).mgmt = s.mgmt := by
  simp [State.raise]

@[simp] theorem State.raise_pins (s : State) (c : PageClass) (bits : Word) :
    (s.raise c bits).pins = s.pins := by
  simp [State.raise]

@[simp] theorem State.raise_clocks (s : State) (c : PageClass) (bits : Word) :
    (s.raise c bits).clocks = s.clocks := by
  simp [State.raise]

@[simp] theorem State.raise_peer (s : State) (c : PageClass) (bits : Word) :
    (s.raise c bits).peer = s.peer := by
  simp [State.raise]

@[simp] theorem State.raise_free (s : State) (c : PageClass) (bits : Word) :
    (s.raise c bits).free = s.free := by
  simp [State.raise]

@[simp] theorem State.count_pending (s : State) (c : PageClass) (i n : Nat) :
    (s.count c i n).pending = s.pending := by
  unfold State.count
  dsimp only
  split
  · split <;> simp
  · simp

@[simp] theorem State.count_time (s : State) (c : PageClass) (i n : Nat) :
    (s.count c i n).time = s.time := by
  unfold State.count
  dsimp only
  split
  · split <;> simp
  · simp

@[simp] theorem State.count_board (s : State) (c : PageClass) (i n : Nat) :
    (s.count c i n).board = s.board := by
  unfold State.count
  dsimp only
  split
  · split <;> simp
  · simp

@[simp] theorem State.count_cores (s : State) (c : PageClass) (i n : Nat) :
    (s.count c i n).cores = s.cores := by
  unfold State.count
  dsimp only
  split
  · split <;> simp
  · simp

@[simp] theorem State.count_hbm (s : State) (c : PageClass) (i n : Nat) :
    (s.count c i n).hbm = s.hbm := by
  unfold State.count
  dsimp only
  split
  · split <;> simp
  · simp

@[simp] theorem State.count_journal (s : State) (c : PageClass) (i n : Nat) :
    (s.count c i n).journal = s.journal := by
  unfold State.count
  dsimp only
  split
  · split <;> simp
  · simp

@[simp] theorem State.count_rings (s : State) (c : PageClass) (i n : Nat) :
    (s.count c i n).rings = s.rings := by
  unfold State.count
  dsimp only
  split
  · split <;> simp
  · simp

@[simp] theorem State.count_disp (s : State) (c : PageClass) (i n : Nat) :
    (s.count c i n).disp = s.disp := by
  unfold State.count
  dsimp only
  split
  · split <;> simp
  · simp

@[simp] theorem State.count_sync (s : State) (c : PageClass) (i n : Nat) :
    (s.count c i n).sync = s.sync := by
  unfold State.count
  dsimp only
  split
  · split <;> simp
  · simp

@[simp] theorem State.count_parts (s : State) (c : PageClass) (i n : Nat) :
    (s.count c i n).parts = s.parts := by
  unfold State.count
  dsimp only
  split
  · split <;> simp
  · simp

@[simp] theorem State.count_dumpSerial (s : State) (c : PageClass) (i n : Nat) :
    (s.count c i n).dumpSerial = s.dumpSerial := by
  unfold State.count
  dsimp only
  split
  · split <;> simp
  · simp

@[simp] theorem State.count_sec (s : State) (c : PageClass) (i n : Nat) :
    (s.count c i n).sec = s.sec := by
  unfold State.count
  dsimp only
  split
  · split <;> simp
  · simp

@[simp] theorem State.count_mgmt (s : State) (c : PageClass) (i n : Nat) :
    (s.count c i n).mgmt = s.mgmt := by
  unfold State.count
  dsimp only
  split
  · split <;> simp
  · simp

@[simp] theorem State.count_pins (s : State) (c : PageClass) (i n : Nat) :
    (s.count c i n).pins = s.pins := by
  unfold State.count
  dsimp only
  split
  · split <;> simp
  · simp

@[simp] theorem State.count_clocks (s : State) (c : PageClass) (i n : Nat) :
    (s.count c i n).clocks = s.clocks := by
  unfold State.count
  dsimp only
  split
  · split <;> simp
  · simp

@[simp] theorem State.count_peer (s : State) (c : PageClass) (i n : Nat) :
    (s.count c i n).peer = s.peer := by
  unfold State.count
  dsimp only
  split
  · split <;> simp
  · simp

@[simp] theorem State.count_free (s : State) (c : PageClass) (i n : Nat) :
    (s.count c i n).free = s.free := by
  unfold State.count
  dsimp only
  split
  · split <;> simp
  · simp

/-! ### What they change -/

theorem Page.irq_self (p : Page) :
    p = { p with counters := p.counters, ovf := p.ovf, irqStatus := p.irqStatus ||| 0 } := by
  simp

theorem OnlyCounts.of_same {s s' : State} (t : Tile) (h : s'.pages = s.pages) (h' : s'.host = s.host) :
    OnlyCounts s s' t where
  page P := ⟨_, _, 0, by rw [State.page, h]; exact Page.irq_self _⟩
  other P _ _ := by rw [State.page, h]; rfl
  host := ⟨s.host.cond, s.host.pba, [], by rw [h']; rfl, by simp⟩

theorem OnlyCounts.refl (s : State) (t : Tile) : OnlyCounts s s t := .of_same t rfl rfl

theorem OnlyCounts.trans {s s' s'' : State} {t : Tile} (h : OnlyCounts s s' t) (h' : OnlyCounts s' s'' t) :
    OnlyCounts s s'' t where
  page P := by
    obtain ⟨a, b, c, e⟩ := h.page P
    obtain ⟨a', b', c', e'⟩ := h'.page P
    exact ⟨a', b', c ||| c', by rw [e', e, BitVec.or_assoc]⟩
  other P hP hQ := (h'.other P hP hQ).trans (h.other P hP hQ)
  host := by
    obtain ⟨a, b, n, e, hn⟩ := h.host
    obtain ⟨a', b', n', e', hn'⟩ := h'.host
    refine ⟨a', b', n' ++ n, by rw [e', e, List.append_assoc], fun m hm => ?_⟩
    rcases List.mem_append.1 hm with h1 | h1
    · exact hn' m h1
    · exact hn m h1

theorem OnlyCounts.modPage (s : State) (t : Tile) (P : Nat) {f : Page → Page}
    (hP : P ∈ (tilePages t).map pageNo ∨ P = pageNo .pcie)
    (h : ∀ p, ∃ a b c, f p = { p with counters := a, ovf := b, irqStatus := p.irqStatus ||| c }) :
    OnlyCounts s (s.modPage P f) t where
  page Q := by
    by_cases e : Q = P
    · subst e
      obtain ⟨a, b, c, h⟩ := h (s.page Q)
      exact ⟨a, b, c, by rw [State.page_modPage_same, h]⟩
    · exact ⟨_, _, 0, by rw [State.page_modPage_ne _ _ e]; exact Page.irq_self _⟩
  other Q h1 h2 := State.page_modPage_ne _ _ fun e => by
    subst e
    exact hP.elim h1 h2
  host := ⟨s.host.cond, s.host.pba, [], rfl, by simp⟩

/-- A change of the endpoint's condition and pending bits, and a message that it sends. -/
theorem OnlyCounts.ofHost (s : State) (t : Tile) (cond pba : Tab Bool) (new : List Sent)
    (hn : ∀ m ∈ new, ∃ f v, m = Sent.msix f v) :
    OnlyCounts s { s with host := { s.host with cond := cond, pba := pba, sent := new ++ s.host.sent } } t where
  page _ := ⟨_, _, 0, Page.irq_self _⟩
  other _ _ _ := rfl
  host := ⟨cond, pba, new, rfl, hn⟩

theorem OnlyCounts.sendVec (s : State) (t : Tile) (f : Func) (v : Nat) : OnlyCounts s (s.sendVec f v) t := by
  unfold State.sendVec
  split
  · exact .refl s t
  · split
    · exact .ofHost s t s.host.cond _ [] (by simp)
    · exact .trans (.ofHost s t s.host.cond _ [_] (by simp))
        (.modPage _ t (pageNo .pcie) (.inr rfl) fun p => ⟨_, _, 0, Page.irq_self (Page.bump p .pcie 3 1)⟩)

theorem OnlyCounts.evalVec (s : State) (t : Tile) (f : Func) (v : Nat) (again : Bool) :
    OnlyCounts s (s.evalVec f v again) t := by
  unfold State.evalVec
  dsimp only
  split
  · exact .trans (.ofHost s t _ _ [] (by simp)) (.sendVec _ t f v)
  · exact .ofHost s t _ _ [] (by simp)

theorem OnlyCounts.raise (s : State) (t : Tile) (c : PageClass) (bits : Word)
    (hc : pageNo c ∈ (tilePages t).map pageNo ∨ pageNo c = pageNo .pcie) : OnlyCounts s (s.raise c bits) t :=
  .trans (.modPage s t _ hc fun p => ⟨p.counters, p.ovf, _, rfl⟩) (.evalVec _ t 0 (pageVector c) false)

theorem OnlyCounts.count (s : State) (t : Tile) (c : PageClass) (i n : Nat)
    (hc : pageNo c ∈ (tilePages t).map pageNo ∨ pageNo c = pageNo .pcie) : OnlyCounts s (s.count c i n) t := by
  have h : OnlyCounts s (s.modPage (pageNo c) (Page.bump · c i n)) t :=
    .modPage s t _ hc fun p => ⟨_, _, 0, Page.irq_self (Page.bump p c i n)⟩
  unfold State.count
  dsimp only
  split
  · split
    · exact .trans h (.raise _ t c 1 hc)
    · exact h
  · exact h

end Sys2Proof.Machine
end

