-- ==== Sys2Proof/Laws/Issue.lean ====
section
/-! SUPPORT. What a bundle of one operation comes to: the one law that every instruction row's statement
goes through, and the law of register effects. -/

namespace Sys2Proof.Machine

/-- What the operation sees. -/
def envOf (b : Issue) (s : State) (c : CtxId) : Env :=
  ⟨s.tileOf b.core, b.core, c, s.ctx (s.tileOf b.core) c, s, 0⟩

/-- No operation exceeds a limit of R111 alone. -/
theorem overLimit_single (o : Op) : overLimit [o] = false := by
  cases o <;> rfl

/-- A bundle of one operation that stands ready comes to its outcome. -/
theorem issue_ready {b : Issue} {o : Op} {s : State} {c : CtxId} (h : Stands b o s c) :
    issue b o s = s.settleBundle (envOf b s c) [o] 1 [opRes (envOf b s c) 1 o] := by
  obtain ⟨⟨hm, hr⟩, hrun, hmv, hst, hin, hline, ⟨hl, hg⟩, hlv, hf, hload, hacq, hgf, hcl, -, hsd, hheld, -⟩ := h
  have hpriv : (Op.privileged o && !(s.ctx (s.tileOf b.core) c).priv) = false := by
    cases hp : Op.privileged o
    · rfl
    · rw [hlv hp]
      rfl
  have hline' : ¬ 64 < (s.ctx (s.tileOf b.core) c).pc.toNat % 64 + 4 := by omega
  have hin' : ¬ 2 ^ 20 ≤ (s.ctx (s.tileOf b.core) c).pc.toNat := by omega
  have hsplit : bundleSplit (s.ctx (s.tileOf b.core) c).pc [] = false := by
    simp [bundleSplit, bundleEnds, hline']
  have hcl1 : clash (s.ctx (s.tileOf b.core) c).g [o] = false := by simp [clash]
  simp only [issue, hrun, hm, hr, bundleWords, bundleOps, List.flatMap_nil, List.append_nil,
    List.filterMap_cons, List.filterMap_nil, id, List.any_cons, List.any_nil, Bool.or_false,
    Option.isNone_some, List.flatMap_cons, List.length_nil, hmv, hst, if_false, hin', hsplit,
    Bool.false_eq_true, hl, hg, overLimit_single, hcl1, hf, hload, hacq, hgf, hcl, hsd, hheld, Option.isSome_none,
    List.isEmpty_nil, Bool.not_true]
  simp [hpriv, List.range, List.range.loop, listAt, envOf]

theorem settle_ok (s : State) (e : Env) (o : Op) (n : Nat) (f : State → State) (fl : Flow) :
    s.settleBundle e [o] n [.ok f fl] = s.complete e [o] n (f s, fl) := by
  cases ht : Op.takes o <;> cases fl <;>
    simp [State.settleBundle, lowestExc, firstStall, Env.first, firstBlock, applyAll, Res.blocks, List.zip, ht]

theorem settle_stall (s : State) (e : Env) (o : Op) (n : Nat) (f : State → State) :
    s.settleBundle e [o] n [.stall f] = f s := rfl

theorem settle_block (s : State) (e : Env) (o : Op) (n : Nat) (k : BitVec 4) (w : CtxWait)
    (f : State → State) :
    s.settleBundle e [o] n [.block k w f] = (f s).blockCtx e.t e.c k w := by
  cases ht : Op.takes o <;>
    simp [State.settleBundle, lowestExc, firstStall, Env.first, firstBlock, Res.blocks, List.zip, ht]

/-! ### A bundle that retires -/

theorem Core.drainTo16_small (k : Core) (n : Nat) (h : k.sb.length ≤ 16) : k.drainTo16 n = k := by
  cases n <;> simp [Core.drainTo16, h]

theorem vector_set_get {α : Type} {n : Nat} (v : Vector α n) (i : Fin n) :
    v.set i.val (v.get i) i.isLt = v := by
  apply Vector.ext
  intro j hj
  rw [Vector.getElem_set]
  split
  · rename_i h
    subst h
    rfl
  · rfl

@[simp] theorem State.modCore_self (s : State) (t : Tile) {f : Core → Core} (h : f (s.core t) = s.core t) :
    s.modCore t f = s := by
  have : f (s.cores.get t) = s.cores.get t := h
  simp [State.modCore, this, vector_set_get]

theorem State.modCtx_self (s : State) (t : Tile) (c : CtxId) {f : Ctx → Ctx} (h : f (s.ctx t c) = s.ctx t c) :
    s.modCtx t c f = s := by
  refine State.modCore_self s t ?_
  have h' : f ((s.core t).ctxs.get c) = (s.core t).ctxs.get c := h
  simp [Core.modCtx, h', vector_set_get]

/-- A bundle that leaves nothing under way: the store buffer has room, and no request waits. -/
theorem State.settleFar_self {s : State} {t : Tile} {c : CtxId} (hsb : (s.core t).sb.length ≤ 16)
    (hsd : (s.ctx t c).sending = []) : s.settleFar t c = s := by
  have h1 : s.modCore t (fun k => k.drainTo16 k.sb.length) = s :=
    State.modCore_self _ _ (Core.drainTo16_small _ _ hsb)
  have h2 : s.modCtx t c Ctx.orderFar = s := by
    refine State.modCtx_self _ _ _ ?_
    unfold Ctx.orderFar
    rw [hsd]
    generalize s.ctx t c = x at hsd
    cases x
    simp only at hsd
    subst hsd
    rfl
  unfold State.settleFar
  rw [h1, h2]
  simp [State.pushAll, hsd, State.pushFar]

/-- An exception of a lone operation that has no other effect and keeps no base update. -/
theorem settle_exc (s : State) (e : Env) (o : Op) (n : Nat) (code : Byte) (a : Word)
    (h : keepsBase code = false) (hres : e.x.resuming = false) (hsb : (s.core e.t).sb.length ≤ 16) (hsd : (s.ctx e.t e.c).sending = []) :
    s.settleBundle e [o] n [.exc code a false id] = s.fail e.t e.c code a false := by
  have hov : sbOver e.core (s.core e.t) = false := by
    simp [sbOver, Nat.not_lt.2 hsb]
  have hdrop : otherThanVector [o] [.exc code a false id] code = false := by
    cases hv : Op.vectorAccess o <;> simp [otherThanVector, hv]
  have hself : s.modCtx e.t e.c (fun x => x.dropVelem false code) = s :=
    State.modCtx_self _ _ _ (by simp [Ctx.dropVelem])
  simp [State.settleBundle, lowestExc, h, hres, hov, State.settleFar_self hsb hsd, hdrop, hself, hsd]

/-- The RUNNING context found again after it alone has changed, its state apart. -/
theorem Core.running_modCtx {k : Core} {c : CtxId} {f : Ctx → Ctx} (h : k.running = some c)
    (hf : (f (k.ctxs.get c)).run = .running) : (k.modCtx c f).running = some c := by
  have hne : ∀ d, d ≠ c → (k.modCtx c f).ctxs.get d = k.ctxs.get d := fun d hd => Core.modCtx_ne k f hd
  unfold Core.running at h ⊢
  rw [← h]
  have hc : (k.ctxs.get c).run = .running := by
    have := List.find?_some h
    simpa using this
  congr 1
  funext d
  by_cases hd : d = c
  · subst hd
    simp [hf, hc]
  · rw [hne d hd]

/-- What an effect on the context must leave as it is for the context simply to go on. -/
structure GoesOn (x y : Ctx) : Prop where
  pc : y.pc = x.pc
  run : y.run = x.run
  resuming : y.resuming = x.resuming
  inBody : y.endLoop (x.pc.setWidth 20) = x.endLoop (x.pc.setWidth 20)
  sending : y.sending = x.sending

theorem Core.running_run {k : Core} {c : CtxId} (h : k.running = some c) :
    (k.ctxs.get c).run = .running := by
  have := List.find?_some h
  simpa using this

theorem Ctx.loopBack_none {x : Ctx} {pc : BitVec 20} (seq : Word) (n : Nat) (h : x.endLoop pc = none) :
    x.loopBack pc seq n = (seq, x) := by
  cases n <;> simp [Ctx.loopBack, h]

theorem Core.running_congr {k k' : Core} (h : k.ctxs = k'.ctxs) : k.running = k'.running := by
  simp [Core.running, h]

/-- Two states that agree in every field but the cores, the pages and the endpoint. -/
theorem State.rest_ext {s s' : State} (h1 : s'.pending = s.pending) (h2 : s'.time = s.time)
    (h3 : s'.board = s.board) (h4 : s'.hbm = s.hbm) (h5 : s'.journal = s.journal)
    (h6 : s'.rings = s.rings) (h7 : s'.disp = s.disp) (h8 : s'.sync = s.sync)
    (h9 : s'.parts = s.parts) (h10 : s'.dumpSerial = s.dumpSerial) (h11 : s'.sec = s.sec)
    (h12 : s'.mgmt = s.mgmt) (h13 : s'.pins = s.pins) (h14 : s'.clocks = s.clocks)
    (h15 : s'.peer = s.peer) (h16 : s'.free = s.free) :
    s' = { s with cores := s'.cores, pages := s'.pages, host := s'.host } := by
  cases s
  cases s'
  simp only at *
  subst_vars
  rfl

theorem State.modCore_congr {s : State} {t : Tile} {F G : Core → Core}
    (h : F (s.core t) = G (s.core t)) : s.modCore t F = s.modCore t G := by
  have h' : F (s.cores.get t) = G (s.cores.get t) := h
  simp [State.modCore, h']

theorem State.core_congr {s s' : State} (h : s'.cores = s.cores) (u : Tile) : s'.core u = s.core u := by
  simp [State.core, h]

/-- Where a bundle of `words` words goes on, and its context's registers but for the address. -/
def Ctx.goOn (x : Ctx) (words : Nat) (fl : Flow) : Word × Ctx :=
  match fl with
  | .seq => x.loopBack (x.pc.setWidth 20) (x.pc + BitVec.ofNat 32 (4 * words)) 4
  | .branch pc => (pc, x.leaveLoops pc)
  | .call pc => (pc, x)
  | .skip pc => (pc, x)
  | .jump pc => (pc, x)

/-- Within a loop's body or outside, a bundle of one word is followed by the next word. -/
theorem Ctx.goOn_seq (x : Ctx) (h : x.endLoop (x.pc.setWidth 20) = none) :
    x.goOn 1 .seq = (x.pc + 4, x) := Ctx.loopBack_none _ _ h

/-- What retirement does: the context goes on, a cycle and a bundle are counted, and the core's
quantum, BTB and resume line follow. -/
theorem retire_eq (s : State) (t : Tile) (c : CtxId) (words : Nat) (fl : Flow)
    (hfl : (s.ctx t c).resuming = false ∨ ∃ pc, fl = .jump pc) :
    ∃ q btb resume tm, s.retire t c words fl =
      (s.modCore t fun k =>
        { (k.modCtx c fun _ => { ((s.ctx t c).goOn words fl).2 with
            pc := ((s.ctx t c).goOn words fl).1, done := [], fault := none
            cycles := (s.ctx t c).cycles + 1, resuming := (s.ctx t c).resuming }) with
          quantum := q, btb := btb, resume := resume, timers := tm }).count (.core t.val) c.val 1 := by
  rcases hfl with h | ⟨pc, rfl⟩
  · cases fl <;> exact ⟨_, _, _, _, by
      unfold State.retire Ctx.goOn
      simp only [h]
      congr 1⟩
  · exact ⟨_, _, _, _, rfl⟩

/-- A bundle whose effects have given `r` retires there. -/
theorem complete_eq {s r : State} {e : Env} {o : Op} {fl : Flow} (hne : o ≠ .ctxEnd)
    (hx : e.x.resuming = false) (hsb : (r.core e.t).sb.length ≤ 16) (hsd : (r.ctx e.t e.c).sending = [])
    (hloop : (r.ctx e.t e.c).endLoop (e.x.pc.setWidth 20) = none) :
    s.complete e [o] 1 (r, fl) =
      ((r.modCtx e.t e.c fun y => y.cure ((Op.writes e.x.g o).filter fun q => !(e.tainted [o]).contains q)).retire
        e.t e.c 1 fl).reselect e.t := by
  have hov : sbOver e.core (r.core e.t) = false := by
    simp [sbOver, Nat.not_lt.2 hsb]
  have hend : (([o].contains Op.ctxEnd)) = false := by
    simp [List.contains, List.elem, beq_eq_false_iff_ne.2 (Ne.symm hne)]
  simp only [State.complete, hov, State.settleFar_self hsb hsd, Bool.false_and, hx, hloop,
    Option.isSome_none, Bool.and_false, hend, List.flatMap_cons, List.flatMap_nil, List.append_nil,
    if_false, Bool.false_eq_true]

/-- A bundle that has retired, in full: from `r`, the state with its effects, context `c` of tile `t` goes
on at `next` with registers `y`, and what retirement moves besides. -/
structure Landed (r s' : State) (t : Tile) (c : CtxId) (next : Word) (y : Ctx) : Prop where
  ctx : ∃ poison, s'.ctx t c =
    { y with pc := next, cycles := y.cycles + 1, done := [], fault := none, poison := poison }
  rest : s' = { r with cores := s'.cores, pages := s'.pages, host := s'.host }
  pages : OnlyCounts r s' t
  cores : ∀ u, u ≠ t → s'.core u = r.core u
  ctxs : ∀ d, d ≠ c → s'.ctx t d = r.ctx t d
  core : ∃ q btb resume tm, s'.core t =
    { r.core t with ctxs := (s'.core t).ctxs, quantum := q, btb := btb, resume := resume, timers := tm }

/-- The law of retirement: a bundle whose effects gave `r`, in which context `c` still runs, lands. -/
theorem complete_lands {s r : State} {e : Env} {o : Op} {fl : Flow} {next : Word} {y : Ctx}
    (hne : o ≠ .ctxEnd) (hx : e.x.resuming = false) (hsb : (r.core e.t).sb.length ≤ 16)
    (hsd : (r.ctx e.t e.c).sending = [])
    (hloop : (r.ctx e.t e.c).endLoop (e.x.pc.setWidth 20) = none)
    (hres : (r.ctx e.t e.c).resuming = false ∨ ∃ pc, fl = .jump pc)
    (hrun : (r.core e.t).running = some e.c)
    (hgo : ∀ poison, ({ r.ctx e.t e.c with poison := poison }).goOn 1 fl =
      (next, { y with poison := poison }))
    (hyrun : y.run = .running) (hycyc : y.cycles = (r.ctx e.t e.c).cycles)
    (hyres : y.resuming = (r.ctx e.t e.c).resuming) :
    Landed r (s.complete e [o] 1 (r, fl)) e.t e.c next y := by
  rw [complete_eq hne hx hsb hsd hloop]
  generalize e.t = t at *
  generalize e.c = c at *
  generalize hW : ((Op.writes e.x.g o).filter fun q => !(e.tainted [o]).contains q) = W
  have hs1 : (r.modCtx t c fun y => y.cure W).ctx t c =
      { r.ctx t c with poison := ((r.ctx t c).cure W).poison } := by
    rw [State.ctx_modCtx_same]
    rfl
  generalize ((r.ctx t c).cure W).poison = poison at hs1
  have hgo := hgo poison
  have hcoret : (r.modCtx t c fun y => y.cure W).core t = (r.core t).modCtx c fun y => y.cure W :=
    State.core_modCtx_same ..
  have hrun1 : ((r.modCtx t c fun y => y.cure W).core t).running = some c := by
    rw [hcoret]
    exact Core.running_modCtx hrun (Core.running_run hrun)
  have hne1 : ∀ u, u ≠ t → (r.modCtx t c fun y => y.cure W).core u = r.core u := fun u hu =>
    State.core_modCtx_ne _ _ _ hu
  have hrest1 : (r.modCtx t c fun y => y.cure W).pages = r.pages := rfl
  obtain ⟨q, btb, resume, tm, hret⟩ :=
    retire_eq (r.modCtx t c fun y => y.cure W) t c 1 fl (by rw [hs1]; exact hres)
  rw [hs1, hgo] at hret
  rw [hret]
  generalize hS : (r.modCtx t c fun y => y.cure W) = s1 at *
  generalize hz : ({ y with
      poison := poison, pc := next, done := [], fault := none
      cycles := (r.ctx t c).cycles + 1, resuming := (r.ctx t c).resuming } : Ctx) = z at *
  have hzy : z = { y with
      pc := next, cycles := y.cycles + 1, done := [], fault := none, poison := poison } := by
    rw [← hz, hycyc, ← hyres]
  generalize hS2 : (s1.modCore t fun k =>
    { (k.modCtx c fun _ => z) with quantum := q, btb := btb, resume := resume, timers := tm }) = s2
  have hcore2 : s2.core t = { ((s1.core t).modCtx c fun _ => z) with
      quantum := q, btb := btb, resume := resume, timers := tm } := by rw [← hS2, State.core_modCore_same]
  have hctxs2 : (s2.core t).ctxs = ((s1.core t).modCtx c fun _ => z).ctxs := by rw [hcore2]
  have hcount : ∀ u, (s2.count (.core t.val) c.val 1).core u = s2.core u := fun u => by
    simp [State.core]
  have hrun2 : ((s2.count (.core t.val) c.val 1).core t).running = some c := by
    rw [hcount, Core.running_congr hctxs2]
    exact Core.running_modCtx hrun1 (by rw [← hz]; exact hyrun)
  have hresel : (s2.count (.core t.val) c.val 1).reselect t = s2.count (.core t.val) c.val 1 := by
    simp [State.reselect, hrun2]
  rw [hresel]
  refine ⟨⟨poison, ?_⟩, ?_, ?_, ?_, ?_, q, btb, resume, tm, ?_⟩
  · show ((s2.count (.core t.val) c.val 1).core t).ctxs.get c = _
    rw [hcount, hctxs2, Core.modCtx_same, hzy]
  · rw [← hS2, ← hS]
    apply State.rest_ext <;> simp
  · refine .trans (.of_same t ?_ ?_) (.count _ _ _ _ _ (.inl (by simp [tilePages])))
    · rw [← hS2, ← hS]
      simp
    · rw [← hS2, ← hS]
      simp
  · intro u hu
    rw [hcount, ← hS2, State.core_modCore_ne _ _ hu, hne1 u hu]
  · intro d hd
    show ((s2.count (.core t.val) c.val 1).core t).ctxs.get d = _
    rw [hcount, hctxs2, Core.modCtx_ne _ _ hd, hcoret, Core.modCtx_ne _ _ hd]
    rfl
  · rw [hcount, hcore2, hcoret]
    rfl

/-- A bundle of one word whose only effect is on its context retires. -/
theorem complete_reg {b : Issue} {o : Op} {s : State} {c : CtxId} {g : Ctx → Ctx} (h : Ready b o s c)
    (hne : o ≠ .ctxEnd) (hk : GoesOn (s.ctx (s.tileOf b.core) c) (g (s.ctx (s.tileOf b.core) c))) :
    let s' := s.complete (envOf b s c) [o] 1 (s.modCtx (s.tileOf b.core) c g, .seq)
    Retired b s s' c ((s.ctx (s.tileOf b.core) c).pc + 4) (g (s.ctx (s.tileOf b.core) c)) ∧
      Elsewhere s s' (s.tileOf b.core) c := by
  intro s'
  have hr : (s.modCtx (s.tileOf b.core) c g).ctx (s.tileOf b.core) c =
      g (s.ctx (s.tileOf b.core) c) := State.ctx_modCtx_same ..
  have hrun : (g (s.ctx (s.tileOf b.core) c)).run = .running :=
    hk.run.trans (Core.running_run h.runs)
  have L : Landed (s.modCtx (s.tileOf b.core) c g) s' (s.tileOf b.core) c
      ((s.ctx (s.tileOf b.core) c).pc + 4) (g (s.ctx (s.tileOf b.core) c)) := by
    refine complete_lands (e := envOf b s c) hne h.fresh.1 ?_ ?_ ?_ ?_ ?_ ?_ hrun ?_ ?_
    · show ((s.modCtx (s.tileOf b.core) c g).core (s.tileOf b.core)).sb.length ≤ 16
      rw [State.core_modCtx_same]
      show (s.core (s.tileOf b.core)).sb.length ≤ 16
      have := h.room.1
      omega
    · show ((s.modCtx (s.tileOf b.core) c g).ctx (s.tileOf b.core) c).sending = []
      rw [hr]
      exact hk.sending.trans h.sent
    · show ((s.modCtx (s.tileOf b.core) c g).ctx (s.tileOf b.core) c).endLoop _ = none
      rw [hr]
      exact hk.inBody.trans h.inBody
    · left
      show ((s.modCtx (s.tileOf b.core) c g).ctx (s.tileOf b.core) c).resuming = false
      rw [hr]
      exact hk.resuming.trans h.fresh.1
    · show ((s.modCtx (s.tileOf b.core) c g).core (s.tileOf b.core)).running = some c
      rw [State.core_modCtx_same]
      exact Core.running_modCtx h.runs hrun
    · intro poison
      show ({ (s.modCtx (s.tileOf b.core) c g).ctx (s.tileOf b.core) c with poison := poison }).goOn 1
        .seq = _
      rw [hr, ← hk.pc]
      refine Ctx.goOn_seq _ ?_
      show (g (s.ctx (s.tileOf b.core) c)).endLoop ((g (s.ctx (s.tileOf b.core) c)).pc.setWidth 20) = none
      rw [hk.pc]
      exact hk.inBody.trans h.inBody
    · show _ = ((s.modCtx (s.tileOf b.core) c g).ctx (s.tileOf b.core) c).cycles
      rw [hr]
    · show _ = ((s.modCtx (s.tileOf b.core) c g).ctx (s.tileOf b.core) c).resuming
      rw [hr]
  refine ⟨L.ctx, L.rest, OnlyCounts.trans (s' := s.modCtx (s.tileOf b.core) c g) (.of_same _ rfl rfl) L.pages, fun u hu => ?_, fun d hd => ?_, ?_⟩
  · rw [L.cores u hu, State.core_modCtx_ne _ _ _ hu]
  · rw [L.ctxs d hd, State.ctx_modCtx_ne _ _ _ hd]
  · obtain ⟨q, btb, resume, tm, e⟩ := L.core
    exact ⟨q, btb, resume, tm, by rw [e, State.core_modCtx_same]; rfl⟩

/-- The law of register rows: a row whose one operation changes its context alone does so. -/
theorem does_reg {i : Instr} {b : Issue} {o : Op} {s : State} {c : CtxId} {g : Ctx → Ctx}
    (he : exec i s = .next (issue b o s)) (h : Ready b o s c) (hne : o ≠ .ctxEnd)
    (hr : opRes (envOf b s c) 1 o = .ok (fun s' => s'.modCtx (s.tileOf b.core) c g) .seq)
    (hk : GoesOn (s.ctx (s.tileOf b.core) c) (g (s.ctx (s.tileOf b.core) c))) :
    Does i b s c (g (s.ctx (s.tileOf b.core) c)) := by
  refine ⟨_, he, ?_⟩
  rw [issue_ready h.toStands, hr, settle_ok]
  exact complete_reg h hne hk

/-! ### Exceptions -/

/-- An exception of a context that runs with EXL clear: it enters its handler, and nothing else moves but
its resume line (R83, R126). -/
theorem except_enters {r : State} {t : Tile} {c : CtxId} {code : Byte} {a : Word}
    (hx : (r.ctx t c).exl = false) (hrun : (r.core t).running = some c) :
    let s' := r.except t c code a false
    s'.ctx t c = (r.ctx t c).enter code a false ((r.ctx t c).pc.setWidth 20) ∧ Elsewhere r s' t c := by
  intro s'
  have htake : r.takeExc t c code a false ((r.ctx t c).pc.setWidth 20) =
      r.modCtx t c (Ctx.enter · code a false ((r.ctx t c).pc.setWidth 20)) := by
    simp [State.takeExc, hx]
  have hs' : ∃ resume, s' = (r.modCtx t c (Ctx.enter · code a false ((r.ctx t c).pc.setWidth 20))).modCore t
      fun k => { k with resume := resume } := by
    generalize hE : r.modCtx t c (Ctx.enter · code a false ((r.ctx t c).pc.setWidth 20)) = E at htake
    have hErun : (E.core t).running = some c := by
      rw [← hE, State.core_modCtx_same]
      exact Core.running_modCtx hrun (Core.running_run hrun)
    refine ⟨(E.core t).resume.set c.val
      (some (E.codeLine t (((E.core t).ctxs.get c).pc.toNat / 64))) c.isLt, ?_⟩
    show State.reselect (State.modCore (r.takeExc t c code a false _) t _) t = _
    rw [htake]
    have hF : ∀ F : Core → Core, (F (E.core t)).ctxs = (E.core t).ctxs →
        (E.modCore t F).reselect t = E.modCore t F := by
      intro F e
      simp only [State.reselect, State.core_modCore_same, Core.running_congr e, hErun]
    rw [hF _ rfl]
    exact State.modCore_congr rfl
  obtain ⟨resume, hs'⟩ := hs'
  have hcore : s'.core t = { (r.core t).modCtx c
      (Ctx.enter · code a false ((r.ctx t c).pc.setWidth 20)) with resume := resume } := by
    rw [hs', State.core_modCore_same, State.core_modCtx_same]
  have hctxs : (s'.core t).ctxs = ((r.core t).modCtx c
      (Ctx.enter · code a false ((r.ctx t c).pc.setWidth 20))).ctxs := by rw [hcore]
  refine ⟨?_, ?_, ?_, ?_, ?_, (r.core t).quantum, (r.core t).btb, resume, (r.core t).timers, ?_⟩
  · show (s'.core t).ctxs.get c = _
    rw [hctxs, Core.modCtx_same]
    rfl
  · rw [hs']
    apply State.rest_ext <;> simp
  · rw [hs']
    exact .of_same t rfl rfl
  · intro u hu
    rw [hs', State.core_modCore_ne _ _ hu, State.core_modCtx_ne _ _ _ hu]
  · intro d hd
    show (s'.core t).ctxs.get d = _
    rw [hctxs, Core.modCtx_ne _ _ hd]
    rfl
  · rw [hcore]
    rfl

/-- A bundle of a context that runs with EXL clear takes an exception: its cycle counts, it enters its handler, and
nothing else moves but its core's quantum and resume line (R79, R83, R100). -/
theorem fail_enters {s : State} {t : Tile} {c : CtxId} {code : Byte} {a : Word}
    (hx : (s.ctx t c).exl = false) (hrun : (s.core t).running = some c) :
    let s' := s.fail t c code a false
    s'.ctx t c = Ctx.enter { s.ctx t c with cycles := (s.ctx t c).cycles + 1 } code a false
      ((s.ctx t c).pc.setWidth 20) ∧ Elsewhere s s' t c := by
  intro s'
  have hcore : (s.issued t c).core t = { ((s.core t).modCtx c fun x => { x with cycles := x.cycles + 1 }) with
      quantum := (s.core t).quantum + 1 } := by
    unfold State.issued
    rw [State.core_modCore_same]
  have hctxs : ((s.issued t c).core t).ctxs =
      ((s.core t).modCtx c fun x => { x with cycles := x.cycles + 1 }).ctxs := by rw [hcore]
  have hctx : (s.issued t c).ctx t c = { s.ctx t c with cycles := (s.ctx t c).cycles + 1 } := by
    show ((s.issued t c).core t).ctxs.get c = _
    rw [hctxs, Core.modCtx_same]
    rfl
  have hne : ∀ u, u ≠ t → (s.issued t c).core u = s.core u := fun u hu => State.core_modCore_ne _ _ hu
  have hr : ((s.issued t c).core t).running = some c := by
    rw [Core.running_congr hctxs]
    exact Core.running_modCtx hrun (Core.running_run hrun)
  obtain ⟨h1, h2, h3, h4, h5, q, btb, resume, tm, h6⟩ :=
    except_enters (r := s.issued t c) (code := code) (a := a) (by rw [hctx]; exact hx) hr
  refine ⟨by rw [hctx] at h1; exact h1, ?_, ?_, fun u hu => ?_, fun d hd => ?_, q, btb, resume, tm, ?_⟩
  · rw [show s' = _ from h2]
    apply State.rest_ext <;> rfl
  · exact OnlyCounts.trans (s' := s.issued t c) (.of_same t rfl rfl) h3
  · exact (h4 u hu).trans (hne u hu)
  · refine (h5 d hd).trans ?_
    show ((s.issued t c).core t).ctxs.get d = _
    rw [hctxs, Core.modCtx_ne _ _ hd]
    rfl
  · rw [show s'.core t = _ from h6, hcore]
    rfl

/-- The law of traps: a row whose one operation comes to an exception raises it. -/
theorem raises_exc {i : Instr} {b : Issue} {o : Op} {s : State} {c : CtxId} {code : Byte} {a : Word}
    (he : exec i s = .next (issue b o s)) (h : Stands b o s c)
    (hr : opRes (envOf b s c) 1 o = .exc code a false id) (hk : keepsBase code = false)
    (hx : (s.ctx (s.tileOf b.core) c).exl = false) :
    Raises i b s c code a (s.ctx (s.tileOf b.core) c) := by
  refine ⟨_, he, ?_⟩
  have hsb : (s.core (s.tileOf b.core)).sb.length ≤ 16 := Nat.le_succ_of_le h.room.1
  rw [issue_ready h, hr, settle_exc _ _ _ _ _ _ hk h.fresh.1 hsb h.sent]
  exact fail_enters hx h.runs

end Sys2Proof.Machine
end

