-- ==== Sys2Proof/Tests/Slice0.lean ====
section
/-! SUPPORT. Tests: for every statement with hypotheses a state that meets them, with what the command
then does there; terms that are not well formed; and the specification's own worked examples. -/

namespace Sys2Proof.Tests

open Sys2Proof.Machine

set_option Elab.async false

/-! ### States to test on -/

/-- A bundle of one word on core 0. -/
def b0 : Issue := ⟨0, none, [], 0⟩

/-- The state that a command leaves; the state itself where it stops. -/
def after (i : Instr) (s : State) : State :=
  match exec i s with
  | .next t => t
  | _ => s

/-- The device in service. -/
def served : State := { State.reset with
  board := { State.reset.board with svc := { state := .ready } }
  host := { State.reset.host with
    cfgReady := true, bars := (List.range 6).map fun i => (i, 0x1000000000 * BitVec.ofNat 64 (i + 1)) } }

/-- The state with core 0 in place of its own. -/
def withCore (k : Core) (s : State) : State := s.modCore 0 fun _ => k

/-- A core whose context 0 runs with registers `x`. -/
def coreOf (x : Ctx) : Core :=
  { ({} : Core) with ctxs := (Vector.replicate 4 ({} : Ctx)).set 0 { x with run := .running } }

/-- A context at system level, at the first bundle of line 4. -/
def sys : Ctx := { ({} : Ctx) with pc := 0x100, status := 1 }

/-- The state with context 0 of core 0 running on registers `x`. -/
def running (x : Ctx) : State := withCore (coreOf x) served

/-- The same with a core of its own. -/
def runningOn (x : Ctx) (f : Core → Core) : State := withCore (f (coreOf x)) served

/-- The page enabled, with these words in force. -/
def on (c : PageClass) (ws : Tab Word) (s : State) : State :=
  s.modPage (pageNo c) fun p => { p with enable := true, staged := ws, live := ws }

/-- A context with a value in a data register. -/
def withD (x : Ctx) (l : List (BitVec 5 × Word)) : Ctx := l.foldl (fun x p => x.setD p.1 p.2) x

/-- A context with a value in an address register. -/
def withA (x : Ctx) (l : List (BitVec 4 × Word)) : Ctx := l.foldl (fun x p => x.setA p.1 p.2) x

/-- `Stands` as a test. -/
def stands? (b : Issue) (o : Op) (s : State) (c : CtxId) : Bool :=
  let k := s.core (s.tileOf b.core)
  let x := s.ctx (s.tileOf b.core) c
  decide (b.mate = none ∧ b.rest = []) && decide (k.running = some c) && !s.frozen (s.tileOf b.core) &&
    !x.stopReq && decide (x.pc.toNat < 2 ^ 20) && decide (x.pc.toNat % 64 ≤ 60) && Op.legal o &&
    groupsOk x.g o && (!Op.privileged o || x.priv) && x.fault.isNone &&
    (k.pendingLoad c (Op.reads x.g o ++ Op.writes x.g o)).isNone && !(Op.accesses o && k.acquiring c) && x.held.isNone &&
    (groupFault (s.tileOf b.core) c x (Op.reads x.g o)).isEmpty &&
    (poisonRes (s.tileOf b.core) c x (Op.reads x.g o)).isEmpty &&
    !x.resuming && x.done.isEmpty && x.sending.isEmpty && decide (k.sb.length ≤ 15 ∧ k.outstanding < 32)

theorem stands_of {b : Issue} {o : Op} {s : State} {c : CtxId} (h : stands? b o s c = true) :
    Stands b o s c := by
  simp only [stands?, Bool.and_eq_true, decide_eq_true_eq, Bool.not_eq_true', Option.isNone_iff_eq_none,
    List.isEmpty_iff, Bool.or_eq_true] at h
  obtain ⟨⟨⟨⟨⟨⟨⟨⟨⟨⟨⟨⟨⟨⟨⟨⟨⟨⟨h1, h2⟩, h3⟩, h4⟩, h5⟩, h6⟩, h7⟩, h8⟩, h9⟩, h10⟩, h11⟩, h18⟩, h19⟩, h12⟩, h13⟩,
    h14⟩, h15⟩, h17⟩, h16⟩ := h
  exact
    { alone := h1, runs := h2, moves := h3, unstopped := h4, inStore := h5, oneLine := h6
      legal := ⟨h7, h8⟩, level := fun hp => by simpa [hp] using h9
      noFault := h10, noLoad := h11, noAcquire := h18, unheld := h19, noGroupFault := h12, clean := h13, fresh := ⟨h14, h15⟩, sent := h17, room := h16 }

/-- `Ready` as a test. -/
def ready? (b : Issue) (o : Op) (s : State) (c : CtxId) : Bool :=
  stands? b o s c && ((s.ctx (s.tileOf b.core) c).endLoop
    ((s.ctx (s.tileOf b.core) c).pc.setWidth 20)).isNone

theorem ready_of {b : Issue} {o : Op} {s : State} {c : CtxId} (h : ready? b o s c = true) :
    Ready b o s c := by
  simp only [ready?, Bool.and_eq_true, Option.isNone_iff_eq_none] at h
  exact { stands_of h.1 with inBody := h.2 }

/-- Every operation of a list stands ready at context 0 of core 0. -/
def AllReady (l : List Op) (s : State) : Prop := ∀ o ∈ l, Ready b0 o s 0

theorem all_ready {l : List Op} {s : State} (h : (l.all fun o => ready? b0 o s 0) = true) :
    AllReady l s := fun o ho => ready_of (List.all_eq_true.mp h o ho)

/-- A data register of context 0 of core 0. -/
def dreg (s : State) (r : BitVec 5) : Word := (s.ctx 0 0).rd r

/-- A descriptor from its words. -/
def words (n : Nat) (l : List Word) : BitVec n := pack n l

/-! ### Scalar rows -/

/-- Registers with 7, -3, and a shift amount of 33. -/
def demo : State := running (withA (withD sys [(2, 7), (3, 0xFFFFFFFD), (4, 33)]) [(1, 0x400000), (2, 8)])

theorem witness_ScalarRegisterRows : AllReady
    [.alu .add 1 2 3, .alu .sub 1 2 3, .alu .and 1 2 3, .alu .or 1 2 3, .alu .xor 1 2 3, .alu .sll 1 2 4,
      .alu .srl 1 3 4, .alu .sra 1 3 4, .alu .min 1 2 3, .alu .max 1 2 3, .alu .minu 1 2 3,
      .alu .maxu 31 2 3, .mov 1 2, .mfp 1 0, .movd 1 15] demo := all_ready (by decide)

/-- R563: shift amounts go modulo 32, `sra` keeps the sign. -/
theorem test_sll_sra : dreg (after (.sll b0 1 2 4) demo) 1 = 14 ∧
    dreg (after (.sra b0 1 3 4) demo) 1 = 0xFFFFFFFE := by decide

/-- R563: 7 + (-3) wraps to 4, and the destination may be a source. -/
theorem test_add : dreg (after (.add b0 2 2 3) demo) 2 = 4 := by decide

theorem witness_ScalarImmediateRows : AllReady
    [.aluImm .addi 1 2 0x3FFF, .aluImm .andi 1 3 0x2000, .aluImm .ori 1 2 0x2000, .aluImm .xori 1 2 1,
      .aluImm .slli 1 2 31, .aluImm .srli 1 2 0, .aluImm .srai 1 3 1, .aluImm .slli 15 15 31,
      .aluImm .srai 3 3 1, .movi 1 0x20000, .movhi 1 0x3FFF] demo := all_ready (by decide)

/-- R564: `addi` sign-extends its immediate and `ori` does not. -/
theorem test_addi_ori : dreg (after (.addi b0 1 2 0x3FFF) demo) 1 = 6 ∧
    dreg (after (.ori b0 1 2 0x2000) demo) 1 = 0x2007 := by decide

/-- R566: `movhi` keeps bits 17 to 0. -/
theorem test_movhi : dreg (after (.movhi b0 3 1) demo) 3 = 0x7FFFD := by decide

theorem witness_PredicateRows : AllReady
    [.cmp .eq 1 2 3, .cmp .ne 0 2 3, .cmp .lt 7 2 3, .cmp .ltu 1 2 3, .cmp .le 1 2 3, .cmp .leu 1 2 3,
      .cmpa .eq 1 1 2, .cmpa .lt 1 1 2, .cmpa .le 1 1 2, .mtp 1 2, .mtp 0 2] demo := all_ready (by decide)

/-- R565: -3 < 7 as signed, and not as unsigned. -/
theorem test_cmplt : (((after (.cmplt b0 1 3 2) demo).ctx 0 0).rp 1).getLsbD 2047 = true ∧
    (((after (.cmpltu b0 1 3 2) demo).ctx 0 0).rp 1).getLsbD 2047 = false := by decide +kernel

theorem witness_MultiplyRows : AllReady
    [.mul .mul 1 2 3, .mul .mulh 1 2 3, .mul .mulhu 1 2 3, .mac .mac 7 2 3, .mac .macu 0 2 3,
      .mac .msu 1 2 3, .clrAcc 3, .movAccFrom 1 3 8, .movAcc false 1 2 31, .movAcc true 1 2 0] demo :=
  all_ready (by decide)

/-- R567: the signed and the unsigned high words of 7 × (2^32 - 3) are -1 and 6. -/
theorem test_mulh : dreg (after (.mulh b0 1 2 3) demo) 1 = 0xFFFFFFFF ∧
    dreg (after (.mulhu b0 1 2 3) demo) 1 = 6 := by decide

/-- R567: `mac` adds the signed product modulo 2^40. -/
theorem test_mac : ((after (.mac b0 7 2 3) demo).ctx 0 0).racc 7 = 0xFFFFFFFFEB := by decide

theorem witness_AddressRows : AllReady
    [.adda 1 2 3, .addaImm 15 2 0x3FFF, .suba 1 2 3, .movaD 0 3, .movaA 1 2] demo := all_ready (by decide)

/-- R568: 8 - (-3) = 11. -/
theorem test_suba : ((after (.suba b0 1 2 3) demo).ctx 0 0).ra 1 = 11 := by decide

/-! ### Scalar memory accesses -/

/-- a1 in AM, a2 in core 1's AM, a3 in HBM window 0, a4 unmapped, a5 in AM and odd; d2 holds data. -/
def mems : Ctx :=
  { withA (withD sys [(2, 0x11223344), (6, 8)])
      [(1, 0x400000), (2, 0x11400000), (3, 0x80000040), (4, 0x300000), (5, 0x400001)] with
    hbmWin := (Vector.replicate 8 0).set 0 (0x200001 : DWord) }

/-- The base register alone as the address. -/
def via (ab : BitVec 4) : MemAddr := ⟨0, ab, 0, 0⟩

/-- R101: a post-increment uses the base and adds the offset; a pre-decrement subtracts it first. -/
theorem test_modes : (mems.lm ⟨4, 1, 0xFFC, 0⟩ .word) = (0x400000, some 0x3FFFFC) ∧
    (mems.lm ⟨6, 1, 4, 0⟩ .word) = (0x3FFFFC, some 0x3FFFFC) ∧
    (mems.lm ⟨7, 1, 0, 6⟩ .half) = (0x400010, none) := by decide

/-- A store buffer with the lower 2 bytes of the word at a1. -/
def buffered : SbEntry := ⟨0x400000 / 64, [(0x400000, some 0xAA), (0x400001, some 0x80)], [0]⟩

/-- The bank holds 0xF0 at a1. -/
def banked : State := runningOn mems fun k => { k with mem := [(0x400000, 0xF0), (0x400001, 0xFF)] }

/-- The buffer holds the first half-word at a1. -/
def stored : State := runningOn mems fun k => { k with sb := [buffered] }

theorem witness_LocalLoadRows :
    (Ready b0 (.load .half 1 (via 1)) banked 0 ∧ Ready b0 (.load .half 1 (via 1)) stored 0 ∧
      Ready b0 (.load .word 1 (via 1)) stored 0) ∧
    (mems.lm (via 1) .word).1.toNat % 4 = 0 ∧ target 0 (mems.lm (via 1) .word).1 = some (.loc 0x400000) ∧
    (∀ s ∈ [banked, stored], (s.core 0).paused 0x400000 (s.rmapBank 0) = false) ∧
    ((∀ i, i < 2 → (banked.core 0).sbByte (0x400000 + i) = none) ∧
      ∀ i, i < 2 → (banked.core 0).marked (0x400000 + i) = false) ∧
    (∀ i, i < 2 → (stored.core 0).sbByte (0x400000 + i) = some ([0xAA, 0x80].getD i 0)) ∧
    (stored.core 0).sbByte 0x400000 ≠ none ∧ (stored.core 0).sbByte 0x400002 = none :=
  ⟨⟨ready_of (by decide), ready_of (by decide), ready_of (by decide)⟩, by decide⟩

/-- R569: `ld.h` sign-extends; R131: the buffer forwards, and a part of the bytes makes the load wait. -/
theorem test_load : dreg (after (.ldH b0 1 (via 1)) banked) 1 = 0xFFFFFFF0 ∧
    dreg (after (.ldH b0 1 (via 1)) stored) 1 = 0xFFFF80AA ∧
    ((after (.ldW b0 1 (via 1)) stored).ctx 0 0).pc = 0x100 := by decide

theorem witness_LocalStoreRows : Ready b0 (.store .word 2 (via 1)) stored 0 ∧
    (mems.lm (via 1) .word).1.toNat % 4 = 0 ∧ target 0 (mems.lm (via 1) .word).1 = some (.loc 0x400000) ∧
    (stored.core 0).paused 0x400000 (stored.rmapBank 0) = false := ⟨ready_of (by decide), by decide⟩

/-- R130: the lowest byte of the register goes to the lowest address. -/
theorem test_store : ((after (.stW b0 2 (via 1)) banked).core 0).sbByte 0x400000 = some 0x44 ∧
    ((after (.stW b0 2 (via 1)) banked).core 0).byte 0x400000 = 0xF0 := by decide

theorem witness_RemoteAccessRows : Ready b0 (.load .byte 1 (via 2)) banked 0 ∧
    Ready b0 (.store .word 2 (via 2)) banked 0 ∧ (mems.lm (via 2) .word).1.toNat % 4 = 0 ∧
    target 0 (mems.lm (via 2) .word).1 = some (.remote 1 0x400000) :=
  ⟨ready_of (by decide), ready_of (by decide), by decide⟩

/-- Translation on for PF0, with the 2 MiB page of the window cached at DPA 0. -/
def mapped : State :=
  let s := on (.dat 0) [(0x100, 0x80000000)] (running mems)
  { s with hbm := { s.hbm with
      units := s.hbm.units.set 0 { tlb := [⟨0, true, 1, true, 0⟩] } } }

theorem witness_HbmAccessRows :
    (∀ s ∈ [mapped, running mems, running { mems with hbmWin := Vector.replicate 8 0 }],
      AllReady [.load .word 1 (via 3), .store .word 2 (via 3)] s) ∧
    (mems.lm (via 3) .word).1.toNat % 4 = 0 ∧ target 0 (mems.lm (via 3) .word).1 = some (.hbm 0 0x40) ∧
    Ctx.windowDva { mems with hbmWin := Vector.replicate 8 0 } 0 0x40 = none ∧ mems.exl = false ∧
    mems.deferred = none ∧ mems.windowDva 0 0x40 = some 0x200040 ∧
    (∀ w, (mapped.xlate (mapped.tilePart 0) 0 0x200040 .core w 0).1 = .ok 0x40) ∧
    ∀ w, ((running mems).xlate 0 0 0x200040 .core w 0).1 = .refused 1 :=
  ⟨fun s h => by
    simp only [List.mem_cons, List.not_mem_nil, or_false] at h
    rcases h with rfl | rfl | rfl <;> exact all_ready (by decide), by decide +kernel⟩

/-- R94: the access goes to the window's base plus its offset; R135: a refused store is deferred. -/
theorem test_hbm : ((after (.stW b0 2 (via 3)) mapped).hbm.queue.map (·.dpa)) = [0x40] ∧
    ((after (.stW b0 2 (via 3)) (running mems)).ctx 0 0).deferred = some ⟨0x0D, 0x80000040, none⟩ ∧
    ((after (.ldW b0 1 (via 3)) (running mems)).ctx 0 0).ecause = 0x0D := by decide +kernel

theorem witness_ScalarAccessTraps :
    AllReady [.load .half 1 (via 5), .store .word 2 (via 5), .load .byte 1 (via 4), .store .word 2 (via 4)]
      banked ∧ mems.exl = false ∧ (mems.lm (via 5) .half).1.toNat % 2 ≠ 0 ∧
    (mems.lm (via 4) .word).1.toNat % 4 = 0 ∧ target 0 (mems.lm (via 4) .word).1 = none :=
  ⟨all_ready (by decide), by decide⟩

/-- R102, R103: a misaligned access updates its base and takes cause 0x06 with the address. -/
theorem test_misalign :
    let y := (after (.ldH b0 1 ⟨4, 5, 2, 0⟩) banked).ctx 0 0
    y.ecause = 0x06 ∧ y.eaddr = 0x400001 ∧ y.ra 5 = 0x400003 ∧ y.epc = 0x100 := by decide

/-- The first AM slot tagged, and FULL or EMPTY. -/
def tagged (full : Bool) : State := runningOn mems fun k =>
  { k with
    mem := [(0x400000, 0xF0)], tregs := [(0, ⟨6144, 1, true⟩)]
    tags := if full then [(6144, true)] else [] }

/-- The slot FULL, with context 1 waiting to take it. -/
def contested : State := (tagged true).modCore 0 fun k =>
  { k with
    ctxs := k.ctxs.set 1 { (k.ctxs.get 1) with run := .blocked, wait := .tag 0 ⟨.take, .word, 0x400000, 0, 0x400000, true⟩ 0 }
    waiters := [(0, .ctx 1)] }

/-- The base register alone as the address of a tagged access. -/
def tvia (ab : BitVec 4) : TagAddr := ⟨0, ab, 0, 0⟩

theorem witness_TaggedRows :
    (∀ f, AllReady [.tagged .peek .word 1 (tvia 1), .tagged .take .word 1 (tvia 1),
      .tagged .stT .word 2 (tvia 1), .tagged .put .word 2 (tvia 1)] (tagged f)) ∧
    (mems.tm (tvia 1) .word).1 = 0x400000 ∧ target 0 0x400000 = some (.loc 0x400000) ∧ mems.deferred = none ∧
    (∀ f, ((tagged f).core 0).paused 0x400000 ((tagged f).rmapBank 0) = false ∧
      ((tagged f).core 0).marked 0x400000 = false ∧ ((tagged f).core 0).sbOwn 0 = false ∧
      ((tagged f).core 0).tagged (slotOf 0x400000) = true ∧
      ((tagged f).core 0).contested 0 (slotOf 0x400000) = false ∧
      ((tagged f).core 0).full (slotOf 0x400000) = f) ∧
    AllReady [.tagged .take .word 1 (tvia 1)] contested ∧
    (contested.core 0).contested 0 (slotOf 0x400000) = true :=
  ⟨fun f => by cases f <;> exact all_ready (by decide), by decide, by decide, by decide, by decide,
    all_ready (by decide), by decide⟩

/-- R302: a waiter that the slot lets pass comes before a new `ld.take`. -/
theorem test_take_behind_waiter :
    ((after (.ldTake b0 .word 1 (tvia 1)) contested).ctx 0 0).block = 3 ∧
    ((after (.ldTake b0 .word 1 (tvia 1)) contested).core 0).full 6144 = true := by decide

/-- R301: `ld.take` leaves the slot EMPTY; on an EMPTY slot it is BLOCKED with code 3. -/
theorem test_take : dreg (after (.ldTake b0 .word 1 (tvia 1)) (tagged true)) 1 = 0xF0 ∧
    ((after (.ldTake b0 .word 1 (tvia 1)) (tagged true)).core 0).full 6144 = false ∧
    ((after (.ldTake b0 .word 1 (tvia 1)) (tagged false)).ctx 0 0).block = 3 := by decide

/-! ### Control and system rows -/

/-- d2 is 3, d3 is 65,536, d4 is 0, a14 a return address. -/
def flow : State := running (withA (withD sys [(2, 3), (3, 65536)]) [(14, 0x400)])

/-- Each row of `BranchRows` stands ready: a condition that holds and one that fails, and a `loop` with a
count of 3, the largest count, a count of 0,
one too large, and a body too short. -/
theorem witness_BranchRows : AllReady
    [.br 0 false 5, .br 0 true 5, .call 0 false 0xFFFFF, .call 1 false 2, .ret, .loop 3 (.reg 2) 2,
      .loop 0 (.imm 65535) 0x1FFFF, .loop 0 (.imm 0) 2, .loop 0 (.reg 4) 5, .loop 0 (.reg 3) 2, .loop 0 (.imm 1) 1] flow ∧
    (bit ((flow.ctx 0 0).rp 0) 0 ^^ false) = true ∧ (bit ((flow.ctx 0 0).rp 0) 0 ^^ true) = false ∧
    ((flow.ctx 0 0).rd 2).toNat = 3 ∧ ((flow.ctx 0 0).rd 4).toNat = 0 ∧
    65535 < ((flow.ctx 0 0).rd 3).toNat ∧ (flow.ctx 0 0).exl = false :=
  ⟨all_ready (by decide), by decide +kernel⟩

/-- R119: a branch counts words from its bundle; R120: a call leaves the next bundle's address. -/
theorem test_branch : ((after (.br b0 0 false 5) flow).ctx 0 0).pc = 0x114 ∧
    ((after (.br b0 0 true 5) flow).ctx 0 0).pc = 0x104 ∧
    ((after (.call b0 0 false 0xFFFFF) flow).ctx 0 0).pc = 0xFC ∧
    ((after (.call b0 0 false 0xFFFFF) flow).ctx 0 0).ra 14 = 0x104 ∧
    ((after (.ret b0) flow).ctx 0 0).pc = 0x400 := by decide +kernel

/-- R118: a count above 65,535 raises LOOP; a count of 3 arms the set. -/
theorem test_loop : ((after (.loop b0 0 (.reg 3) 2) flow).ctx 0 0).ecause = 0x0B ∧
    ((after (.loop b0 3 (.reg 2) 2) flow).ctx 0 0).loopAct 3 = true ∧
    (((after (.loop b0 3 (.reg 2) 2) flow).ctx 0 0).loops.get 3) = ⟨0x104, 0x108, 3⟩ := by decide

/-- Sets 0 and 1 both end at the present bundle, with counts `m` and `n`. -/
def looping (m n : BitVec 16) : State := running (Ctx.setLoopAct (Ctx.setLoopAct
  { sys with loops := ((Vector.replicate 4 {}).set 0 ⟨0x80, 0x100, m⟩).set 1 ⟨0xC0, 0x100, n⟩ } 0 true) 1
    true)

/-- Set 0 alone. -/
def lone : State := running (Ctx.setLoopAct
  { sys with loops := (Vector.replicate 4 {}).set 0 ⟨0x80, 0x100, 1⟩ } 0 true)

theorem witness_LoopEnd : (Stands b0 .nop (looping 2 2) 0 ∧ Stands b0 .nop lone 0) ∧
    (∀ s ∈ [looping 2 2, lone], (s.ctx 0 0).overlap = false) ∧
    ((looping 2 2).ctx 0 0).loopAct 1 = true ∧ (((looping 2 2).ctx 0 0).loops.get 1).le = 0x100 ∧
    (∀ j : Fin 4, 1 < j → ((looping 2 2).ctx 0 0).loopAct j.val = false) ∧
    (lone.ctx 0 0).loopAct 0 = true ∧ (∀ j : Fin 4, 0 < j → (lone.ctx 0 0).loopAct j.val = false) ∧
    ((lone.ctx 0 0).loops.get 0).lc.toNat ≤ 1 :=
  ⟨⟨stands_of (by decide), stands_of (by decide)⟩, by decide⟩

/-- R121: the inner set decides; when it is used up, the outer one does. -/
theorem test_loop_end : ((after (.nop b0) (looping 2 2)).ctx 0 0).pc = 0xC0 ∧
    ((after (.nop b0) (looping 2 1)).ctx 0 0).pc = 0x80 ∧ ((after (.nop b0) lone).ctx 0 0).pc = 0x104 := by
  decide

/-- A store that its context has not seen acknowledged, and one in the buffer. -/
def unsettled : State := runningOn { sys with stores := 1 } fun k => { k with sb := [buffered] }

/-- Context 1 is READY and context 0 ran last. -/
def shared : State := runningOn sys fun k =>
  { k with last := 0, quantum := 4096, ctxs := k.ctxs.set 1 { ({} : Ctx) with run := .ready } }

theorem witness_ControlRows :
    (AllReady [.nop, .fenceSp, .fenceRm, .ifl, .yield] demo ∧ AllReady [.fenceSp, .fenceRm] unsettled ∧
      Ready b0 .yield shared 0) ∧
    (demo.ctx 0 0).deferred = none ∧ (demo.ctx 0 0).stores = 0 ∧ (demo.core 0).sb = [] ∧
    (unsettled.ctx 0 0).stores ≠ 0 ∧ (unsettled.core 0).sb ≠ [] ∧
    (∀ d : CtxId, d ≠ 0 → (demo.ctx 0 d).run = .idle) ∧
    (∀ d : CtxId, d ≠ 0 → (shared.ctx 0 d).run ≠ .running) ∧ (shared.core 0).last = 0 ∧
    (shared.ctx 0 1).run = .ready :=
  ⟨⟨all_ready (by decide), all_ready (by decide), ready_of (by decide)⟩, by decide⟩

theorem witness_SystemRegisterReads : ∀ sr, Ready b0 (.mfsr 1 sr) demo 0 :=
  fun sr => ready_of (by revert sr; decide)

theorem witness_SystemRegisterWrites : (∀ sr, Ready b0 (.mtsr sr 2) demo 0) ∧
    (∀ i : Fin 4, Ctx.endLoop { demo.ctx 0 0 with loops := (demo.ctx 0 0).loops.set 0 { lc := i.val } } 0x100
      = none) ∧ Ctx.endLoop { demo.ctx 0 0 with status := 7 } 0x100 = none :=
  ⟨fun sr => ready_of (by revert sr; decide), by decide⟩

/-- R88: EXCBASE keeps bits 19 to 6; a read-only register keeps its value. -/
theorem test_mtsr : ((after (.mtsr b0 5 3) demo).ctx 0 0).excbase = 0xFFFC0 ∧
    dreg (after (.mfsr b0 1 0) (after (.mtsr b0 0 3) demo)) 1 = 0 := by decide

/-- In a handler: EXL set, PPRIV clear, EPC at a bundle. -/
def handling : State := running { sys with status := 5, epc := 0x240 }

/-- Tag region 1 over the first two AM slots, raw. -/
def region : State := runningOn (withD sys [(2, 1)]) fun k => { k with tregs := [(1, ⟨6144, 2, false⟩)] }

/-- The same beside a tagged region that meets it. -/
def clash : State := runningOn (withD sys [(2, 1)]) fun k =>
  { k with tregs := [(0, ⟨6145, 1, true⟩), (1, ⟨6144, 2, false⟩)] }

/-- The same with a store of the context in the buffer. -/
def buffering : State := runningOn (withD sys [(2, 1)]) fun k => { k with sb := [buffered] }

theorem witness_SystemRows :
    (AllReady [.irqOn, .irqOff, .ctxReset] demo ∧ Ready b0 .eret handling 0 ∧
      ∀ s ∈ [region, clash, buffering], AllReady [.tagmode 2 0, .tagmode 2 1, .tagmode 2 2] s) ∧
    (handling.ctx 0 0).deferred = none ∧ (region.core 0).sbOwn 0 = false ∧
    (region.core 0).tagCode 1 = 0 ∧ (clash.core 0).tagCode 1 ≠ 0 ∧ (clash.core 0).sbOwn 0 = false ∧
    (buffering.core 0).sbOwn 0 = true :=
  ⟨⟨all_ready (by decide), ready_of (by decide), fun s h => by
    simp only [List.mem_cons, List.not_mem_nil, or_false] at h
    rcases h with rfl | rfl | rfl <;> exact all_ready (by decide)⟩, by decide⟩

/-- R84: `eret` goes to EPC at the level that PPRIV holds; R306: a region made FULL. -/
theorem test_eret_tagmode : ((after (.eret b0) handling).ctx 0 0).pc = 0x240 ∧
    ((after (.eret b0) handling).ctx 0 0).status = 0 ∧
    ((after (.tagmode b0 2 2) region).core 0).tags = [(6144, true), (6145, true)] ∧
    ((after (.tagmode b0 2 1) clash).core 0).setup = 0x04 := by decide

/-- A context at user level. -/
def user : State := running (withA { sys with status := 0 } [(1, 0x800)])

theorem witness_PrivilegedAtUserLevel :
    (∀ o ∈ [Op.outp 2 0x800, .mfsr 1 0, .mtsr 1 2, .tagmode 2 2, .eret, .ctxReset, .irqOn, .irqOff],
      Stands b0 o (user.modCtx 0 0 fun y => { y with status := y.status ||| 1 }) 0) ∧
    Stands b0 (.out 2 (via 1)) user 0 ∧ (user.ctx 0 0).priv = false ∧ (user.ctx 0 0).exl = false ∧
    ((user.ctx 0 0).lm (via 1) .word).1 = 0x800 :=
  ⟨fun o h => by
    simp only [List.mem_cons, List.not_mem_nil, or_false] at h
    rcases h with rfl | rfl | rfl | rfl | rfl | rfl | rfl | rfl <;> exact stands_of (by decide),
    stands_of (by decide), by decide⟩

/-- R83: the cause and the bundle's address are saved, and the context goes to EXCBASE at system level. -/
theorem test_privileged : ((after (.irqOn b0) user).ctx 0 0).ecause = 0x03 ∧
    ((after (.irqOn b0) user).ctx 0 0).epc = 0x100 ∧ ((after (.irqOn b0) user).ctx 0 0).pc = 0 ∧
    ((after (.irqOn b0) user).ctx 0 0).status = 5 := by decide

theorem witness_ExceptionEntry : (demo.ctx 0 0).exl = false ∧ (handling.ctx 0 0).exl = true := by decide

/-- R85: an exception in a handler halts the context, with the cause and the double-fault bit. -/
theorem test_double_fault : ((after (.loop b0 0 (.imm 1) 1) handling).ctx 0 0).run = .halted ∧
    ((after (.loop b0 0 (.imm 1) 1) handling).ctx 0 0).excCause = 0x20B := by decide


/-- R366, R132: in a bundle `st.w ; ctx.end` the store goes first, and the job does not end before it has drained. -/
theorem test_own_store_first :
    let s := after (.stW ⟨0, none, [0x9C000006], 0⟩ 2 (via 1)) (runningOn (withA sys [(1, 0x400080)]) id)
    (s.ctx 0 0).run = .running ∧ (s.ctx 0 0).pc = 0x100 ∧ (s.ctx 0 0).done = [(0, 0)] ∧ (s.core 0).sbOwn 0 = true := by
  decide +kernel

/-- R105: `add` of d20 has no short form, so it is undefined beside a short operation. -/
theorem test_short_reach : Op.shortForm (.alu .add 20 20 3) = false ∧ Op.shortForm (.alu .add 4 4 3) = true ∧
    ((after (.add ⟨0, some 0, [], 0⟩ 20 20 3) (running sys)).ctx 0 0).ecause = 0x01 := by decide

/-- R332: the channel is that of what the data register holds. -/
theorem test_dma_channel :
    (((after (.dma b0 3 (via 1)) (on (.dma 0) [] (runningOn (withD (withA sys [(1, 0x400080)]) [(3, 13)]) id))).core
      0).dma.get 5).run = .ready := by decide +kernel
/-! ### IO, engine registers, credits and synchronisation -/

/-- a1 names an IO address, d2 holds data. -/
def io (a : Nat) (v : Word) : Ctx := withA (withD sys [(2, v)]) [(1, BitVec.ofNat 32 a)]

/-- A mailbox that is enabled for function 0, with credits, and one that grants. -/
def boxes : Tab Mbx := [(0, { base := 0x400000, size := 1, sender := 0x3F, en := true, credit := 5, grant := 2 }),
  (63, { en := true, func := 1 })]

/-- Core 0 with those mailboxes, region 1 tagged, and channel 7 moving. -/
def devices (x : Ctx) : State := runningOn x fun k =>
  { k with
    mbx := boxes, tregs := [(1, ⟨6144, 1, true⟩)]
    dma := k.dma.set 7 { ({} : DmaCh) with run := .active } }

/-- The first and last addresses of every clause of the statement on `in`. -/
def inAddresses : List Nat :=
  [0, 4, 8, 0xC, 0x10, 0xFC, 0x100, 0x11C, 0x1E0, 0x1FC, 0x200, 0x204, 0x208, 0x20C, 0x210, 0x214, 0x218,
    0x21C, 0x220, 0x3FC, 0x400, 0x4FC, 0x500, 0x7FC, 0x800, 0x83C, 0x840, 0x8FC, 0x900, 0x97C, 0x980, 0x984,
    0x9FC, 0xA00, 0xBFC, 0xC00, 0xEFC, 0xF00, 0xF08, 0xF0C, 0xF10, 0x801, 0x1000]

theorem witness_IoReadRows :
    (∀ a ∈ inAddresses, Ready b0 (.inp 3 (via 1)) (devices (io a 0)) 0) ∧
    (∀ a ∈ inAddresses, ((io a 0).lm (via 1) .word).1.toNat = a) ∧
    (∀ ch : Fin 8, ((io (0x100 + 32 * ch) 0).lm (via 1) .word).1.toNat = 0x100 + 32 * ch) ∧
    ((devices (io 0 0)).core 0).mtx.queue.length ≤ 8 ∧ ((devices (io 0 0)).core 0).str.queue.length ≤ 8 ∧
    (io 0 0).exl = false :=
  ⟨fun a h => ready_of (List.all_eq_true.mp
    (show (inAddresses.all fun a => ready? b0 (.inp 3 (via 1)) (devices (io a 0)) 0) = true by
      decide +kernel) a h), by decide⟩

/-- R97: a credit word reads GRANT over CREDIT; an address with no register raises IOSPACE. -/
theorem test_in : dreg (after (.inp b0 3 (via 1)) (devices (io 0x400 0))) 3 = 0x00020005 ∧
    ((after (.inp b0 3 (via 1)) (devices (io 0xC00 0))).ctx 0 0).ecause = 0x07 := by decide

theorem witness_IoWriteRows :
    (∀ a ∈ [0, 0xC, 0x204, 0x218, 0x100, 0x1FC, 0x400, 0x800, 0xFFC, 0x7FF, 0x1000],
      Ready b0 (.out 2 (via 1)) (devices (io a 1)) 0 ∧ ((io a 1).lm (via 1) .word).1.toNat = a) ∧
    (∀ a ∈ [0x800, 0x83C, 0xF00, 0x900, 0x97C, 0xA00, 0xBFC, 0x7FC, 0x801], Ready b0 (.outp 2 a)
      (devices (io 0 1)) 0) ∧
    (∀ a ∈ [0x400, 0x4FC], Ready b0 (.outAt 2 a) (devices (io 0 1)) 0 ∧ Ready b0 (.outAt 2 a) user 0) ∧
    (let k := (devices (io 0 1)).core 0
     (k.mb 0).en = true ∧ (k.mb 1).en = false ∧ (k.mb 0).func.toNat = 0 ∧ (k.dma.get 0).run = .idle ∧
       (k.dma.get 7).run ≠ .idle ∧ (k.dma.get 7).func = 0 ∧ (k.treg 1).tagged = true ∧
       (k.treg 0).tagged = false ∧ (k.mb 0).grant ≠ 0) ∧
    (user.ctx 0 0).priv = false ∧ (user.ctx 0 0).exl = false ∧
    (let k := (runningOn { sys with status := 0 } fun k => { k with mbx := boxes }).core 0
     (k.mb 63).func.toNat ≠ 0) :=
  ⟨fun a h => by
    simp only [List.mem_cons, List.not_mem_nil, or_false] at h
    rcases h with rfl | rfl | rfl | rfl | rfl | rfl | rfl | rfl | rfl | rfl | rfl <;>
      exact ⟨ready_of (by decide), by decide⟩,
    fun a h => by
    simp only [List.mem_cons, List.not_mem_nil, or_false] at h
    rcases h with rfl | rfl | rfl | rfl | rfl | rfl | rfl | rfl | rfl <;> exact ready_of (by decide),
    fun a h => by
    simp only [List.mem_cons, List.not_mem_nil, or_false] at h
    rcases h with rfl | rfl <;> exact ⟨ready_of (by decide), ready_of (by decide)⟩, by decide⟩

/-- The mailbox clauses: its words may leave it as it is, lie outside a memory, off a line, or on another
mailbox. -/
theorem witness_IoWriteRows_mailbox :
    localRange 0x300000 64 = false ∧ localRange 0x400000 64 = true ∧ (0x400020 : Nat) % 64 ≠ 0 ∧
    ((boxes.map fun e => e.2.en) = [true, true]) := by decide

/-- R309: `out` to the privileged half raises PRIV; R97: a write of CREDIT keeps GRANT. -/
theorem test_out : ((after (.out b0 2 (via 1)) (devices (io 0x800 1))).ctx 0 0).ecause = 0x03 ∧
    (((after (.out b0 2 (via 1)) (devices (io 0x400 9))).core 0).mb 0) =
      { base := 0x400000, size := 1, sender := 0x3F, en := true, credit := 9, grant := 2 } := by decide

/-- Tracker 5's word 3 selected with INC. -/
def window (sel v : Word) : State := running { withD sys [(2, v)] with trkSel := sel }

theorem witness_TrackerWindowRows :
    (∀ sel ∈ [(0x2005 : Word), 0x0305, 0x3FFF], AllReady [.inAt 3 0xF04, .outp 2 0xF04, .outp 2 0xF08,
      .outp 2 0xF0C] (window sel 0x0200FE)) ∧
    ((window 0x2005 0).core 0).mtx.trackerBusy 5 = false :=
  ⟨fun a h => by
    simp only [List.mem_cons, List.not_mem_nil, or_false] at h
    rcases h with rfl | rfl | rfl <;> exact all_ready (by decide), by decide⟩

/-- R234: INC goes from word 31 to the next tracker's word 0. -/
theorem test_inc : ((after (.trkDataRead b0 3) (window 0x3F05 0)).ctx 0 0).trkSel = 0x2006 := by decide

/-- The engines' pages enabled, a1 at a line of AM, 8 jobs in both queues where `full`, and channel 0 in
state `run` of function 0 with a pending slot that is taken. -/
def engines (full : Bool) (run : DmaRun) : State :=
  let q : DmaCmd := ⟨.copied, 0, 0, 0, 0, Vector.replicate 8 0, none⟩
  let j : MtxJob := { desc := 0, seq := 0, ctx := 0, func := 0, stage := .queued, status := 0, errAddr := 0, clipped := 0, tile := none, sums := [] }
  let st : Stripe := ⟨0, 0, 0, 0, .waiting, 0, 0, 0, false, none⟩
  let s := runningOn (withA sys [(1, 0x400080)]) fun k =>
    { k with
      dma := k.dma.set 0 { ({} : DmaCh) with run := run, pend := if full then some q else none }
      mtx := if full then { k.mtx with queue := List.replicate 8 j } else k.mtx
      str := if full then { k.str with queue := List.replicate 8 st } else k.str }
  on (.dma 0) [] (on (.mtx 0) [] (on (.stripe 0) [] s))

theorem witness_CommandRows :
    (∀ f r, r = .idle ∨ r = .active ∨ r = .error → AllReady [.mjob 3 (via 1), .sjob 3 (via 1),
      .dma 0 (via 1), .dmac 0 (via 1)] (engines f r)) ∧
    (let s := engines false .idle
     localOk 0x400080 = true ∧ (s.core 0).sbOwn 0 = false ∧
       s.spanHeld 0 0x400080 128 = false ∧ s.spanHeld 0 0x400080 64 = false ∧
       (∀ i, i < 128 → (s.core 0).marked (0x400080 + i) = false) ∧
       (s.board.map.get 0).mtxOut = false ∧ s.enabled (.mtx 0) = true ∧ s.enabled (.stripe 0) = true ∧
       s.enabled (.dma 0) = true ∧ ((s.core 0).dma.get 0).run = .idle ∧ (s.ctx 0 0).exl = false) ∧
    (((engines true .active).core 0).mtx.queue.length = 8 ∧
      ((engines true .active).core 0).str.queue.length = 8 ∧
      (((engines true .active).core 0).dma.get 0).pend ≠ none ∧
      (((engines false .active).core 0).dma.get 0).pend = none) ∧
    (0x400040 : Nat) % 128 ≠ 0 ∧ localOk 0x400040 = true :=
  ⟨fun f r h => by cases f <;> rcases h with rfl | rfl | rfl <;> exact all_ready (by decide), by decide⟩

/-- R189: the queue answers the sequence number and counts on; R264: a full queue blocks with code 6. -/
theorem test_mjob : ((after (.mjob b0 3 (via 1)) (engines false .idle)).core 0).mtx.next = 1 ∧
    (((after (.mjob b0 3 (via 1)) (engines false .idle)).core 0).mtx.queue.map (·.seq)) = [0] ∧
    ((after (.sjob b0 3 (via 1)) (engines true .idle)).ctx 0 0).block = 6 := by decide

/-- The engine registers with data `v` in d2. -/
def regs (v : Word) (run : DmaRun) (f : Func) (level : Word) : State :=
  on (.dma 0) [] (runningOn { withD sys [(2, v)] with status := level } fun k =>
    { k with dma := k.dma.set 0 { ({} : DmaCh) with run := run, func := f } })

theorem witness_EngineRegisterRows :
    (∀ v ∈ [(1 : Word), 2, 4, 0x72], ∀ r ∈ [DmaRun.idle, .ready, .parked, .error],
      AllReady [.outAt 2 0x20C, .outAt 2 0x21C, .outAt 2 0x118] (regs v r 0 1)) ∧
    Ready b0 (.outAt 2 0x1F8) (regs 1 .idle 0 1) 0 ∧ Ready b0 (.outAt 2 0x118) (regs 1 .active 1 0) 0 ∧
    ((regs 1 .idle 0 1).core 0).sbOwn 0 = false ∧ (regs 1 .idle 0 1).enabled (.dma 0) = true ∧
    (((regs 1 .active 1 0).core 0).dma.get 0).func ≠ ((regs 1 .active 1 0).ctx 0 0).func ∧
    ((regs 1 .active 1 0).ctx 0 0).priv = false ∧ ((regs 1 .active 1 0).ctx 0 0).exl = false :=
  ⟨fun v h r h' => by
    simp only [List.mem_cons, List.not_mem_nil, or_false] at h h'
    rcases h with rfl | rfl | rfl | rfl <;> rcases h' with rfl | rfl | rfl | rfl <;>
      exact all_ready (by decide), ready_of (by decide), ready_of (by decide), by decide⟩

/-- R273: TRIG selects and raises a stream; R343: RING of a parked channel reads its link again. -/
theorem test_trig_ring : (((after (.sqTrig b0 2) (regs 0x72 .idle 0 1)).core 0).str.streams.get 7).trigs = 1 ∧
    (((after (.dmaRing b0 2 0) (regs 4 .parked 0 1)).core 0).dma.get 0).phase = .link := by decide

/-- Mailbox 0 of the own core: `data` in d2. -/
def credit (data : Word) : State := devices (io 0x400 data)

theorem witness_CreditRows :
    (∀ v ∈ [(0x000500 : Word), 0x000600, 0x01000300, 1, 31], AllReady [.crget 2 (via 1), .crput 2 (via 1)]
      (credit v)) ∧ Ready b0 (.crget 2 (via 1)) (devices (io 0x4FC 0x100)) 0 ∧
    ((io 0x4FC 0).lm (via 1) .word).1.toNat = 0x4FC ∧
    (let s := credit 0x500
     (s.core 0).sbOwn 0 = false ∧ (s.ctx 0 0).stores = 0 ∧ (s.core 0).loading 0 = false ∧
       (s.ctx 0 0).deferred = none ∧ ((s.core 0).mb 0).en = true ∧ ((s.core 0).mb 63).func ≠ 0) :=
  ⟨fun a h => by
    simp only [List.mem_cons, List.not_mem_nil, or_false] at h
    rcases h with rfl | rfl | rfl | rfl | rfl <;> exact all_ready (by decide), ready_of (by decide),
    by decide⟩

/-- R310: 5 of 5 credits are granted, 6 are not; 3 returned of 2 granted give back 2. -/
theorem test_credit : dreg (after (.crget b0 2 (via 1)) (credit 0x500)) 2 = 1 ∧
    dreg (after (.crget b0 2 (via 1)) (credit 0x600)) 2 = 0x00050000 ∧
    dreg (after (.crput b0 2 (via 1)) (credit 0x01000300)) 2 = 0x00070001 := by decide

/-- Function 0 owns the objects of page 0; a1 names object 1, a2 none of the objects. -/
def objects (x : Ctx) : State :=
  on .sync [(0x40, 1 <<< 6)] (running (withA x [(1, 0x40008), (2, 0x50000)]))

theorem witness_SyncRows :
    (∀ ab ∈ [(1 : BitVec 4), 2], AllReady [.sync .add 4 ab 0, .sync .set 4 ab 0, .sync .cas 4 ab 0,
      .sync .wait 4 ab 0, .sync .rd 4 ab 0] (objects sys) ∧
      AllReady [.sync .add 4 ab 0, .sync .set 4 ab 0, .sync .cas 4 ab 0]
        (objects { sys with stores := 1 })) ∧
    (objects sys).syncOwner 1 = some 0 ∧ (sys.deferred = none ∧ sys.stores = 0 ∧ sys.exl = false) ∧
    ((objects sys).core 0).sbOwn 0 = false ∧ ((objects sys).ctx 0 0).ra 1 = 0x40008 ∧
    ((objects sys).ctx 0 0).ra 2 = 0x50000 :=
  ⟨fun a h => by
    simp only [List.mem_cons, List.not_mem_nil, or_false] at h
    rcases h with rfl | rfl <;> exact ⟨all_ready (by decide), all_ready (by decide)⟩, by decide⟩

/-- R383: `sync.wait` blocks with code 4, `sync.add` goes on; R385: no object raises IOSPACE. -/
theorem test_sync : ((after (.syncWait b0 4 1 0) (objects sys)).ctx 0 0).block = 4 ∧
    ((after (.syncAdd b0 4 1 0) (objects sys)).ctx 0 0).pc = 0x104 ∧
    ((after (.syncRd b0 4 2 0) (objects sys)).ctx 0 0).ecause = 0x07 := by decide

/-! ### Vector rows -/

/-- VL 4 with bytes; v1 holds 1, 2, 3, 0x84 and v2 holds 0x7F each; d3 is 2. -/
def lanes : Ctx :=
  { withA (withD sys [(2, 2), (3, 2)]) [(1, 0x400000)] with
    vl := 4
    v := ((Vector.replicate 32 0).set 1 (0x84030201 : VReg)).set 2 (0x7F7F7F7F : VReg) }

/-- A context that runs on them. -/
def vec : State := running lanes

/-- A byte of a vector register of context 0 of core 0. -/
def lane (s : State) (r : BitVec 5) (i : Nat) : BitVec 8 := (s.ctx 0 0).elt r 8 i

theorem witness_VectorIntegerRows :
    (∀ fn ∈ [VIntFn.add, .sub, .adds, .addus, .subs, .subus, .and, .or, .xor, .min, .max, .minu, .maxu,
      .sll, .sra, .srl, .mulq, .mulh, .avg], AllReady [.vint fn 3 1 2 0 0, .vint fn 31 1 2 7 2] vec) ∧
    (∀ fn ∈ [VImmFn.addi, .slli, .srai, .srli, .movi], AllReady [.vimm fn 3 1 0 0 0x3F] vec) ∧
    AllReady [.vimm .movi 3 0 0 0 1, .vun .abs 3 1 0 0, .vun .neg 3 1 0 0, .vun .mov 15 1 0 0,
      .vnarrow .narrow 3 7 8 0 0, .vnarrow .narrowu 3 7 8 0 0, .vnarrow .narrowd 3 7 2 0 0] vec :=
  ⟨fun fn h => by
    simp only [List.mem_cons, List.not_mem_nil, or_false] at h
    rcases h with rfl | rfl | rfl | rfl | rfl | rfl | rfl | rfl | rfl | rfl | rfl | rfl | rfl | rfl | rfl |
      rfl | rfl | rfl | rfl <;> exact all_ready (by decide),
    fun fn h => by
    simp only [List.mem_cons, List.not_mem_nil, or_false] at h
    rcases h with rfl | rfl | rfl | rfl | rfl <;> exact all_ready (by decide), all_ready (by decide)⟩

/-- R157: 1 + 127 wraps, and saturates to 127; element 4 is past VL and stays. -/
theorem test_vadd : lane (after (.vadd b0 3 1 2 0 0) vec) 3 0 = 0x80 ∧
    lane (after (.vadds b0 3 1 2 0 0) vec) 3 0 = 0x7F ∧
    lane (after (.vadd b0 1 2 2 0 0) vec) 1 4 = 0 := by decide +kernel

/-- R163: the nearest integer, the even one of two. -/
theorem test_cround : cround 5 1 = 2 ∧ cround 7 1 = 4 ∧ cround (-5) 1 = -2 ∧ cround (-3) 2 = -1 ∧
    satS 8 200 = 127 ∧ satU 8 (-1) = 0 := by decide

theorem witness_VectorAccumulatorRows :
    (∀ fn ∈ [VMacFn.h, .hsu, .huu, .msuH, .b, .bsu, .buu, .msuB], Ready b0 (.vmac fn 7 1 2 0) vec 0) ∧
    AllReady [.vacc .clr 7 0 0 0, .vacc .movVa 7 1 23 0, .vacc .movVau 0 1 0 0, .vdwin 7 1,
      .vdwmac 6 0 1 0 0 false false true, .vdwmac 0 7 1 0 3 true true false] vec :=
  ⟨fun fn h => by
    simp only [List.mem_cons, List.not_mem_nil, or_false] at h
    rcases h with rfl | rfl | rfl | rfl | rfl | rfl | rfl | rfl <;> exact ready_of (by decide),
    all_ready (by decide)⟩

/-- R158: the first byte pair of `vmac.b` is 1 × 127 + 2 × 127. -/
theorem test_vmac : ((after (.vmacB b0 7 1 2 0) vec).ctx 0 0).aelt 7 0 = 381 := by decide +kernel

theorem witness_VectorFloatRows :
    (∀ fn ∈ [VFpFn.add, .sub, .mul, .fma, .fms, .min, .max], AllReady [.vfp fn 3 1 2 0 0, .vfp fn 3 1 2 0 1]
      vec) ∧ AllReady [.vfp .abs 3 1 0 0 0, .vfp .neg 3 1 0 7 1, .vext 3 1 2 0 0, .vins 3 1 2 0 0] vec ∧
    ∀ fn ∈ [VCvtFn.sW, .wS, .sBf, .bfS, .sE4, .sE5, .e4S, .e5S, .hB, .hBu], Ready b0 (.vcvt fn 3 1 0) vec 0 :=
  ⟨fun fn h => by
    simp only [List.mem_cons, List.not_mem_nil, or_false] at h
    rcases h with rfl | rfl | rfl | rfl | rfl | rfl | rfl <;> exact all_ready (by decide),
    all_ready (by decide), fun fn h => by
    simp only [List.mem_cons, List.not_mem_nil, or_false] at h
    rcases h with rfl | rfl | rfl | rfl | rfl | rfl | rfl | rfl | rfl | rfl <;> exact ready_of (by decide)⟩

/-- IEEE 754 single precision: 1 + 2 = 3, 1.5 × 1.5 = 2.25, and an integer that rounds to even. -/
theorem test_fp : fp32.pack ((fp32.unpack 0x3F800000).add (fp32.unpack 0x40000000)) = 0x40400000 ∧
    fp32.pack ((fp32.unpack 0x3FC00000).mul (fp32.unpack 0x3FC00000)) = 0x40100000 ∧
    toF32 (.ofInt 16777217) = 0x4B800000 := by decide +kernel

/-- R162: the largest finite values of the narrow formats are 448 and 57,344; other patterns are kept. -/
theorem witness_RoundingAndFormats : packE4 (f32 0x43E00000) = 0x7E ∧ packE5 (f32 0x47600000) = 0x7B ∧
    fp32.unpack 1 ≠ .nan ∧ bf16.unpack 0x8000 ≠ .nan ∧ unpackE4 0x81 ≠ .nan ∧
    (e5m2.unpack 0x7B ≠ .nan ∧ ∀ n, e5m2.unpack 0x7B ≠ .inf n) := by decide +kernel

theorem witness_VectorLengthAndPredicateRows :
    AllReady [.vsetl 3 2 0 3, .vsetl 3 2 2 0, .vsetlR 2, .vgetl 3, .vcmp .eq 1 1 2 0 0, .vcmp .lt 0 1 2 0 0,
      .vcmp .ltu 1 1 2 0 0, .vcmp .le 1 1 2 0 0, .vcmp .feq 1 1 2 0 0, .vcmp .flt 1 1 2 0 1,
      .pred .and 1 2 3 0 0, .pred .or 0 2 3 0 0, .pred .xor 1 2 3 0 0, .pred .not 1 2 0 0 0, .pred .any 1 2 0 0 0,
      .pred .all 7 2 0 7 0, .pcnt 3 0 0 0] vec := all_ready (by decide)

/-- R143: 16-bit elements in groups of 2: 256 at most. -/
theorem test_vsetl : dreg (after (.vsetl b0 3 2 1 1) (running (withD sys [(2, 300)]))) 3 = 256 ∧
    dreg (after (.vsetl b0 3 2 1 1) vec) 3 = 2 := by decide +kernel

/-- R159: `pcnt` counts the set bits of the active elements, VL of them in p0. -/
theorem test_pcnt : dreg (after (.pcnt b0 3 0 0) vec) 3 = 4 := by decide +kernel

theorem witness_VectorPermuteAndLookupRows :
    (∀ fn ∈ [VPermFn.perm, .slideup, .slidedn, .zipLo, .zipHi, .unzipE, .unzipO], Ready b0
      (.vperm fn 3 1 2 0 0) vec 0) ∧
    AllReady [.vperm .rev 3 1 0 0 0, .vperm .trn 3 1 0 0 0, .vperm .bcast 3 2 0 0 0, .vlut false 0 3 1 0 0,
      .vlut true 1 3 1 0 1] vec :=
  ⟨fun fn h => by
    simp only [List.mem_cons, List.not_mem_nil, or_false] at h
    rcases h with rfl | rfl | rfl | rfl | rfl | rfl | rfl <;> exact ready_of (by decide),
    all_ready (by decide)⟩

/-- R160: the reversal of 4 elements, and a zip of the low halves. -/
theorem test_vrev : lane (after (.vrev b0 1 1 0 0) vec) 1 0 = 0x84 ∧
    lane (after (.vzipLo b0 3 1 2 0 0) vec) 3 2 = 2 ∧
    lane (after (.vzipLo b0 3 1 2 0 0) vec) 3 1 = 0x7F := by decide +kernel

theorem witness_VectorReductionRows :
    (∀ fn ∈ [VRedFn.sum, .sumu, .max, .min, .bexp, .fsum], Ready b0 (.vred fn 3 1 0 0 0) vec 0) ∧
    (∀ fn ∈ [VRedFn.maxi, .mini, .fmaxi, .fmini], Ready b0 (.vred fn 3 1 4 0 0) vec 0) ∧
    Ready b0 (.vred .bexpAcc 3 7 0 0 0) vec 0 ∧ (min 4 (2048 / 32) ≤ 2 ^ 2 ∧ ∀ j, j < 2 → ¬ 4 ≤ 2 ^ j) :=
  ⟨fun fn h => by
    simp only [List.mem_cons, List.not_mem_nil, or_false] at h
    rcases h with rfl | rfl | rfl | rfl | rfl | rfl <;> exact ready_of (by decide),
    fun fn h => by
    simp only [List.mem_cons, List.not_mem_nil, or_false] at h
    rcases h with rfl | rfl | rfl | rfl <;> exact ready_of (by decide), ready_of (by decide), by decide⟩

/-- R161: 1 + 2 + 3 - 124, the lowest element and its index, and no spare bit beside -124. -/
theorem test_vred : dreg (after (.vredsum b0 3 1 0 0) vec) 3 = 0xFFFFFF8A ∧
    dreg (after (.vmini b0 3 1 4 0 0) vec) 4 = 3 ∧ dreg (after (.vbexp b0 3 1 0 0) vec) 3 = 0 := by
  decide +kernel

/-- The same lanes with elements of `sew` at a1. -/
def at_ (a : Word) (sew : BitVec 2) (stride : Word) : Ctx :=
  { withA (withD lanes [(6, stride), (7, stride)]) [(1, a)] with sew := sew }

theorem witness_VectorMemoryRows :
    (∀ st, AllReady [.vmem .unit st 1 1 0 (.imm 0), .vmem .strided st 1 1 0 (.reg 6 0),
      .vmem .twoD st 1 1 0 (.reg 6 0), .vmem .indexed st 1 1 0 (.reg 2 0)] (running (at_ 0x400000 0 1)) ∧
      AllReady [.vmem .unit st 1 1 0 (.imm 0)] (running (at_ 0x2FFFFE 0 1)) ∧
      AllReady [.vmem .unit st 1 1 0 (.imm 0)] (running (at_ 0x400001 1 1)) ∧
      AllReady [.vmem .strided st 1 1 0 (.reg 6 0)] (running (at_ 0x400000 0 2048))) ∧
    -- every element lies in AM, and one bank holds them in one row
    ((at_ 0x400000 0 1).vaddr .strided 1 (.reg 6 0)).aligned = true ∧
    (∀ i, i < 4 → target 0 (((at_ 0x400000 0 1).vaddr .strided 1 (.reg 6 0)).addr i) =
      some (.loc (0x400000 + i)) ∧ (0x400000 + i) / 64 = 0x10000) ∧
    -- an odd base; two rows of one bank; the lowest unmapped element
    ((at_ 0x400001 1 1).vaddr .unit 1 (.imm 0)).aligned = false ∧
    (bankOf 0x400000 = bankOf 0x400800 ∧ (0x400000 : Nat) / 64 ≠ 0x400800 / 64) ∧
    (target 0 (((at_ 0x2FFFFE 0 1).vaddr .unit 1 (.imm 0)).addr 1) = some (.loc 0x2FFFFF) ∧
      target 0 (((at_ 0x2FFFFE 0 1).vaddr .unit 1 (.imm 0)).addr 2) = none) ∧
    (AllReady [.vlutMem false 1 1 (.imm 0), .vlutMem true 1 1 (.imm 0)] (running (at_ 0x400000 0 1)) ∧
      AllReady [.vlutMem true 0 1 (.imm 0)] (running (at_ 0x400001 0 1)) ∧
      AllReady [.vlutMem false 0 1 (.imm 0)] (running (at_ 0x2FFFC0 0 1))) ∧
    localRange 0x400000 1024 = true ∧ localRange 0x2FFFC0 1024 = false :=
  ⟨fun st => by cases st <;> exact ⟨all_ready (by decide), all_ready (by decide), all_ready (by decide),
    all_ready (by decide)⟩, by decide, by decide, by decide, by decide, by decide,
    ⟨all_ready (by decide), all_ready (by decide), all_ready (by decide)⟩, by decide, by decide⟩

/-- R174: two rows of one bank raise BANKCF; R181: element 2 faults, and VELEM names it and its group. -/
theorem test_vector_traps :
    ((after (.stridedLoad b0 3 1 0 6) (running (at_ 0x400000 0 2048))).ctx 0 0).ecause = 0x08 ∧
    ((after (.vld b0 3 1 0 (.imm 0)) (running (at_ 0x2FFFFE 0 1))).ctx 0 0).ecause = 0x0C ∧
    ((after (.vld b0 3 1 0 (.imm 0)) (running (at_ 0x2FFFFE 0 1))).ctx 0 0).velem = 0x53002 := by
  decide +kernel

/-! ### Events of the cores and of the mesh -/

/-- A ready job of ring 0 whose descriptor is zeros but for SEQ 9. -/
def job : Job := ⟨0, BitVec.ofNat 512 (9 * 2 ^ 32), 0, 0, 0, .ready, false, 0⟩

/-- Tracking entry 0 holds the job, which ring 0 lets run on core 0 alone; core 0 takes jobs where `on`. -/
def ready (takes : Bool) : State :=
  let s := withCore {} served
  let s := if takes then on (.core 0) [] s else s
  let s := s.modRing 0 fun r => { r with live := { r.live with affinity := 1 }, committed := true }
  { s with disp := { s.disp with track := [(0, some job)] } }

/-- The job with DEADLINE 0, when the time is 1. -/
def lateJob : Job := { job with desc := BitVec.ofNat 512 (9 * 2 ^ 32 + 32) }

/-- Tracking entry 0 holds that job. -/
def late : State := { ready true with
  time := 1, disp := { (ready true).disp with track := [(0, some lateJob)] } }

/-- Context 0 of core 0 runs that job. -/
def atWork : State :=
  let s := (running sys).modRing 0 fun r => { r with committed := true, reserved := 1 }
  { s with disp := { s.disp with jobs := s.disp.jobs.set 0 [⟨job, 0, some 0, 0x400000, false, false⟩] } }

/-- Those states as the statement reads them. -/
def readied : State := (ready true).admitReturned

/-- The same with the core taking no jobs. -/
def unready : State := (ready false).admitReturned

theorem witness_JobRows :
    (readied.firstReady (fun j => !readied.someCore j || (readied.pickCore j).isSome) =
        some (0, job) ∧ readied.jobLate job = false ∧ readied.pickCore job = some 0 ∧ readied.disp.jobs.get 0 = [] ∧
      (readied.ctx 0 0).run = .idle) ∧
    (unready.firstReady (fun j => !unready.someCore j || (unready.pickCore j).isSome) =
        some (0, job) ∧ unready.jobLate job = false ∧ unready.someCore job = false) ∧
    (((late.admitReturned).firstReady (fun j => !(late.admitReturned).someCore j || ((late.admitReturned).pickCore j).isSome)) = some (0, lateJob) ∧
      (late.admitReturned).jobLate lateJob = true) ∧
    (∀ s ∈ [demo, unsettled, atWork], Ready b0 .ctxEnd s 0) ∧
    ((demo.ctx 0 0).stores = 0 ∧ (demo.core 0).sbOwn 0 = false ∧ (demo.ctx 0 0).deferred = none ∧
      demo.disp.jobs.get 0 = [] ∧ (unsettled.ctx 0 0).stores ≠ 0) ∧
    atWork.disp.jobs.get 0 = [⟨job, 0, some 0, 0x400000, false, false⟩] ∧ (atWork.ctx 0 0).stores = 0 ∧
    ((atWork.ring 0).committed = true ∧ atWork.disp.late = [] ∧
      (match (atWork.xlateShared 0 (atWork.ring 0).recordAt .dispatcher true 0).1 with
      | .held _ => true
      | .refused _ => false
      | .ok dpa => atWork.recovering (atWork.stackOf dpa).1) = false) :=
  ⟨by decide +kernel, by decide +kernel, by decide +kernel, fun s h => by
    simp only [List.mem_cons, List.not_mem_nil, or_false] at h
    rcases h with rfl | rfl | rfl <;> exact ready_of (by decide), by decide, by decide +kernel⟩

/-- R82: the job starts at JOBENTRY with d0 at its descriptor's copy; R366: its record moves CTAIL. -/
theorem test_job : ((after .jobAssign (ready true)).ctx 0 0).run = .running ∧
    ((after .jobAssign (ready true)).ctx 0 0).jobSeq = 9 ∧
    ((after (.ctxEnd b0) atWork).ctx 0 0).run = .idle ∧ ((after (.ctxEnd b0) atWork).ring 0).ctail = 1 := by
  decide +kernel

/-- Context 0 runs with an interrupt pending and interrupts enabled. -/
def calling : State := running { sys with status := 9, irqs := [7] }

/-- Context 0 runs and is asked to stop. -/
def stopping : State := running { sys with stopReq := true }

/-- Context 2 of core 0 is HALTED. -/
def halted : State := withCore { ({} : Core) with
  ctxs := (Vector.replicate 4 ({} : Ctx)).set 2 { sys with run := .halted } } served

theorem witness_CoreEvents :
    ((demo.core 0).sb = [] ∧ (stored.core 0).sb = [buffered] ∧ stored.bankHeld 0 (64 * buffered.block) = false ∧
      Tab.wf none buffered.bytes = true) ∧
    ((shared.core 0).running = some 0 ∧ shared.frozen 0 = false ∧ (shared.core 0).last = 0 ∧
      (shared.ctx 0 1).run = .ready ∧ shared.quantumOf 0 ≤ (shared.core 0).quantum ∧
      (shared.ctx 0 0).done = [] ∧ (shared.ctx 0 0).sending = []) ∧
    ((demo.core 0).running = some 0 ∧ ∀ d : CtxId, d ≠ 0 → (demo.ctx 0 d).run ≠ .ready) ∧
    ((calling.ctx 0 0).irqs = [7] ∧ (calling.ctx 0 0).ie = true ∧ (calling.ctx 0 0).run = .running ∧
      calling.frozen 0 = false ∧ (calling.ctx 0 0).exl = false ∧ (demo.ctx 0 0).irqs = []) ∧
    demo.mayWrite .firmware (.core 0) = true ∧
    ((stopping.ctx 0 0).stopReq = true ∧ (stopping.ctx 0 0).run = .running ∧
      (stopping.ctx 0 0).exl = false) ∧
    (halted.ctx 0 2).run = .halted ∧ halted.lcoreOf 0 = some 0 ∧ halted.jobOn 0 2 = none := by decide +kernel

/-- R79: the next READY context runs; R137: an interrupt enters with cause 0x20 and its source. -/
theorem test_core_events : ((after (.quantumExpiry 0) shared).ctx 0 1).run = .running ∧
    ((after (.coreIrq 0 0) calling).ctx 0 0).ecause = 0x20 ∧
    ((after (.coreIrq 0 0) calling).ctx 0 0).eaddr = 7 ∧
    ((after (.coreStop .firmware 0 1) demo).ctx 0 0).stopReq = true ∧
    ((after (.stopTaken 0 0) stopping).ctx 0 0).ecause = 0x10 := by decide +kernel

/-- R130: a buffered byte reaches its bank. -/
theorem test_drain : ((after (.storeBufferDrain 0) stored).core 0).byte 0x400001 = 0x80 ∧
    ((after (.storeBufferDrain 0) stored).core 0).sb = [] := by decide +kernel

/-- A request of core 1's context 0 for core 0. -/
def asked (b : MeshBody) : State :=
  let s := runningOn sys fun k => { k with mbx := boxes }
  { s with board := { s.board with mesh := [⟨1, .ctx 0, 0, 0, b⟩] } }

/-- An answer for context 0 of core 0, with register 3 of it to load. -/
def answered (a : MeshAns) (x : Ctx) : State :=
  let s := runningOn x fun k =>
    { k with loads := [⟨5, 0, .data 3 .half, [(0, false)], 0x100, 0x11400000, none⟩] }
  { s with board := { s.board with answers := [⟨0, .ctx 0, a⟩] } }

/-- A context that waits. -/
def waits (w : CtxWait) : Ctx := { sys with wait := w }

/-- Context 0 of core 0 is BLOCKED on `w`, and the core is as `f` makes it. -/
def blockedOn (w : CtxWait) (f : Core → Core) : State :=
  withCore (f { ({} : Core) with
    ctxs := (Vector.replicate 4 ({} : Ctx)).set 0 { sys with run := .blocked, wait := w } }) served

/-- The same with an answer on its way. -/
def blockedWith (w : CtxWait) (a : MeshAns) : State :=
  let s := blockedOn w id
  { s with board := { s.board with answers := [⟨0, .ctx 0, a⟩] } }

theorem witness_MeshEvents :
    (∀ b ∈ [MeshBody.read 5 0 0x400000 2 [], .write 0x400000 [some 1] 0x10400000,
        .write 0x500000 [some 1] 0x10500000, .credit 0 false 0 0x100],
      (asked b).board.mesh = [⟨1, .ctx 0, 0, 0, b⟩] ∧ (asked b).recovering (partOf 0) = false ∧
        (asked b).recovering (partOf 1) = false ∧ (asked b).frozen 0 = false ∧
        (asked b).bankHeld 0 0x400000 = false ∧ ((asked b).core 0).clearing = false ∧
        ((asked b).core 0).marked 0x400000 = false) ∧
    (let k := (asked (.write 0x400000 [some 1] 0x10400000)).core 0
     Claims.covers k 0 0x400000 1 ∧ (k.mb 0).sender.toNat = 0x3F ∧ (k.mb 0).func.toNat = 0 ∧
       (k.mb 0).grant ≠ 0 ∧ ∀ m, m < 64 → ¬ Claims.covers k m 0x500000 1) ∧
    ((answered (.data 5 0 [0x34, 0x92] [false, false]) sys).core 0).loads.find? (fun l => l.id == 5) =
      some ⟨5, 0, .data 3 .half, [(0, false)], 0x100, 0x11400000, none⟩ ∧
    (answered (.data 5 0 [0x34, 0x92] [false, false]) sys).frozen 0 = false ∧
    (answered .written sys).frozen 0 = false ∧ (answered (.refused 0x0F 0) sys).frozen 0 = false ∧
    ((answered (.refused 0x0F 0) sys).ctx 0 0).deferred = none ∧
    (blockedWith (.credit 0) (.credit 0 1)).frozen 0 = false ∧
    ((blockedWith (.credit 0) (.credit 0 1)).ctx 0 0).run = .blocked ∧
    ((blockedWith (.credit 0) (.credit 0 1)).ctx 0 0).wait = .credit 0 := by
  simp only [Claims.covers]
  decide +kernel

/-- R313: the write is performed and GRANT counts down; R81: a half-word load sign-extends. -/
theorem test_mesh :
    (((after (.remoteRequest 0) (asked (.write 0x400000 [some 1] 0x10400000))).core 0).mb 0).grant = 1 ∧
    ((after (.remoteRequest 0) (asked (.write 0x400000 [some 1] 0x10400000))).core 0).byte 0x400000 = 1 ∧
    dreg (after (.loadDataArrival 0) (answered (.data 5 0 [0x34, 0x92] [false, false]) sys)) 3 = 0xFFFF9234 :=
  by decide +kernel

/-- The two rows of R304 and R533 that send a request again. -/
theorem test_resend :
    let r : MeshReq := ⟨0, .ctx 0, 0, 1, .read 0 0 0x400000 1 []⟩
    let s := { served with board := { served.board with retried := [r] } }
    (after (.remoteRetryResend 0) s).board.mesh = [r] ∧ (after (.retryResend 0) s).board.mesh = [r] := by
  decide +kernel

/-- A BLOCKED `ld.take` of the first AM slot, tagged and FULL. -/
def waiting : State := { blockedOn (.tag 0 ⟨.take, .word, 0x400000, 0, 0x400000, true⟩ 0) fun k =>
  { k with
    mem := [(0x400000, 0xF0)], tregs := [(0, ⟨6144, 1, true⟩)], tags := [(6144, true)]
    waiters := [(0, .ctx 0)]
    dma := k.dma.set 0 { ({} : DmaCh) with run := .waiting } } with time := 10000000 }

/-- An operation on object 4 on its way to bank 0, sent by context 0 of core 0 for its owner. -/
def onItsWay (op : SyncOp) : State :=
  let s := on .sync [(0x40, 1 <<< 6)] { blockedOn (.sync 0 4 (some 0)) id with time := 10000000 }
  { s with sync := { s.sync with objs := [(4, 10)], queue := [⟨.ctx 0 0 0, 0, 4, op⟩] } }

/-- A cancel for core 0 from context 0 of core 1, whose access is parked there or has been answered. -/
def cancels (performed : Bool) : State :=
  let s := runningOn sys fun k =>
    { k with parked := if performed then [] else [⟨1, .ctx 0, 0, 0, .tagged 0 .take .word 0x400000 0 0x10400000⟩] }
  let s := s.modCtx (s.tileOf 1) 0 fun x => { x with run := .blocked, wait := .remoteTag 0 0x10400000 true 0 }
  { s with board := { s.board with
      mesh := [⟨1, .ctx 0, 0, 0, .cancel⟩]
      answers := if performed then [⟨1, .ctx 0, .tagged 0 0 false 0x10400000⟩] else [] } }

/-- The answer of that bank has come. -/
def told : State :=
  let s := blockedOn (.sync 0 4 (some 0)) id
  { s with sync := { s.sync with answers := [⟨0, 0, 0, 10, true⟩] } }

theorem witness_TagAndSyncEvents :
    ((waiting.core 0).waiters = [(0, .ctx 0)] ∧ (waiting.ctx 0 0).run = .blocked ∧
      (waiting.core 0).tagged (slotOf 0x400000) = true ∧ slotOf 0x400000 = 6144 ∧
      (waiting.core 0).full 6144 = true ∧ (waiting.core 0).marked 0x400000 = false ∧
      (waiting.core 0).parked = [] ∧ waiting.recovering (partOf 0) = false ∧ waiting.frozen 0 = false ∧
      waiting.bankHeld 0 (slotAddr 6144) = false ∧ ((waiting.core 0).dma.get 0).run = .waiting) ∧
    (waiting.live (.spad 0) 0x040 = 10000) ∧
    (((blockedOn (.remoteTag 0 0x11400000 false 0) id).ctx 0 0).wait = .remoteTag 0 0x11400000 false 0 ∧
      (blockedWith (.remoteTag 0 0 true 0) .cancelled).board.answers = [⟨0, .ctx 0, .cancelled⟩] ∧
      (blockedWith (.remoteTag 0 0 true 0) .cancelled).frozen 0 = false) ∧
    (∀ p : Bool, (cancels p).board.mesh = [⟨1, .ctx 0, 0, 0, .cancel⟩] ∧ (cancels p).recovering (partOf 0) = false ∧
      (cancels p).recovering (partOf 1) = false ∧ (cancels p).frozen 0 = false ∧
      ((cancels p).core 0).clearing = false ∧ (cancels p).stillWaits ⟨1, .ctx 0, 0, 0, .cancel⟩ = !p) ∧
    (∀ op ∈ [SyncOp.add 1, .set 1, .cas 10 1, .cas 9 1, .read, .wait 10, .wait 11],
      (onItsWay op).sync.queue = [⟨.ctx 0 0 0, 0, 4, op⟩] ∧ (onItsWay op).syncOwner 4 = some 0 ∧
        (onItsWay op).obj 4 = 10) ∧
    (told.ctx 0 0).run = .blocked ∧ (told.ctx 0 0).wait = (.sync 0 4 (some 0)) ∧
    told.sync.answers = [⟨0, 0, 0, 10, true⟩] ∧
    ((onItsWay .read).sync.answers = [] ∧ ((onItsWay .read).ctx 0 0).run = .blocked ∧
      ((onItsWay .read).ctx 0 0).wait = .sync 0 4 (some 0) ∧ (onItsWay .read).jobOn 0 0 = none) := by decide +kernel

/-- R305: a cancel takes the parked access away, and is not answered where that has been performed. -/
theorem test_cancel : ((after (.remoteRequest 0) (cancels false)).core 0).parked = [] ∧
    (after (.remoteRequest 0) (cancels false)).board.answers = [⟨1, .ctx 0, .cancelled⟩] ∧
    ((after (.remoteRequest 0) (cancels true)).board.answers.map (·.ans)) = [.tagged 0 0 false 0x10400000] := by
  decide +kernel

/-- R302: the waiter is served and its slot is EMPTY; R305: a wait at its limit ends with a fault; R381:
a compare that fails leaves the object. -/
theorem test_waits : ((after (.tagWaitServe 0 6144) waiting).core 0).full 6144 = false ∧
    ((after (.tagTimeout 0 (.inl 0)) waiting).ctx 0 0).fault = some (0x09, 0x400000) ∧
    ((after (.tagTimeout 0 (.inl 0)) { waiting with time := 9999999 }).ctx 0 0).fault = none ∧
    (((after (.tagTimeout 0 (.inr 0)) waiting).core 0).dma.get 0).status = 0x48 ∧
    ((after (.syncTimeout 0 0) (onItsWay .read)).ctx 0 0).fault = some (0x0A, 4) ∧
    ((after (.syncTimeout 0 0) { onItsWay .read with time := 9999999 }).ctx 0 0).fault = none ∧
    (after (.syncBankOp 0) (onItsWay (.add 1))).obj 4 = 11 ∧
    (after (.syncBankOp 0) (onItsWay (.cas 9 1))).obj 4 = 10 := by decide +kernel

/-! ### Events of the matrix array and the stripe engine -/

/-- A matrix job of one row, column and step: A in AM, W in WM, its FP32 output in PM, scales of 1, with
CSYNC and CIRQ. -/
def gemm : BitVec 1024 := words 1024 [0x30000000, 0, 0x400000, 0x10001, 0, 0, 0, 0, 0x3F800000, 0x3F800000, 0, 0,
  0, 0, 0, 0, 0, 0, 0, 0, 0, 0, 0, 0, 0x800000, 1]

/-- A stripe of one row of a map of two, with TRIG 1 and CIRQ: it carries its second row. -/
def plainStripe : BitVec 1024 := words 1024 [0x1808, 0, 0x10002, 16, 0x10000, 0x10000, 0, 0x400000, 0x20000,
  0x10000, 0x10001, 0, 1]

/-- The job at a stage. -/
def mjob (raw : BitVec 1024) (stage : MtxStage) (status : Byte) : MtxJob :=
  ⟨raw, 5, 0, 0, stage, status, 0, 0, none, [(0, 0x40400000)], false⟩

/-- The stripe at a stage. -/
def sjob (stage : StripeStage) (fed : Nat) (wound : Bool) : Stripe :=
  ⟨plainStripe, 5, 0, 0, stage, 0, fed, fed, wound, some 0⟩

/-- Core 0 with that job, with 3 × 4 to compute. -/
def array (j : MtxJob) : State := runningOn sys fun k =>
  { k with mtx := { k.mtx with queue := [j] }, mem := [(0, 4), (0x400000, 3)] }

/-- Core 0 with that stripe, `n` triggers of stream 0, and the STRIPE page enabled. -/
def coil (q : Stripe) (n : Byte) : State := on (.stripe 0) [] (runningOn sys fun k =>
  { k with
    str := { k.str with queue := [q], streams := k.str.streams.set 0 { trigs := n } }
    mem := [(0x400040, 0x77)] })

theorem witness_EngineEvents :
    (let d := mtxDesc gemm
     (d.check gemm ((array (mjob gemm .queued 0)).core 0) 5).1 = 0 ∧
       ((mtxDesc (gemm ||| 3)).check (gemm ||| 3) ((array (mjob (gemm ||| 3) .queued 0)).core 0) 5).1 = 0x40 ∧
       d.ty = 0 ∧ d.asrc = false ∧ d.cbld = false ∧ d.keep = false ∧ d.m = 1 ∧ d.n = 1 ∧ d.k = 1 ∧
       1 ≤ d.g ∧ d.afmt = 0 ∧ d.wfmt = 0 ∧ d.asm = 0 ∧ d.wsm = 0 ∧ d.za = 0 ∧ d.olc = 0 ∧ d.pin = false ∧
       d.cont = false ∧ d.ta = false ∧ d.tw = false ∧ d.bias = false ∧ d.act = 0 ∧ d.pool = 0 ∧
       d.ofmt = 0 ∧ d.qs = 0 ∧ d.olayout = 0 ∧ d.odst = 0 ∧ d.oscale = false ∧ d.stat = false ∧
       d.ldo = 1 ∧ d.crec = false ∧ d.cirq = true ∧ d.csync = true ∧
       ((array (mjob gemm .feeding 0)).core 0).firstMark d.feedReads = none ∧
       (array (mjob gemm .queued 0)).frozen 0 = false ∧
       ((array (mjob gemm .queued 0)).board.map.get 0).mtxOut = false ∧
       (array (mjob gemm .queued 0)).rangesHeld 0 d.setupReads = false ∧
       (array (mjob gemm .feeding 0)).rangesHeld 0 d.feedReads = false ∧
       (array (mjob gemm .fed 0)).rangesHeld 0 (d.epiReads ++ d.epiRows ++ d.outputs) = false) ∧
    (let d := stripeDesc plainStripe
     let s := coil (sjob .waiting 0 false) 1
     (s.core 0).str.head 0 = some (sjob .waiting 0 false) ∧ d.trig = 1 ∧ (s.core 0).str.check plainStripe = 0 ∧
       d.last = false ∧ d.jobs = 1 ∧ d.crec = false ∧ d.cirq = true ∧ s.frozen 0 = false ∧
       s.enabled (.stripe 0) = true ∧
       (s.core 0).clearing = false ∧ s.spanHeld 0 (d.bodyRow 0 1) (d.aw * d.c * d.e) = false ∧ d.ncbj = 1 ∧
       (s.core 0).streamFeeds 0 = false ∧ s.recordHeld 0 (sjob .active 1 true) = false ∧
       d.windRows [] = [1] ∧ d.windFree [] 0 = true ∧ (s.core 0).windMark d [1] = none ∧
       d.stream = 0) := by decide +kernel

/-- R205: 3 × 4 in FP32 is 12; R214: the epilogue writes the sum's bytes to OUT. -/
theorem test_matrix :
    (((after (.matrixFeedDone 0) (array (mjob gemm .feeding 0))).core 0).mtx.queue.map
      fun j => Tab.get 0 j.sums 0) = [0x41400000] ∧
    ((after (.matrixEpilogue 0) (array (mjob gemm .fed 0))).core 0).bytes 0x800000 4 = [0, 0, 0x40, 0x40] ∧
    ((after (.matrixJobComplete 0) (array (mjob gemm .finished 0))).core 0).mtx.doneSeq = 5 := by
  decide +kernel

/-- R262, R268: a trigger is consumed; the wind copies row 1 to the coil; R271: the stripe completes. -/
theorem test_stripe :
    (((after (.stripeActivate 0 0) (coil (sjob .waiting 0 false) 1)).core 0).str.st 0).trigs = 0 ∧
    Tab.get 0 ((after (.wind 0 0) (coil (sjob .active 1 false) 0)).core 0).str.coil 0 = 0x77 ∧
    ((after (.stripeComplete 0 0) (coil (sjob .active 1 true) 0)).core 0).str.doneSeq = 5 ∧
    ((after (.stripeTrigTimeout 0 0) { coil (sjob .waiting 0 false) 0 with time := 10000000 }).core 0).str.queue.map (·.status) =
      [0x4B] := by decide +kernel

/-! ### Events of the scratchpads and of the DMA engine -/

/-- Core 0 remaps row `row` of bank 0 (a bank of WM), whose table holds the rows of `l`. -/
def remapping (row : Word) (l : Tab (Option RemapEntry)) : State :=
  on (.spad 0) [(0x050, row <<< 6)] (withCore { ({} : Core) with rmapBusy := true, remap := l } served)

/-- Bank 0's table used up. -/
def full : Tab (Option RemapEntry) := (List.range 8).map fun i => (i, some ⟨BitVec.ofNat 8 i, false⟩)

theorem witness_RepairEvents :
    (localOk 0x400000 = true ∧ localOk 0x3FFFFF = false ∧ (served.core 0).rmapBusy = false ∧
      ((remapping 9 []).core 0).rmapBusy = true ∧
      (fld (served.live (.spad 0) 0x044) 0 8).toNat ≤ 255 ∧
      (fld ((on (.spad 0) [(0x044, 0x101)] served).live (.spad 0) 0x044) 8 8).toNat = 1) ∧
    (((remapping 9 []).staged (.spad 0) 0x050) = 0x240 ∧ 9 < bankRows 0 ∧ bankRows 0 ≤ 255 ∧
      Tab.get none ((remapping 9 []).core 0).remap 0 = none) ∧
    (Tab.get none ((remapping 7 full).core 0).remap 7 = some ⟨7, false⟩) ∧
    ∀ e, e < 8 → Tab.get none ((remapping 9 full).core 0).remap e = some ⟨BitVec.ofNat 8 e, false⟩ := by
  decide +kernel

/-- R323: a spare row, a row mapped before, a bank used up, and a row that is not there. -/
theorem test_remap : ((after (.remapDone 0) (remapping 9 [])).core 0).rmapResult = 0 ∧
    ((after (.remapDone 0) (remapping 7 full)).core 0).rmapResult = 2 ∧
    ((after (.remapDone 0) (remapping 9 full)).core 0).rmapResult = 1 ∧
    ((after (.remapDone 0) (remapping 255 [])).core 0).rmapResult = 3 := by decide +kernel

/-- R321: a clear pauses the core's banks until it ends. -/
theorem test_clear : ((after (.spadClear .firmware 0) banked).core 0).byte 0x400000 = 0 ∧
    ((after (.spadClear .firmware 0) banked).core 0).clearing = true ∧
    ((after (.clearDone 0) (after (.spadClear .firmware 0) banked)).core 0).clearing = false ∧
    ((after (.spadRmapGo .firmware 0 0x240) served).core 0).rmapBusy = true ∧
    ((after (.eccWriteBack 0 0x400000) served).core 0).watch.map (·.count) = [1] ∧
    ((after (.watchHalving 0) (after (.eccWriteBack 0 0x400000) served)).core 0).watch.map (·.count) = [0] :=
  by decide +kernel

/-- A copy of 64 bytes in AM, END set; with END clear its link is 0x400080. -/
def copyDesc (last : Bool) (word6 : Word) : BitVec 512 := words 512
  [0x400000, 0x500000, 64, 1, 64, 64, word6, if last then 1 else 0x400080]

/-- The command with that descriptor. -/
def copyCmd (last : Bool) (word6 : Word) : DmaCmd :=
  ⟨.copied, copyDesc last word6, 0, 0, 0, Vector.replicate 8 0, none⟩

/-- Channel 0 of core 0. -/
def channel (h : DmaCh) : State := on (.dma 0) [] (runningOn sys fun k =>
  { k with dma := k.dma.set 0 h, mem := [(0x400000, 0xF0), (0x40009E, 0x30), (0x4000DC, 1)] })

/-- The channel with its bytes moving, `pos` of them issued. -/
def moving (word6 : Word) (pos : Nat) : DmaCh :=
  { ({} : DmaCh) with
    run := .active, cur := some (copyCmd true word6), desc := copyDesc true word6, phase := .moving, pos := pos }

theorem witness_DmaEvents :
    served.mayWrite .firmware (.dma 0) = true ∧
    (let h : DmaCh := { ({} : DmaCh) with run := .ready, cur := some (copyCmd true 0) }
     let s := channel h
     let e := dmaDesc (copyDesc true 0)
     (s.core 0).dmaActive = none ∧ (s.core 0).dmaNext = some 0 ∧ s.frozen 0 = false ∧
       e.check (copyDesc true 0) (copyCmd true 0) 0 false none = 0 ∧
       e.check (copyDesc true 1) (copyCmd true 1) 0 false none = 0x40 ∧ e.mode ≠ 1 ∧ e.irqHalf = false ∧
       (e.xfer 0).total = 64 ∧ ∀ n : Nat, n < 64 → (e.xfer 0).srcs n = [((0x400000 + n : Nat) : Int)]) ∧
    (let s := channel (moving 0 0)
     let h := (s.core 0).dma.get 0
     (s.core 0).dmaActive = some 0 ∧ h.xfer.total = 64 ∧ h.xfer.run 0 64 = 64 ∧ h.xfer.dst 0 = 0x500000 ∧
       (∀ n : Nat, n < 64 → h.xfer.srcs n = [((0x400000 + n : Nat) : Int)] ∧
         target 0 (BitVec.ofNat 32 (0x400000 + n)) = some (.loc (0x400000 + n)) ∧
         h.overlaps (0x500000 + n) = false) ∧
       s.board.answers = []) ∧
    (let s := channel (moving 0x2000 64)
     let h := (s.core 0).dma.get 0
     (s.core 0).dmaActive = some 0 ∧ h.xfer.writes = true ∧ h.pos = h.xfer.total ∧ h.outs = [] ∧
       (dmaDesc h.desc).mode ≠ 10 ∧ (dmaDesc h.desc).irqFull = true ∧ (dmaDesc h.desc).last = true ∧
       h.pend = none) ∧
    (let h := ((channel (moving 0x1000 32)).core 0).dma.get 0
     (dmaDesc h.desc).irqHalf = true ∧ h.xfer.half = 32 ∧ h.half = false) ∧
    (∀ h ∈ [moving 0 0, moving 0x2000 64, moving 0x1000 32, { moving 0 64 with outs := [(0, 1)] }],
      (channel h).frozen 0 = false ∧ h.line = none) ∧
    (dmaDesc (copyDesc true 0)).tagged = false ∧ (dmaDesc (copyDesc true 0x2000)).irqHalf = false ∧
    (localOk 0x400080 = true ∧ localOk 0x300000 = false) := by decide +kernel

/-- The states of a channel that the other clauses name. -/
def chained (at_ : Nat) : DmaCh := { moving 0 64 with phase := .link, line := some at_ }

theorem witness_DmaEvents_links :
    (let s := channel (chained 0x400080)
     let e := dmaDesc (leVal 512 ((s.core 0).bytes 0x400080 64))
     s.frozen 0 = false ∧ (s.core 0).paused 0x400080 (s.rmapBank 0) = false ∧ e.last = false ∧ localOk e.link.toNat = false) ∧
    (dmaDesc (leVal 512 (((channel {}).core 0).bytes 0x4000C0 64))).last = true := by decide +kernel

/-- R345, R347: the last write acknowledged leaves status 0 and raises the interrupt of IRQ_FULL; R342: an
unpopulated link fails with 0x4C; R350: draining ends in IDLE. -/
theorem test_dma : (((after (.dmaReadbackDone 0) (channel (moving 0x2000 64))).core 0).dma.get 0).run = .idle ∧
    ((after (.dmaReadbackDone 0) (channel (moving 0x2000 64))).ctx 0 0).irqs = [0x100] ∧
    (((after (.dmaReadReturn 0) (channel (moving 0 0))).core 0).dma.get 0).outs = [(0, 64)] ∧
    (((after (.dmaLinkReread 0 0) (channel (chained 0x400080))).core 0).dma.get 0).status = 0x4C ∧
    (((after (.dmaHalfPoint 0) (channel (moving 0x1000 32))).core 0).dma.get 0).half = true ∧
    (((after (.dmaDrainEnd 0 0) (channel { ({} : DmaCh) with run := .draining })).core 0).dma.get 0).run =
      .idle := by decide +kernel

/-- R345, R347, R351: a local write lands as it is issued and is counted when acknowledged; a write at its time limit fails with 0x4B. -/
theorem test_dma_write :
    let s := channel { moving 0 64 with localWrites := [(0x500000, [0], [7])], outs := [(0, 1)] }
    (((after (.dmaWriteAck 0 0) s).core 0).dma.get 0).prog = 1 ∧ ((after (.dmaReadReturn 0) (channel (moving 0 0))).core 0).bytes 0x500000 64 =
      ((channel (moving 0 0)).core 0).bytes 0x400000 64 ∧
    (((after (.dmaWriteTimeout 0 0) s).core 0).dma.get 0).status = 0x4B ∧
    (((after (.dmaWriteTimeout 0 0) (channel { moving 0 64 with run := .ready, outs := [(0, 1)] })).core 0).dma.get
      0).run = .ready ∧
    (((after (.dmaKill .firmware 0 1) (channel (moving 0 0))).core 0).dma.get 0).run = .draining := by decide +kernel

/-- R318, R319: the first error of a row whose FORCE is 1 nominates it and starts its remap. -/
theorem test_force : ((after (.eccWriteBack 0 0x400000) (on (.spad 0) [(0x044, 0x101)] served)).core 0).nominees.map
      (·.forced) = [true] ∧
    ((after (.eccWriteBack 0 0x400000) (on (.spad 0) [(0x044, 0x101)] served)).core 0).rmapBusy = true := by
  decide +kernel

/-- R335: the channel of a READY command is selected and its descriptor starts. -/
theorem test_dma_select :
    let s := channel { ({} : DmaCh) with run := .ready, cur := some (copyCmd true 0) }
    (((after (.dmaSelect 0) s).core 0).dma.get 0).phase = .moving := by decide +kernel

/-! ### Rings and the dispatcher -/

/-- The link open for PF0, translation on with its first 2 MiB at DPA 0, and the pages of the dispatcher and of HBM
channel 0 on. -/
def opened : State :=
  let s := { served with host := { served.host with cfgReady := true } }
  let s := on (.dat 0) [(0x100, 0x80000000)] (on .disp [(0x40, 0x0401)] (on (.memc 0) [] s))
  { s with hbm := { s.hbm with units := s.hbm.units.set 0 { tlb := [⟨0, true, 0, true, 0⟩] } } }

/-- Ring 0 as given. -/
def ring0 (x : Ring) : State := opened.modRing 0 fun _ => x

/-- A committed ring of 16 descriptors and 16 records, with limits of 16. -/
def ringOf : Ring := { ({} : Ring) with
  committed := true, run := true, state := .active
  live := { ({} : RingCfg) with cfg := 0x84, affinity := 1, limits := 0x00100010 } }

theorem witness_RingEvents :
    opened.barOpen 0 = true ∧ opened.barOpen 1 = false ∧ opened.inBoot = false ∧ opened.board.svc.state ≠ .failed ∧
    fnBit opened.host.flr 0 = false ∧ fnBit opened.host.needFlr 0 = false ∧
    (ringOf.size = 16 ∧ (ring0 ringOf).ring (ringNo 0 0) = ringOf) ∧
    fnBit { opened with host := { opened.host with needFlr := 1 } }.host.needFlr 0 = true ∧
    (opened.mayWrite .firmware (ringPage 0) = true ∧ opened.mayWrite (.func 1) (ringPage 0) = false) ∧
    (opened.checkRuns (ringPage 0) (.ring 0) = false ∧
      (opened.modPage (pageNo (ringPage 0)) fun p => { p with checking := [.ring 0] }).checkRuns (ringPage 0)
        (.ring 0) = true) ∧
    (opened.disp.track = [] ∧ ringOf.occupancy = 0 ∧ { ringOf with tail := 3 }.occupancy = 3) ∧
    (let x := { ringOf with tail := 1, bells := [(1, 0)], live := { ringOf.live with ageWm := 5 } }
     let s := { ring0 x with time := 10000 }
     (s.ringAge 0).toNat = 10 ∧ x.live.ageWm = 5 ∧ x.aged = false) := by decide +kernel

/-- R361: a doorbell past the ring's size is counted and sets its flag; R359: CANCEL marks what remains. -/
theorem test_doorbell : ((after (.doorbell (.func 0) 0 0 16) (ring0 ringOf)).ring 0).tail = 16 ∧
    ((after (.doorbell (.func 0) 0 0 17) (ring0 ringOf)).ring 0).tail = 0 ∧
    ((after (.doorbell (.func 0) 0 0 17) (ring0 ringOf)).ring 0).flags = 8 ∧
    ((after (.ringCancel .firmware 0) (ring0 { ringOf with tail := 3 })).ring 0).cancelTo = some 3 := by
  decide +kernel

/-- R357, R359: COMMIT starts a check; RUN 0 and RESTART move the state. -/
theorem test_ring : ((after (.ringCommit .firmware 0) opened).page (pageNo (ringPage 0))).checking = [.ring 0] ∧
    ((after (.ringRun .firmware 0 false) (ring0 ringOf)).ring 0).state = .idle ∧
    ((after (.ringRestart .firmware 0) (ring0 { ringOf with state := .error })).ring 0).state = .active := by
  decide +kernel

/-- A descriptor read of ring 0 in flight. -/
def reading (kind : FetchKind) (x : Ring) : State :=
  let s := ring0 x
  { s with disp := { s.disp with fetches := [⟨0, kind, 7, 0⟩] } }

/-- A job of ring 0 tracked at entry 7. -/
def tracking (word0 : Nat) (stage : JobStage) : State :=
  let s := ring0 { ringOf with reserved := 1 }
  { s with
    time := 10
    disp := { s.disp with track := [(7, some ⟨0, BitVec.ofNat 512 word0, 0, 0, 0, stage, false, 0⟩)] } }

theorem witness_DispatchEvents :
    (served.enabled .disp = false) ∧
    (let s := ring0 { ringOf with tail := 1 }
     s.enabled .disp = true ∧ s.admitReturned.pickFn = some 0 ∧ s.admitReturned.pickRing 0 = some 0 ∧
       s.admitReturned.ringAction 0 = some .job ∧ s.disp.returned = [] ∧ s.freeEntry = some 0) ∧
    (let s := { reading .job { ringOf with tail := 1, reserved := 1 } with
       board := { served.board with svc := { state := .failed } } }
     s.board.svc.state = .failed ∧ s.disp.arriving (· != .shed) = some ⟨0, .job, 7, 0⟩) ∧
    (let s := reading .job { ringOf with tail := 1, reserved := 1 }
     s.disp.arriving (· != .shed) = some ⟨0, .job, 7, 0⟩ ∧ (s.ring 0).cancelTo = none ∧
       s.board.svc.state ≠ .failed ∧
       (s.ring 0).state = .active ∧ (s.ring 0).head = 0 ∧
       (match s.readDesc 0 0 with
        | .ok desc _ => desc == 0
        | _ => false) = true) ∧
    ((reading .shed ringOf).disp.arriving (· == .shed) = some ⟨0, .shed, 7, 0⟩ ∧
      (reading .cancel ringOf).disp.arriving (· != .shed) = some ⟨0, .cancel, 7, 0⟩) ∧
    (let d (n : Nat) := ringDesc (BitVec.ofNat 512 n)
     (d 0x100).rsv = true ∧ (d 0).rsv = false ∧ (d 4).waiten = true ∧ (d 32).dlen = true ∧ (d 3).type = 3 ∧
       opened.syncOwner 0 = none) ∧
    ((tracking 32 .gate).tracked 7 = some ⟨0, 32, 0, 0, 0, .gate, false, 0⟩ ∧
      (tracking 32 .gate).disp.late = [] ∧ fld ((tracking 32 .gate).live .disp 0x080) 0 24 = 10000 ∧
      (tracking 32 .gate).sync.slots = [] ∧ ((tracking 32 .gate).ring 0).committed = true ∧
      (tracking 32 .gate).recovering 0 = false ∧
      bit ((tracking 32 .gate).live (.part 0) 0x090) 0 = false ∧
      (((tracking 32 .gate).untrack 7).xlateShared 0 0 .dispatcher true 0).1 = .ok 0 ∧
      (tracking 32 .gate).hbmHeld 0 0 32 = false ∧
      (let s := tracking 32 .gate
       { s with hbm := { s.hbm with channels := [] }, pages := [] }.hbmHeld 0 0 32 = true) ∧
      ∀ i, i < 32 → (tracking 32 .gate).lineOk i = true) := by decide +kernel

/-- R371: a fetch reads the descriptor at HEAD; R370: a deadline that has passed retires a job with 0x03,
its record at CBASE with STATUS in its first word; R365: an open gate lets the job go on. -/
theorem test_dispatch : (after .descFetch (ring0 { ringOf with tail := 1 })).disp.fetches = [⟨0, .job, 0, 0⟩] ∧
    ((after .descArrival (reading .job { ringOf with tail := 1, reserved := 1 })).ring 0).head = 1 ∧
    ((after (.jobExpired 7) (tracking 32 .gate)).ring 0).ctail = 1 ∧
    ((after (.waitTimeout 7) { tracking 32 .gate with time := 10000000 }).tracked 7).isNone = true ∧
    ((after (.waitTimeout 7) { tracking 32 .gate with time := 9999999 }).tracked 7).isSome = true ∧
    ((after (.gatePoll 7) (tracking 4 .gate)).tracked 7).map (·.stage) = some .ready ∧
    ((after .descShed (reading .shed { ringOf with tail := 9, reserved := 1 })).ring 0).head = 1 ∧
    ((after (.ageWatermark 0) { ring0 { ringOf with
        tail := 1, bells := [(1, 0)], live := { ringOf.live with ageWm := 5 } } with time := 10000 }).ring 0).flags
      = 2 := by decide +kernel

/-! ### Synchronisation objects from the host, translation tables and HBM -/

theorem witness_SyncAndTableCommands :
    (opened.barOpen 0 = true ∧ opened.barOpen 1 = false ∧ opened.inBoot = false) ∧
    (opened.mayWrite .firmware .sync = true ∧ opened.mayWrite (.func 1) .sync = false ∧
      opened.checkRuns .sync .sync = false ∧
      (opened.modPage (pageNo .sync) fun p => { p with checking := [.sync] }).checkRuns .sync .sync = true) ∧
    (let s := { opened with host := { opened.host with numVfs := 1, vfEnable := true } }
     s.barOpen 1 = true ∧ s.syncOwner 5 = none) ∧
    (opened.hbm.queue = [] ∧ (mapped.hbm.queue.map (·.old)) = []) := by decide +kernel

/-- R386: GO swaps where the expected value is found; R400: an invalidation empties the caches. -/
theorem test_sync_host : (after (.syncCasGo .firmware 0 1) { opened with
      sync := { opened.sync with objs := [((pageObj 0 1).toNat, 7)] } }).obj (pageObj 0 1) = 7 ∧
    (after (.syncValueWrite (.func 0) 5 .b8 false 9) opened).sync.queue.map (·.obj) = [5] ∧
    ((after (.datInv .firmware 0 true) opened).hbm.units.get 0).tlb = [] ∧
    (after .datInvDone { opened with hbm := { opened.hbm with invBusy := true } }).hbm.invBusy = false := by
  decide +kernel

/-- A request at DPA 0x40 for channel 0 of stack 0, whose page is on. -/
def requested (data : Option (List (Option Byte))) : State :=
  let s := on (.memc 0) [] opened
  { s with hbm := { s.hbm with
      mem := [(0x40, 9)]
      queue := [⟨if data.isSome then .store 0 0 else .load 0 0 3 0, 0, 0x40, 1, data, 0, false⟩]
      channels := [(0, { rowErrors := [(5, List.replicate 8 0)], scrubPos := 2 })] } }

/-- The same, whose scrub is BEHIND and has waited for 255 slots. -/
def lateScrub (data : Option (List (Option Byte))) : State :=
  let s := requested data
  { s with time := 10 ^ 15, hbm := { s.hbm with channels := [(0, { scrubPos := 2, slots := 255 })] } }

/-- The channel with nothing to do but its scrub. -/
def idle : State := { requested none with hbm := { (requested none).hbm with queue := [] } }

/-- The same with its read waiting since an earlier pause. -/
def pausedTwice : State :=
  let s := requested none
  { s with hbm := { s.hbm with
      channels := [(0, { rowErrors := [(5, List.replicate 8 0)], paused := [.load 0 0 3 0] })] } }

/-- Two requests of one context to one partition, the first for a channel whose page is off. -/
def ordered : State :=
  let s := requested none
  { s with hbm := { s.hbm with queue := ⟨.load 0 0 2 0, 0, 0x140, 1, none, 0, false⟩ :: s.hbm.queue } }

/-- A machine in which partition 0 recovers. -/
def recovers : State := { opened with parts := opened.parts.set 0 { run := .recovering } }

theorem witness_HbmEvents :
    (recovers.recovering 0 = true ∧ opened.recovering 0 = false ∧ (requested none).enabled (.memc 0) = true ∧
      opened.enabled (.memc 1) = false ∧ opened.channelIn 0 1 = true) ∧
    ((requested none).stackOf 0x40 = (0, 0x40) ∧ (requested none).channelOf 0x40 = 0 ∧
      (requested none).lineOk 0x40 = true ∧ (requested none).channelIn 0 0 = true ∧
      (requested none).waiting 0 0 = (requested none).hbm.queue ∧ (requested none).scrubs 0 0 = true ∧
      (((requested none).judgeScrub 0).chan 0).behind = false ∧ (((lateScrub none).judgeScrub 0).chan 0).behind = true ∧
      (lateScrub none).scrubs 0 0 = true ∧ ((lateScrub none).chan 0).slots = 255 ∧
      (idle.scrubs 0 0 = true ∧ idle.waiting 0 0 = [])) ∧
    (bit ((requested none).live (.part 0) 0x090) 0 = false ∧ bit (opened.live (.part 0) 0x090) 0 = false) ∧
    ((requested none).chan 0).dueRow = some 5 ∧ (requested none).pausePending 0 = false ∧
    (pausedTwice.chan 0).dueRow = some 5 ∧ pausedTwice.pausePending 0 = true ∧
    (opened.chan 0).dueRow = none ∧ ((requested none).chan 0).scrubPos.toNat + 1 < channelLines ∧
    (opened.bar2Open 0 = true ∧ opened.bar2Open 1 = false ∧ opened.inBar2 0 0x40 = true ∧
      opened.bar2Boot 0 = false ∧ { opened with sec := { opened.sec with wedging := true } }.bar2Boot 0 = true) ∧
    (∀ w, (opened.xlateShared 0 0x40 .host w (opened.bounceCause 0 0x40)).1 = .ok 0x40) ∧
    (opened.xlateShared 0 0x200040 .host false (opened.bounceCause 0 0x200040)).1 = .refused 1 ∧
    opened.hbmAnyMark 0x40 4 = false ∧
    (opened.hbmHeld 0 0x40 4 = false ∧ opened.hbmHeld 0 0x140 4 = true ∧ opened.recovering (opened.stackOf 0x140).1 = false ∧
      opened.host.payload = 128 ∧
      ∀ w, (opened.xlateShared 0 0x140 .host w (opened.bounceCause 0 0x140)).1 = .ok 0x140) := by decide +kernel

/-- R409: the channel answers a load with its bytes, and performs a store; R133: a
later one of the same context waits for it; R411: the scrub takes a slot when BEHIND, and waits otherwise;
R415: a read corrects. -/
theorem test_hbm_channel :
    ((after (.hbmRequest 0 0) (requested none)).board.answers.map (·.ans)) = [.data 3 0 [9] [false]] ∧
    Tab.get 0 (after (.hbmRequest 0 0) (requested (some [some 4]))).hbm.mem 0x40 = 4 ∧
    ((after (.hbmRequest 0 0) (lateScrub none)).chan 0).scrubPos = 3 ∧
    (after (.hbmRequest 0 0) ordered).hbm.queue = ordered.hbm.queue ∧
    (let s := requested none
     ((after (.patrolScrub 0 0) s).chan 0).scrubPos = 2 ∧
     ((after (.patrolScrub 0 0) { s with hbm := { s.hbm with queue := [], marks := [(2, true)] } }).chan 0).scrubPos = 3 ∧
     Tab.get false (after (.hbmRequest 0 0) { s with hbm := { s.hbm with faults := [(1, true)] } }).hbm.faults 1 = false) := by decide +kernel

/-- R403: BAR2 reaches HBM through the host's translation; a refused read returns ones; R409: a request before it at the
channel goes first. -/
theorem test_bar2 : (after (.bar2Read 0 0x40 1) idle).host.rbytes = [9] ∧
    (after (.bar2Read 0 0x200040 2) idle).host.rbytes = [0xFF, 0xFF] ∧
    (after (.bar2Read 0 0x40 1) (requested none)).host.rbytes = [] ∧
    Tab.get 0 (after (.bar2Write 0 0x44 [1, 2]) idle).hbm.mem 0x45 = 2 := by decide +kernel

/-! ### The host, resets, boot, the mailbox, and security -/

/-- The link open for PF0 and VF 1, whose object is 5 of the second page of objects. -/
def linked : State :=
  let s := { opened with host := { opened.host with
    numVfs := 1, vfEnable := true, dlUp := true, msixEn := 2, pba := [(vecKey 1 3, true)] } }
  on .sync [(0x44, 0x41)] s

/-- VF 1 being reset, and the host lost. -/
def resetting : State := { linked with host := { linked.host with flr := 2 } }
def lost : State := { linked with host := { linked.host with lost := true, dlUp := false } }

theorem witness_HostLinkEvents :
    (linked.host.lost = false ∧ linked.pins.perstN = true ∧ linked.pins.pwrOk = true ∧
      linked.host.cfgReady = true ∧ linked.fnEnabled 1 = true ∧ linked.fnEnabled 2 = false ∧
      linked.barOpen 1 = true ∧ lost.barOpen 1 = false ∧ linked.bar4Open 1 = true ∧ lost.bar4Open 1 = false) ∧
    (State.reset.host.cfgReady = false ∧ served.pins.perstN = true) ∧
    (Tab.get false linked.host.pba (vecKey 1 3) = true ∧ fnBit linked.host.msixEn 1 = true ∧
      fnBit linked.host.maskAll 1 = false) ∧
    (fnBit linked.host.flr 1 = false ∧ fnBit resetting.host.flr 1 = true ∧ resetting.jobsOf 1 = false ∧
      linked.syncOwner 128 = some 1 ∧ ∀ p : Part, (linked.parts.get p).suspects = [] ∧
        (linked.parts.get p).bystanders = []) ∧
    (lost.host.lost = true ∧ linked.host.dlUp = true) := by decide +kernel

/-- R430: a request before configuration-ready is answered CRS; R429: an unmasked vector's pending message
is sent; R434, R437: the host lost and returned. -/
theorem test_host : (after (.configRequest 0 .other) State.reset).host.sent = [.crs] ∧
    (after (.configRequest 0 (.numVfs 15)) opened).host.numVfs = 15 ∧
    (after (.msixUnmask 1 3) linked).host.sent = [.msix 1 3] ∧
    (after .hostLost linked).host.lost = true ∧ (after .hostReturn lost).host.needFlr = 0xFFFF := by decide +kernel

/-- R422, R424, R436, R437: a base address keeps the bits above its BAR's size, and a return clears it; DOE Discovery;
a write past Max Payload Size is a Malformed TLP; BAR4 shows the PBA. R429: a condition that falls is not pending. -/
theorem test_config : Tab.get 0 (after (.configRequest 0 (.bar 0 false 0x3FFFFFF)) linked).host.bars 0 = 0x2000000 ∧
    (after .hostReturn lost).barOpen 0 = false ∧
    (after (.configRequest 0 (.doeDiscovery 1)) linked).host.rdata = 0x02010001 ∧
    bit (Tab.get {} (after (.bar2Write 0 0 (List.replicate 129 0)) linked).host.aer 0).uncorr 18 = true ∧
    (after (.bar2Write 0 0 (List.replicate 128 0)) linked).host.aer = [] ∧
    linked.readBar4 1 0x2000 .b8 = 8 ∧ linked.readBar4 1 0x100C .b4 = 1 ∧
    Tab.get false (linked.evalVec 1 3 false).host.pba (vecKey 1 3) = false := by decide +kernel

/-- Power and reset pins at levels of their own, with the firmware's choice made. -/
def pins (pwrOk perstN : Bool) : State :=
  { State.reset with pins := { State.reset.pins with pwrOk := pwrOk, perstN := perstN } }

/-- In BOOT, the bisque stage having chosen slot A, on trial. -/
def booting : State :=
  { State.reset with
    mgmt := { State.reset.mgmt with selected := true, stage := 1, trial := true }
    host := served.host }

/-- A flash whose header in force names `p` pending, tried `n` times. -/
def headed (p : Option Bool) (n : BitVec 2) : Flash := { copies := #v[{ pending := p, tries := n }, { crcDiff := 1 }] }

/-- The same 3 s on. -/
def overdue : State := { booting with time := 3000000000 }

theorem witness_BootEvents :
    ((pins true false).pins.perstN = false ∧ (pins true true).pins.perstN = true ∧
      (pins false false).pins.pwrOk = false ∧ State.reset.sec.owner = none) ∧
    (booting.board.svc.state = .boot ∧ booting.mgmt.stage ≠ 15 ∧ booting.pins.prodTest = false ∧
      booting.pins.mfgTest = false ∧ booting.mgmt.trial = true) ∧
    (served.board.svc.state ≠ .boot ∧ { booting with mgmt := { booting.mgmt with stage := 15 } }.mgmt.stage = 15) ∧
    -- the choices of the bisque stage: none pending, one for the first time, one at its third
    (headed none 0).inForce.pending = none ∧ (headed (some true) 2).inForce.tries + 1 = 3 ∧
    (headed (some true) 0).inForce.tries + 1 ≠ 3 ∧ (headed (some true) 0).inForce.seq ≠ 0xFFFFFFFF ∧
    -- a trial boot at its bound, and before it
    (overdue.time - overdue.mgmt.bootFrom).toNat = 3 * 10 ^ 9 ∧ (booting.time - booting.mgmt.bootFrom).toNat < 3 * 10 ^ 9 ∧
    Slot.check {} 0 = 1 := by
  decide +kernel

/-- R35, R550: a fall of PWR_OK clears memories; R482: firmware that boots ends BOOT in READY. -/
theorem test_boot : (after .pwrOkFall served).board.svc.state = .boot ∧
    (after .pwrOkFall served).pins.hiZ = true ∧ (after .pwrOkFall served).pins.qspiRstN = false ∧ (after .perstN served).pins.perstN = false ∧
    (after (.bootComplete [] []) booting).board.svc.state = .ready ∧
    (after .trialTimeout served).board.svc.state = .ready ∧ (after .mgmtWatchdogExpiry served).sec.mgmt = false := by
  decide +kernel

/-- R478: a header is written to the other copy, and one cut short leaves the other in force; the slots' offsets. R482,
R485: STAGE by the time of boot, and RECOVERY starts no clocks. -/
theorem test_flash : (({} : Flash).header fun h => { h with pending := some true }).newest = 1 ∧
    (({} : Flash).header fun h => { h with pending := some true }).tearHeader.inForce.pending = some true ∧
    flashRegion 0x01010000 = some (.slot true, 0) ∧ flashRegion 0x02220000 = none ∧
    overdue.bootStage = 7 ∧ { overdue with time := 110000000 }.bootStage = 3 ∧
    ({ torn := [0] } : Slot).check 0 = 5 := by
  refine ⟨by decide +kernel, by decide +kernel, by decide +kernel, by decide +kernel, by decide +kernel, by decide +kernel, by decide +kernel⟩

/-- A command at the mailbox, with LEN 4, and an input of zeros. -/
def mailbox (op : Byte) (arg : Word) : State :=
  { served with mgmt := { served.mgmt with stage := 8, slot := true, cmd := some ⟨op, 4, arg⟩ } }

theorem witness_MailboxRows :
    (served.mayWrite .firmware .mgmt = true ∧ served.mayWrite (.func 1) .mgmt = false ∧
      served.mgmt.cmd = none ∧ (mailbox 1 0).mgmt.cmd = some ⟨1, 4, 0⟩) ∧
    (State.reset.bootStage = 0 ∧ (mailbox 1 0).bootStage = 8 ∧ (mailbox 1 0).mgmt.flash.inForce.seq ≠ 0xFFFFFFFF ∧
      (mailbox 1 0).mgmt.stage ≠ 15 ∧ (mailbox 1 0).sec.busy = false ∧ (mailbox 6 0).saggar = false) ∧
    ((2048 : Nat) % 2048 = 0 ∧ 2048 + 4 ≤ slotSize ∧ slotSize < slotSize + 4) ∧
    ({ mailbox 6 0 with sec := { served.sec with mode := .saggar } }.saggar = true) ∧
    (served.mgmt.flash.slot true).check 0 = 1 := by decide +kernel

/-- R486, R487: a second command sets OVERRUN; FW_CANCEL succeeds; a write off its unit fails. -/
theorem test_mailbox : (after (.fwCancel .firmware) served).mgmt.cmd = some ⟨4, 0, 0⟩ ∧
    ((after (.fwCancel .firmware) (mailbox 1 0)).page (pageNo .mgmt)).irqStatus = 4 ∧
    (after .mbDone (mailbox 4 0)).mgmt.result = 0 ∧ (after .mbDone (mailbox 2 1)).mgmt.result = 2 ∧
    (after .mbDone (mailbox 9 0)).mgmt.result = 1 := by decide +kernel

/-- An owned device with a tenant, sessions open to both, and a fresh nonce. -/
def owned : State :=
  { linked with
    sec := { linked.sec with
      owner := some 1, tenant := some 2, mgmt := true, doe := some (some 2), nonce := some (7, 0) } }

/-- A wedging at phase `p` that leaves the device owned. -/
def wedging (p : BitVec 3) : State :=
  { owned with
    sec := { owned.sec with
      wedging := true, flag := true, phase := p, next := some ⟨true, none, .standard⟩ } }

theorem witness_SecurityRows :
    (served.sec.mgmt = false ∧ owned.sec.mgmt = true ∧ owned.awake = true ∧ owned.sec.busy = false ∧ (wedging 5).sec.busy = true ∧
      { served.sec with claimOpen := true }.owner = none ∧ (served.time - served.sec.opened).toNat < 600 * 10 ^ 9 ∧
      600 * 10 ^ 9 ≤ ((600 * 10 ^ 9 : DWord) - served.sec.opened).toNat) ∧
    -- the nonce is fresh to the end of its 60 s
    (owned.sec.nonce = some (7, 0) ∧ (owned.time - 0).toNat ≤ 60 * 10 ^ 9 ∧
      ((60 * 10 ^ 9 + 1 : DWord) - 0).toNat > 60 * 10 ^ 9) ∧
    (owned.sec.owner.isSome = true ∧ owned.sec.tenant.isSome = true ∧ served.sec.owner.isSome = false) ∧
    (served.session .management = false ∧ owned.session .management = true ∧ owned.session .doe = true) ∧
    (owned.fnEnabled 0 = true ∧ owned.host.lost = false ∧ owned.sec.doe = some (some 2) ∧
      served.sec.tenant = none) ∧
    (wedging 5).sec.phase = 5 ∧ (wedging 6).sec.next = some ⟨true, none, .standard⟩ ∧
    Tab.get none owned.sec.keys 63 = none := by decide +kernel

/-- R469: DER's encodings: OID 2.25.8320571, an integer whose top bit is set, and a length of two bytes. -/
theorem test_der : derOid 105 [8320571] = [6, 5, 105, 0x83, 0xFB, 0xEC, 0x3B] ∧ derInt [0, 0x80] = [2, 2, 0, 0x80] ∧
    derLength 300 = [0x82, 1, 44] := by decide +kernel

/-- R458: a command with no tenant, and one with a bad parameter; R464: a region; R460: the wedging ends. -/
theorem test_security : (after (.keyClear 64) owned).sec.reply.result = 5 ∧
    (after (.setBounce 1 [(0, 0x200000)]) owned).sec.bounce.map (·.len) = [1] ∧
    (after (.setBounce 1 [(1, 0x200000)]) owned).sec.reply.result = 5 ∧
    (after (.wedgingVerifyDone []) (wedging 6)).sec.wedging = false ∧
    (after .wedgingZeroDone (wedging 5)).sec.phase = 6 ∧
    (after (.release 0) { owned with sec := { owned.sec with nonce := none } }).sec.reply.result = 2 := by
  decide +kernel

/-! ### The Vabor ports and peer queues -/

/-- Port 1 as given, in DOMAIN 1, with function 0 open to peers. -/
def ported (p : Port) : State :=
  let s := on (.peer 0) [(0x060, 0x10), (0x064, 1), (0x208, 4)] idle
  { s with peer := { s.peer with ports := s.peer.ports.set 1 p } }

/-- A port in a state. -/
def portIn (r : PortRun) : Port := { ({} : Port) with run := r, width := 8 }

/-- What a neighbour shows of itself: PEERID 3 in DOMAIN 1. -/
def neighbour : PeerIdent := ⟨3, 1, false, 9, 2⟩

theorem witness_PeerPortEvents :
    (∀ r ∈ [PortRun.disabled, .detect, .train, .ident, .key, .active, .retrain, .down, .isolated],
      ((ported (portIn r)).peer.ports.get 1).run = r ∧ ((ported (portIn r)).peer.ports.get 1).failed = false) ∧
    (let s := ported (portIn .ident)
     neighbour.peerId ≠ s.pins.peerId ∧ s.reachable neighbour.peerId = false ∧
       neighbour.domain = s.domain ∧ neighbour.domain ≠ 0 ∧ neighbour.saggar = s.saggar) ∧
    (ported {}).mayWrite .firmware (.peer 1) = true ∧ (ported {}).mayWrite (.func 1) (.peer 1) = false := by
  decide +kernel

/-- R441, R442: four lanes and more train; a PEERID of our own isolates with cause 1; R450: the offset of a
time exchange is ((t2 - t1) - (t4 - t3)) / 2. -/
theorem test_ports : ((after (.peerDetected 1 4) (ported (portIn .detect))).peer.ports.get 1).run = .train ∧
    ((after (.peerDetected 1 3) (ported (portIn .detect))).peer.ports.get 1).run = .detect ∧
    ((after (.peerIdent 1 ⟨0, 1, false, 9, 2⟩) (ported (portIn .ident))).peer.ports.get 1).cause = 1 ∧
    ((after (.peerIdent 1 neighbour) (ported (portIn .ident))).peer.ports.get 1).run = .key ∧
    ((after (.timeExchange 1 100 180 200 140) (ported (portIn .active))).peer.ports.get 1).offset = 70 ∧
    ((after (.peerRedetect 1) (ported (portIn .down))).peer.ports.get 1).run = .detect := by decide +kernel

/-- A flit with a number and an acknowledgement. -/
def flit (type : BitVec 3) (seq : BitVec 12) : Flit := ⟨seq, 0, false, type, 0, 0, 0, 0, 0⟩

/-- The queue of function 0. -/
def queued (x : PeerQueue) : State :=
  let s := ported { portIn .active with buffer := [⟨flit 1 0, .time, 7⟩], reqCredit := 1, respCredit := 1, nbrId := 3 }
  let s := { s with peer := { s.peer with
    queues := [(0, x)], routes := s.peer.routes.set 3 (0x11 : Byte) } }
  { s with sync := { s.sync with objs := [(0, 1)] } }

/-- A SIGNAL that adds 7 to object 5 of function 0 of PEERID 3. -/
def signal : BitVec 512 := BitVec.ofNat 512 (2 + 4 * 3 + 2 ^ 9 + 2 ^ 0xC0 * 5 + 2 ^ 0x100 * 7)

/-- A WRITE of 64 bytes at 0x40 to 0x80 of function 0 of PEERID 3, which then signals. -/
def writes : BitVec 512 :=
  BitVec.ofNat 512 (4 * 3 + 2 ^ 9 + 2 ^ 0x20 * 64 + 2 ^ 0x40 * 0x40 + 2 ^ 0x80 * 0x80 + 2 ^ 0xC0 * 5 + 2 ^ 0x100 * 7)

theorem witness_PeerTransferEvents :
    ((portIn .active).tagOk (flit 1 0) = true ∧ (flit 1 0).seq = (portIn .active).rxGood + 1 ∧
      (flit 0 0).type = 0 ∧ (flit 1 5).seq ≠ (portIn .active).rxGood + 1) ∧
    ((queued {}).mayWrite .firmware (.peer 0) = true ∧ (queued {}).checkRuns (.peer 0) (.pq 0) = false ∧
      (queued {}).mayWrite (.func 1) (.peer 0) = false) ∧
    (let s := queued { run := true, state := .active, committed := true }
     (s.pq 0).state = .active ∧ (s.pq 0).run = true ∧ s.kick 0 ≠ (s.pq 0).head ∧ (s.pq 0).flight = [] ∧
       (s.xlateRange 0 (s.pqSlot 0 0) 64 .dispatcher false).1 = .ok [(0, 64)] ∧
       (match s.pqStart 0 0, s.pqStart 0 signal, s.pqStart 0 3 with
        | .fails a _, .goes ops _, .fails b _ => a == 0x42 && ops == [.signal 5 false 7] && b == 0x40
        | _, _, _ => false) = true ∧ badPeer 3 = true ∧ s.enabled .disp = true) ∧
    ((queued { flight := [⟨0, signal, none, 0, [], 1, []⟩] }).pq 0).flight = [⟨0, signal, none, 0, [], 1, []⟩] ∧
    (peerDesc signal).op ≠ 1 ∧ (peerDesc (BitVec.ofNat 512 1)).op = 1 ∧
    ((queued {}).xferLate ⟨0, signal, none, 0, [], 1, []⟩ = false ∧ { queued {} with time := 10 ^ 8 }.xferLate
      ⟨0, signal, none, 0, [], 1, []⟩ = true) ∧
    (bit ((queued {}).live (.peer 0) 0x064) 0 = true ∧ bit ((queued {}).live (.peer 0) 0x064) 1 = false ∧
      ((queued {}).xlateShared 0 0x40 .peer true 0).1 = .ok 0x40 ∧
      ((queued {}).xlateShared 0 0x200040 .peer true 0).1 = .refused 1 ∧
      (queued {}).recovering ((queued {}).stackOf 0x40).1 = false ∧ (queued {}).hbmHeld 0 0x40 1 = false ∧
      (queued {}).hbmHeld 0 0x140 1 = true ∧ (queued {}).anyInRecovery [(0x140, 1)] = false ∧ ((queued {}).xlateShared 0 0x140 .peer true 0).1 = .ok 0x140 ∧
      bit ((queued {}).live (.part 0) 0x090) 0 = false) := by decide +kernel

/-- The check value of CRC-64/ECMA-182, of the bytes "123456789". -/
theorem test_crc64 : crc64 (labelBytes "123456789") = 0x6C40DF5F0B497347 := by decide +kernel

/-- R444: of two neighbours over ports 1 and 3 the route is port 1, with port 3 beside it, and one hop. -/
theorem test_route :
    let s := ported { portIn .active with nbrId := 4 }
    ({ s with peer := { s.peer with ports := s.peer.ports.set 3 { portIn .active with nbrId := 4 } } }.routeTo 4)
      = 0x3D := by decide +kernel

/-- R439, R440, R446, R447: a flit out of sequence is answered with NAK; a request leaves with its descriptor, or waits
without credit; its data and then its signal; credit comes back. -/
theorem test_requests :
    ((after (.flitReceive 1 { flit 1 5 with crc := crc64 (flitBytes (flit 1 5)) }) (queued {})).peer.ports.get
      1).out.map (fun x => (x.flit.type, x.flit.nak, x.flit.ack)) = [(0, true, 0xFFF)] ∧
    (((queued { run := true, state := .active }).sendRequests 1 0 (peerDesc writes)
      ((peerDesc writes).requests [9])).peer.ports.get 1).out.map (·.cargo) = [.request ⟨3, false, 0, .write 0x80 [9]⟩] ∧
    ((after (.peerDescComplete 0 (.done [] false)) (queued { flight := [⟨0, writes, none, 0, [], 1, []⟩] })).peer.ports.get
      1).out.map (·.cargo) = [.request ⟨3, false, 0, .signal 5 false 7⟩] ∧
    ((after (.peerDescComplete 0 (.done [] false)) (queued { flight := [⟨0, writes, none, 0, [], 1, []⟩] })).peer.ports.get
      1).owedResp = 0 ∧
    (((queued {}).send 1 (.response (.data (List.replicate 65 0) false))).peer.ports.get 1).waiting.length = 1 := by
  decide +kernel

/-- R440: the eighth replay retrains; R447: a refusal fails the queue with its status; R449: a peer's READ. -/
theorem test_peer : ((after (.flitReplayTimeout 1) (queued {})).peer.ports.get 1).run = .retrain ∧
    ((after (.peerDescComplete 0 (.refused 0x44)) (queued { flight := [⟨0, signal, none, 0, [], 1, []⟩] })).pq 0).errStat =
      0x44 ∧
    (after (.peerRequest 1 0 (.read 0x40 1)) (queued {})).peer.reply = .data [9] false ∧
    (after (.peerRequest 1 1 (.read 0x40 1)) (queued {})).peer.reply = .refused 0x43 := by decide +kernel

/-- R449: what was answered RETRY leaves again 100 µs later, by its route; R452: LOCKED ends 10 ms after the path did. -/
theorem test_retry :
    let s := { queued { flight := [⟨0, signal, none, 0, [.signal 5 false 7], 1, [.signal 5 false 7]⟩] } with time := 100000 }
    ((after (.retryResend 0) s).peer.ports.get 1).out.map (·.cargo) = [.request ⟨3, false, 0, .signal 5 false 7⟩] ∧
    after (.retryResend 0) { s with time := 99999 } = { s with time := 99999 } ∧
    (after .timeLockLost { s with time := 10 ^ 7, peer := { s.peer with locked := true, alone := some 0 } }).peer.locked =
      false := by decide +kernel
/-! ### Clocks, power, firing and BIST -/

/-- The clocks as given. -/
def clocked (k : Clocks) : State := { on .clk [(0x044, 0x100606)] (on .pwr [(0x040, 450)] served) with clocks := k }

theorem witness_ClockAndPowerEvents :
    ((clocked {}).clocks.ref100 = false ∧ (clocked { ref100 := true }).clocks.ref100 = true) ∧
    (((clocked {}).isl 5).droop = false ∧ ((clocked { isl := [(5, { droop := true })] }).isl 5).droop = true) ∧
    (1000 * (fld ((clocked {}).live .pwr 0x040) 0 10).toNat = 450000 ∧ 1200 < (clocked {}).fnow 0 ∧
      ¬ 1200 < (clocked { fscale := 128 }).fnow 0) ∧
    ((919 : BitVec 12).toInt < 920 ∧ 920 ≤ (920 : BitVec 12).toInt) ∧
    ((clocked {}).tcapOf 0 = 1900 ∧ ((clocked { isl := [(3, { temp := 800 })] }).isl 3).temp.toInt = 800) ∧
    ((96 : BitVec 9).toInt ≤ 100 ∧ (clocked {}).board.svc.state ≠ .boot ∧ (clocked {}).recovering 0 = false) :=
  by decide +kernel

/-- R500: above LIM the FSCALE falls by 8 where an island runs above 1,200 MHz, else MDUTY by 1; R502: 80.0 °C
lowers TCAP by 50 MHz; R503: a stack above 95 °C serves 3/4. -/
theorem test_limits : (after .powerLimiterTick (clocked { estimate := 450001 })).clocks.fscale = 248 ∧
    (after .powerLimiterTick (clocked { estimate := 450001, fscale := 128 })).clocks.mduty = 15 ∧
    ((after .powerLimiterTick (clocked { measured := some 0 })).clocks.fscale = 256) ∧
    (after (.thermalThrottleTick 0) (clocked { isl := [(3, { temp := 800 })] })).tcapOf 0 = 1850 ∧
    ((after (.hbmTempSample 0 96) served).hbm.units.get 0).therm = 192 ∧
    (after (.tempSample 0 920) served).pins.thermtrip = true ∧
    ((after (.regulatorFault 0) served).recovering 0) = true := by decide +kernel

/-- The readings of the worked example: tile 11's island 2 and tile 13's, at 0.750 V and 0.800 V. -/
def example1 : State := clocked { isl :=
  [(90, { lim0 := 1690, lim1 := 1765, v0 := 750, v1 := 800 }),
    (106, { lim0 := 1875, lim1 := 1955, v0 := 750, v1 := 800 })] }

/-- The worked example of chapter 15: 0.760 V, and set points of 1,600 and 1,775 MHz. -/
theorem test_firing_example : example1.railMeets 1 755 = false ∧ example1.railMeets 1 760 = true ∧
    example1.fsetAt 90 760 = some 1600 ∧ example1.fsetAt 106 760 = some 1775 := by decide +kernel

/-- A firing of partition 0 with these islands to sweep. -/
def firing (todo : List Island) (choice : Option (Nat × List (Island × BitVec 11))) : Firing :=
  ⟨⟨fullGroups, true, 1⟩, .part 0, [], todo, choice, 1, ([], [])⟩

/-- Rails at 750 mV with VDD_SRAM at 850 mV, and goals. -/
def rails (r0 r5 : Option (BitVec 12)) : Vector Rail 13 :=
  ((Vector.replicate 13 ({ set := 750 } : Rail)).set 0 { set := 750, goal := r0 }).set 5
    { set := 850, goal := r5 }

/-- Two islands of tile 0 to sweep, the tile gated. -/
def sweeping : State :=
  let s := clocked
    { isl := [(0, { gated := true }), (1, { gated := true })], firing := some (firing [0, 1] none) }
  { s with board := { s.board with
      spares := Vector.replicate 2 { ({} : Spare) with state := .failed, lcore := 1 } } }

theorem witness_FiringAndBistEvents :
    ((fld ((clocked {}).live .clk 0x044) 16 8).toNat = 16) ∧
    ((clocked {}).mayWrite .firmware .clk = true ∧ (clocked {}).mayWrite (.func 1) .clk = false) ∧
    ((3, 0) ∈ (clocked { skipped := [(3, 0)] }).clocks.skipped ∧ 600 * 10 ^ 9 ≤ ((600000000000 : DWord) - 0).toNat ∧
      (clocked {}).gatedPage (.core 0) = false ∧ sweeping.gatedPage (.core 0) = true) ∧
    (sweeping.clocks.firing = some (firing [0, 1] none) ∧ sweeping.lcoreOf 0 = some 0 ∧
      sweeping.frozen 1 = false ∧ (sweeping.core 1).clearing = false ∧
      (∀ j, (sweeping.board.spares.get j).state ≠ .idle) ∧ ∀ c, (sweeping.ctx 0 c).run = .idle) ∧
    (sweeping.sweepable 0 = true ∧ (sweeping.isl 0).gated = true ∧ ¬ sweeping.tcapOf 0 < 1900 ∧
      sensorsOnly 0 = false) ∧
    (let s := clocked { rails := rails none (some 825), firing := some (firing [] (some (760, [(0, 1600)]))) }
     (s.clocks.rails.get 5).goal = some 825 ∧ s.railSet 0 < 760 ∧ FireGroup.rail (.part 0) = 0 ∧
       ∀ q : Fin 13, q.val < 5 → (if q = 0 then 760 else s.railSet q) + 25 ≤ 825) ∧
    (let s := clocked { rails := rails (some 760) none, firing := some (firing [] (some (760, [(0, 1600)]))) }
     (s.clocks.rails.get 0).goal = some 760 ∧ 800 < s.railSet 5 ∧
       ∀ q : Fin 13, q.val < 5 → (if q = 0 then 760 else s.railSet q) + 25 < s.railSet 5) := by
  refine ⟨by decide +kernel, by decide +kernel, by decide +kernel, by decide +kernel, by decide +kernel,
    by decide +kernel, by decide +kernel⟩

/-- R498: the core rail rises once VDD_SRAM has settled, and set points are written once both have. -/
theorem test_rails :
    (let s := clocked { rails := rails none (some 825), firing := some (firing [] (some (760, [(0, 1600)]))) }
     ((after (.railSettled 5) s).clocks.rails.get 0).goal = some 760) ∧
    ((after (.islandSweepDone 0 1690 1765 7) sweeping).isl 0).lim0 = 1690 := by decide +kernel

/-- A BIST of island 24, of a spare, by system firmware, with its page as given. -/
def bist (target len : Word) (b : Bist) : State :=
  { on .bist [(0x040, target), (0x044, len)] served with clocks := { served.clocks with bist := b } }

theorem witness_BistEvents :
    ((bist 0 0 {}).mayWrite .firmware .bist = true ∧ (bist 0 0 {}).mayWrite (.func 1) .bist = false ∧
      (bist 0 0 {}).saggar = false) ∧
    (fld ((bist 0 0 {}).live .bist 0x040) 2 2 : BitVec 2) = 0 ∧
    (bistTargets 0x1004 = some [256] ∧ (bist 0x1004 1 {}).targetServes 256 = false ∧
      (bist 0x1004 1 {}).targetServes 0 = true ∧ ((bist 0x1004 1 {}).isl 256).gated = false ∧
      (fld ((bist 0x1004 1 {}).live .bist 0x044) 0 24 : BitVec 24) = 1) ∧
    (bist 0x1004 1 { busy := true, targets := [256] }).clocks.bist.busy = true ∧
    (bist 0 0 {}).lcoreOf 32 = none := by decide +kernel

/-- R519: what BIST refuses, and how it ends. -/
theorem test_bist : (after (.bistGo .firmware) (bist 0 0 {})).clocks.bist.code = 0x01 ∧
    (after (.bistGo .firmware) (bist 0x1004 1 {})).clocks.bist.busy = true ∧
    (after (.bistGo .firmware) (bist 4 1 {})).clocks.bist.code = 0x40 ∧
    (after (.bistAbort .firmware) (bist 0x1004 1 { busy := true, targets := [256] })).clocks.bist.result = 2 ∧
    (after (.bistDone 0 [] []) (bist 0x1004 1 { busy := true, targets := [256] })).clocks.bist.result = 0 := by
  decide +kernel


/-- R507: six hours of nanoseconds at reset's INTERVAL. -/
theorem test_interval : (fld ((clocked {}).live .clk 0x044) 0 5).toNat = 6 ∧
    ({ clocked {} with time := 21600000000000 }).firingDue = true ∧
    ({ clocked {} with time := 21599999999999 }).firingDue = false := by decide +kernel
/-! ### Castling, hangs, recovery and the log -/

/-- Spare 0 takes over logical core 1, at a step. -/
def castling (step : BitVec 3) (back : Bool) : State :=
  let s := served
  { s with board := { s.board with
      spares := s.board.spares.set 0 { state := .copying, lcore := 1, step := step, back := back } } }

/-- Context 0 of core 0 runs a job, its check timer at its limit and the fire as given. -/
def checked (c : Option ChkFire) : State := (atWork.modCtx 0 0 fun x => { x with chk := c }).modCore 0 fun k =>
  { k with timers := { k.timers with chk := Vector.replicate 4 50000000 } }

/-- The matrix array feeds a job that has not moved for 50 ms. -/
def stuck : State := (array (mjob gemm .feeding 0)).modCore 0 fun k =>
  { k with timers := { k.timers with eng := Vector.replicate 3 50000000 } }

/-- A context whose check timer has fired has entered HALTED. -/
def stopped : State := halted.modCtx 0 2 fun x => { x with chk := some .progress }

/-- Partition 0 recovers and stands at a step. -/
def recoveringAt (step : BitVec 3) (dump : Bool) : State :=
  { served with
    parts := served.parts.set 0 { run := .recovering, step := step, hangInfo := 3, dumpValid := dump } }

/-- A record of the log. -/
def record (cls : BitVec 3) : LogRec := ⟨7, cls, false, 1, 0, 0, 0, 1, 0, 0, 0, 0, 0, false⟩

/-- A severe record and one that is not. -/
def logged : State := { served with journal := { served.journal with
  places := [(0, some (record 2)), (1, some (record 1))] } }

theorem witness_RecoveryEvents :
    (((castling 2 false).board.spares.get 0).state = .copying ∧ ((castling 2 false).core 1).engineBoundary = true ∧
      (served.board.spares.get 0).state ≠ .copying ∧ (∀ x, x < 8 → (castling 3 false).islandOk (8 * 32 + x) = true) ∧
      (castling 3 false).clocks.firing = none ∧ (castling 3 false).clocks.requests = []) ∧
    (served.board.svc.state ≠ .boot ∧ served.recovering (partOf 1) = false) ∧
    (∃ j, (checked none).jobOn 0 0 = some j ∧ ((checked none).late j.job = false) ∧
      (checked none).timerHeld 0 0 = false ∧ ((checked none).ctx 0 0).run ≠ .halted ∧
      (checked none).chkLimit 0 ≤ (checked none).chkTimer 0 0) ∧
    (((checked (some .progress)).ctx 0 0).chk ≠ none ∧ served.jobOn 0 0 = none ∧
      (checked (some .progress)).replayed 0 = none) ∧
    ((stopped.ctx 0 2).chk ≠ none ∧ (stopped.ctx 0 2).run = .halted ∧ stopped.lcoreOf 0 = some 0 ∧
      stopped.jobOn 0 2 = none) ∧
    ((stuck.core 0).engineWorks 1 = true ∧ (served.core 0).engineWorks 1 = false ∧ stuck.engineHeld 0 1 = false ∧
      stuck.chkLimit 0 ≤ (stuck.core 0).engTimer 1 ∧ stuck.replayed 0 = none) ∧
    (served.mayWrite .firmware (.part 0) = true ∧ served.mayWrite (.func 1) (.part 0) = false ∧
      served.partIn 1 = true ∧ ∀ d ∈ [284, 289, 290, 291, 292, 293], served.islandOk d = true) ∧
    (∀ st d, (recoveringAt st d).recovering 0 = true ∧ ((recoveringAt st d).part 0).step = st ∧
      ((recoveringAt st d).part 0).dumpValid = d) ∧
    (served.hbm.wide = false ∧ (recoveringAt 4 false).board.mesh = [] ∧
      ((recoveringAt 5 false).part 0).suspects = [] ∧ ((recoveringAt 5 false).part 0).later = [] ∧
      ((recoveringAt 5 false).part 0).back = []) ∧
    (logged.place 0 = some (record 2) ∧ (record 2).severe = true ∧ (record 1).severe = false ∧
      logged.place 2 = none ∧ Tab.wf none logged.journal.places = true ∧ Tab.wf {} logged.pages = true) := by
  refine ⟨by decide +kernel, by decide +kernel, ⟨_, rfl, by decide +kernel⟩, by decide +kernel, by decide +kernel,
    by decide +kernel, by decide +kernel, by decide +kernel, by decide +kernel, by decide +kernel⟩

/-- R541: the core moves to its spare tile; R526: a timer that fires asks the context to stop; R532, R529: a
recovery by command has cause 6; R524: ACK. -/
theorem test_recovery : (after (.castlingComplete 0) (castling 3 false)).tileOf 1 = 32 ∧
    ((after (.checkTimer 0 0) (checked none)).ctx 0 0).stopReq = true ∧
    (fld ((after (.partRecover .firmware 0) served).part 0).hangInfo 0 8 : Byte) = 6 ∧
    ((after (.recoveryStepDone 0) (recoveringAt 1 false)).part 0).step = 2 ∧
    (after (.partOffline .firmware 0) served).partIn 0 = false ∧
    (((after (.logAck .firmware 7) logged).place 0).map (·.ack)) = some true ∧
    (((after (.logFlush true) logged).place 1).map (·.flushed)) = some false := by decide +kernel

/-- R526: the timer of a job counts the time that passes and starts again when a bundle retires. -/
theorem test_timers : ((checked none).runTimers 1).chkTimer 0 0 = 50000001 ∧
    ((checked none).runTimers 1).chkTimer 0 1 = 50000000 ∧ ((checked none).retire 0 0 1 .seq).chkTimer 0 0 = 0 ∧
    ((after (.engineStall 0 1) stuck).core 0).stalled = 2 ∧
    ((after (.engineStall 0 1) (array (mjob gemm .feeding 0))).core 0).stalled = 0 := by decide +kernel

/-- R528: a context in HALTED counts as stopped, and no hang is declared. R531: the dump of step 2 has its header. -/
theorem test_stopped : ((after (.hangDeclaration 0 (.inl 2)) stopped).ctx 0 2).run = .idle ∧
    (after (.hangDeclaration 0 (.inl 2)) stopped).recovering 0 = false ∧
    ((after (.recoveryStepDone 0) (recoveringAt 2 false)).part 0).dumpByte 0x03 = 0x50 ∧
    ((after (.recoveryStepDone 0) (recoveringAt 2 false)).part 0).dumpByte 0x14 = 10 := by decide +kernel

/-- R544: the last step serves again, with RESULT. -/
theorem test_recovered : (after (.recoveryComplete 0 []) (recoveringAt 5 false)).recovering 0 = false ∧
    ((after (.recoveryComplete 0 []) (recoveringAt 5 false)).part 0).result = 1 := by decide +kernel

/-! ### The register pages -/

/-- The page of a class. -/
def pageOf (c : PageClass) : BitVec 13 := BitVec.ofNat 13 (pageNo c)

/-- Page CLK being checked for ENABLE, with a word staged. -/
def checking (w : Word) : State := opened.modPage (pageNo .clk) fun p =>
  { p with checking := [.enable], staged := [(0x044, w)] }

theorem witness_RegisterPages :
    (pageClass (pageOf .clk).toNat = some .clk ∧ pageClass 0x0003 = none ∧
      opened.mayWrite (.func 0) .clk = true ∧ opened.mayWrite (.func 1) .clk = false) ∧
    (opened.reach (.func 0) (pageNo .clk) = some .clk ∧ opened.reach (.func 1) (pageNo .clk) = none ∧
      (regInfo .clk 0x044).isSome = true ∧ roCtrl .clk = false ∧ fwOnlyCtrl .clk = false ∧
      roCtrl .chip = true) ∧
    ((opened.page (pageNo .clk)).checking = [] ∧ ((checking 0).page (pageNo .clk)).checking = [.enable] ∧
      ((checking 0).page (pageNo .clk)).held = []) ∧
    ((checking 0x100606).blockCheck .clk false = 0 ∧ (checking 0x100606).enableTests .clk = 0 ∧
      (checking 0x100600).enableTests .clk = 0x40 ∧ (checking 0).needs .clk = [] ∧
      (∃ d ∈ served.needs .disp, served.enabled d = false)) ∧
    (counterAt (.perf 0) 0x100 = some (.page 0 .perf48, false) ∧
      counterAt (.perf 0) 0x104 = some (.page 0 .perf48, true) ∧ opened.hides (.func 0) = false ∧
      opened.mayRead (.func 0) (.perf 0) = true ∧ opened.mayWrite .firmware (.perf 0) = true) ∧
    (opened.mayRead (.func 0) .chip = true ∧ opened.mayRead (.func 1) .chip = false) := by decide +kernel

/-- R53, R59: ENABLE starts a check; a check that passes enables the page, one that fails refuses with its
code; R52: LOCK; R58: a held write. -/
theorem test_pages : ((after (.blkEnable (.func 0) (pageOf .clk)) opened).page (pageNo .clk)).checking = [.enable] ∧
    ((after (.consistencyCheckDone (pageOf .clk) none) (checking 0x100606)).page (pageNo .clk)).enable = true ∧
    ((after (.consistencyCheckDone (pageOf .clk) none) (checking 0x100600)).page (pageNo .clk)).refuseCode = 0x40 ∧
    ((after (.blkLock (.func 0) (pageOf .clk)) opened).page (pageNo .clk)).lock = true ∧
    ((after (.registerWrite (.func 0) false (BitVec.ofNat 25 (4096 * pageNo .clk + 0x44)) .b4 0x100606)
      (checking 0)).page (pageNo .clk)).held.length = 1 := by decide +kernel

/-- The worked example of chapter 2: 5 events take FFFF_FFFF_FFFD to 2 with OVF; a write of 0 at the same
time leaves 5. -/
theorem test_counter : bump .perf48 0xFFFFFFFFFFFD 5 = (2, true) ∧
    Claims.cnt (after (.counterWrite .firmware (pageOf (.perf 0)) 0x100 .b8 0 5) opened) (.perf 0) 0 = 5 ∧
    ((after (.counterWrite .firmware (pageOf (.perf 0)) 0x100 .b8 0 5) opened).page (pageNo (.perf 0))).ovf = 0 := by
  decide +kernel

/-! ### The queue -/

/-- Two commands wait. -/
def twoWaiting : State := { demo with pending := [.addi b0 1 2 1, .nop b0] }

theorem witness_StepRunsFront : twoWaiting.pending = .addi b0 1 2 1 :: [.nop b0] ∧ demo.pending = [] := ⟨rfl, rfl⟩

/-- The front command takes effect, and the other one waits on. -/
theorem test_step : (match step twoWaiting with
    | .next t => t.pending.length == 1 && dreg t 1 == 8
    | _ => false) = true := by decide

theorem witness_MemoryCanonical : State.reset.memoryWf = true ∧ twoWaiting.memoryWf = true ∧
    (match step State.reset with
    | .next _ => true
    | _ => false) = true := by decide +kernel

/-- No word of the table spells a command. -/
theorem test_decode : decodeTableWord 32 0 = none := rfl

/-! ### Instruction words, field by field (R104, R106, R108, R154, R562 to R571) -/

/-- A last word with one long operation, of a major and its other 24 bits. -/
def long (major : BitVec 6) (rest : BitVec 24) : Word := 1#1 ++ 0#1 ++ major ++ rest

theorem test_words_scalar :
    decodeWord (long 0x00 (3#5 ++ 4#5 ++ 5#5 ++ 1#9)) = [some (.alu .sub 3 4 5)] ∧
    decodeWord (long 0x01 (3#5 ++ 4#5 ++ 0x3FFF#14)) = [some (.aluImm .addi 3 4 0x3FFF)] ∧
    decodeWord (long 0x05 (3#5 ++ 4#5 ++ 0#7 ++ 2#2 ++ 9#5)) = [some (.aluImm .srai 3 4 9)] ∧
    decodeWord (long 0x06 (0#2 ++ 2#3 ++ 4#5 ++ 5#5 ++ 3#9)) = [some (.cmp .ltu 2 4 5)] ∧
    decodeWord (long 0x07 (3#5 ++ 1#1 ++ 0x2AAA#18)) = [some (.movhi 3 0x2AAA)] ∧
    decodeWord (long 0x0A (0#2 ++ 6#3 ++ 4#5 ++ 8#5 ++ 1#9)) = [some (.movAccFrom 6 4 8)] ∧
    decodeWord (long 0x0B (3#5 ++ 0#2 ++ 6#3 ++ 31#5 ++ 1#9)) = [some (.movAcc true 3 6 31)] ∧
    decodeWord (long 0x0C (0#1 ++ 9#4 ++ 0#1 ++ 8#4 ++ 5#5 ++ 1#9)) = [some (.suba 9 8 5)] ∧
    decodeWord (long 0x0C (16#5 ++ 8#5 ++ 5#5 ++ 1#9)) = [none] := by decide

theorem test_words_memory :
    decodeWord (long 0x12 (5#3 ++ 7#5 ++ 2#4 ++ 9#5 ++ 0#7)) = [some (.load .word 7 ⟨5, 2, 0, 9⟩)] ∧
    decodeWord (long 0x14 (6#3 ++ 7#5 ++ 2#4 ++ 0x800#12)) = [some (.store .half 7 ⟨6, 2, 0x800, 0⟩)] ∧
    decodeWord (long 0x17 (0#3 ++ 6#5 ++ 3#4 ++ 2#2 ++ 1#1 ++ 0x10#9)) =
      [some (.tagged .put .word 6 ⟨0, 3, 0x10, 0⟩)] ∧
    decodeWord (long 0x36 (2#3 ++ 8#5 ++ 1#4 ++ 16#12)) = [some (.sync .cas 8 1 16)] ∧
    decodeWord (long 0x28 (1#1 ++ 0#1 ++ 0#1 ++ 6#5 ++ 2#4 ++ 1#3 ++ 0x1FF#9)) =
      [some (.vmem .unit true 6 2 1 (.imm 0x1FF))] ∧
    decodeWord (long 0x2B (0#1 ++ 1#1 ++ 0#1 ++ 6#5 ++ 2#4 ++ 1#3 ++ 12#5 ++ 2#2 ++ 0#2)) =
      [some (.vmem .indexed false 6 2 1 (.reg 12 2))] := by decide

theorem test_words_control :
    decodeWord (long 0x18 (2#3 ++ 1#1 ++ 0xFFFFE#20)) = [some (.br 2 true 0xFFFFE)] ∧
    decodeWord (long 0x1A (3#2 ++ 100#16 ++ 5#6)) = [some (.loop 3 (.imm 100) 5)] ∧
    decodeWord (long 0x1B (1#2 ++ 8#5 ++ 9#17)) = [some (.loop 1 (.reg 8) 9)] ∧
    decodeWord (long 0x1C (0#10 ++ 6#14)) = [some .ctxEnd] ∧
    decodeWord (long 0x3C (1#5 ++ 4#5 ++ 5#14)) = [some (.mtsr 5 4)] ∧
    decodeWord (long 0x3D (0#5 ++ 4#5 ++ 0x840#14)) = [some (.outp 4 0x840)] ∧
    decodeWord (long 0x3E (3#5 ++ 0#19)) = [some .irqOff] ∧
    decodeWord (long 0x38 0) = [none] := by decide

theorem test_words_vector :
    decodeWord (long 0x1E (3#5 ++ 4#5 ++ 5#5 ++ 2#3 ++ 1#2 ++ 5#4)) = [some (.vint .subus 3 4 5 2 1)] ∧
    decodeWord (long 0x1F (3#5 ++ 4#5 ++ 2#3 ++ 1#2 ++ 2#3 ++ 33#6)) = [some (.vimm .srai 3 4 2 1 33)] ∧
    decodeWord (long 0x21 (0#2 ++ 7#3 ++ 4#5 ++ 5#5 ++ 2#3 ++ 0#2 ++ 3#4)) = [some (.vmac .msuH 7 4 5 2)] ∧
    decodeWord (long 0x23 (3#5 ++ 4#5 ++ 2#2 ++ 0#6 ++ 1#2 ++ 0#4)) = [some (.vsetl 3 4 1 2)] ∧
    decodeWord (long 0x27 (2#5 ++ 1#5 ++ 13#5 ++ 1#2 ++ 2#2 ++ 1#1 ++ 0#1 ++ 1#1 ++ 0#1 ++ 0#1)) =
      [some (.vdwmac 2 1 13 1 2 true false true)] ∧
    decodeWord (long 0x2C (3#5 ++ 4#5 ++ 0#5 ++ 2#3 ++ 0#2 ++ 6#4)) = [some (.vcvt .e4S 3 4 2)] ∧
    decodeWord (long 0x21 (7#5 ++ 4#5 ++ 5#5 ++ 2#3 ++ 1#2 ++ 3#4)) = [none] := by decide

/-- R108: two short operations, the upper one first. -/
theorem test_words_short :
    decodeWord (1#1 ++ 1#1 ++ 0x02#5 ++ 3#4 ++ 5#4 ++ 0#2 ++ 0x0E#5 ++ 7#4 ++ 3#3 ++ 2#3) =
      [some (.alu .add 3 3 5), some (.load .word 7 ⟨0, 3, 8, 0⟩)] ∧
    decodeWord (1#1 ++ 1#1 ++ 0x1D#5 ++ 1#2 ++ 1#1 ++ 0x7F#7 ++ 0x16#5 ++ 9#4 ++ 8#4 ++ 1#2) =
      [some (.br 1 true 0xFFFFF), some (.vint .add 9 9 8 0 2)] ∧
    decodeWord (1#1 ++ 1#1 ++ 0x07#5 ++ 3#4 ++ 1#1 ++ 4#5 ++ 0x1F#5 ++ 0#10) =
      [some (.aluImm .srai 3 3 4), none] := by decide

/-! ### Terms that are not well formed -/

theorem test_wellFormed : (Instr.add b0 1 2 3).wellFormed = true ∧
    (Instr.bar2Read 0 0 4096).wellFormed = true ∧ (Instr.bar2Write 0 0 [1]).wellFormed = true ∧
    (Instr.add ⟨0, none, [0x80000000], 0⟩ 1 2 3).wellFormed = true := by decide

/-- R104, R110: a bundle of five words, one that goes on past a word with E = 1, and one that does not end. -/
theorem test_illFormed_bundle : (Instr.nop ⟨0, none, [0, 0, 0, 0x80000000], 0⟩).wellFormed = false ∧
    (Instr.nop ⟨0, none, [0x80000000, 0x80000000], 0⟩).wellFormed = false ∧
    (Instr.nop ⟨0, none, [0], 0⟩).wellFormed = false := by decide

/-- R101, R143, R163, R306, R383: addressing modes 2 and 3, SEW 3, a shift that is not given, mode 3, and an odd
register of a pair. -/
theorem test_illFormed_operands : (Instr.ldW b0 1 ⟨2, 1, 0, 0⟩).wellFormed = false ∧
    (Instr.vsetl b0 1 2 3 0).wellFormed = false ∧ (Instr.movAccFromData b0 1 2 9).wellFormed = false ∧
    (Instr.tagmode b0 1 3).wellFormed = false ∧ (Instr.syncAdd b0 1 2 0).wellFormed = false := by decide

/-- R403, R422: an access of BAR2 has 1 to 4,096 bytes to read, and 1 to 512 to write. -/
theorem test_illFormed_bar2 : (Instr.bar2Read 0 0 0).wellFormed = false ∧
    (Instr.bar2Read 0 0 4097).wellFormed = false ∧ (Instr.bar2Write 0 0 []).wellFormed = false ∧
    (Instr.bar2Write 0 0 (List.replicate 513 0)).wellFormed = false := by decide +kernel

end Sys2Proof.Tests
end

section
/-! PROOFS. The board: what reset leaves (O60), and the register pages (O56). -/

namespace Sys2Proof.Machine

/-! ### The reset state, part by part -/

@[simp] theorem State.reset_core (t : Tile) : State.reset.core t = {} :=
  Vector.getElem_replicate t.isLt

@[simp] theorem State.reset_part (p : Part) : State.reset.part p = {} :=
  Vector.getElem_replicate p.isLt

@[simp] theorem State.reset_page (P : Nat) : State.reset.page P = {} := rfl

@[simp] theorem State.reset_ring (r : Nat) : State.reset.ring r = {} := rfl

@[simp] theorem State.reset_isl (i : Nat) : State.reset.isl i = islReset i := rfl

@[simp] theorem State.reset_live (c : PageClass) (off : Nat) : State.reset.live c off = regReset c off := rfl

@[simp] theorem State.reset_map (n : LCore) :
    State.reset.board.map.get n = ⟨⟨n.val, by omega⟩, false, false, false⟩ :=
  Vector.getElem_ofFn n.isLt

@[simp] theorem State.reset_ctx (t : Tile) (c : CtxId) : State.reset.ctx t c = {} := by
  rw [State.ctx, State.reset_core]
  exact Vector.getElem_replicate c.isLt

@[simp] theorem State.reset_port (q : Fin 4) : State.reset.port q = {} :=
  Vector.getElem_replicate q.isLt

@[simp] theorem State.reset_spare (i : Fin 2) : State.reset.board.spares.get i = {} :=
  Vector.getElem_replicate i.isLt

@[simp] theorem State.reset_unit (p : Part) : State.reset.hbm.units.get p = {} :=
  Vector.getElem_replicate p.isLt

theorem State.memoryWf_reset : State.reset.memoryWf = true := by decide

/-- The weight and the quota of each function at reset (R389). -/
theorem regReset_disp_fn {f : Nat} (h : f < 16) : regReset .disp (0x040 + 4 * f) = 0x40001 := by
  have hoff : 0x040 ≤ 0x040 + 4 * f ∧ 0x040 + 4 * f < 0x080 ∧ (0x040 + 4 * f) % 4 = 0 := by omega
  simp only [regReset, regInfo, if_pos hoff]

/-- An island runs at its nominal frequency: no limit reaches below that of an adaptive one (R491, R495). -/
theorem State.fnow_reset (i : Nat) : State.reset.fnow i = (nominal i).toNat := by
  by_cases h : i < 272
  · have hnom : nominal i = 1600 := if_pos (by omega)
    have hcap : State.reset.tcapOf (i / 8) = 1900 := rfl
    have hscale : State.reset.fscaled i = 1600 := by
      rw [State.fscaled, State.reset_isl, islReset, hnom]; rfl
    rw [State.fnow, if_pos (show adaptive i = true from decide_eq_true h), hcap, hscale, State.reset_isl, islReset, hnom]; rfl
  · rw [State.fnow, if_neg (show ¬ adaptive i = true from mt of_decide_eq_true h)]; rfl

theorem nominal_1600 {i : Nat} (h : i < 284 ∨ i = 289 ∨ i = 290) : nominal i = 1600 := by
  rcases h with h | rfl | rfl
  · exact if_pos h
  · rfl
  · rfl

theorem nominal_1000 {i : Nat} (h : 284 ≤ i ∧ i ≤ 288) : nominal i = 1000 := by
  rw [nominal, if_neg (by omega), if_pos (by omega)]

/-- The pages at reset: nothing enabled, locked or counted, and no interrupt (R46, R67). -/
theorem State.pages_reset (P : Nat) : (State.reset.page P).enable = false ∧ (State.reset.page P).lock = false ∧
    (State.reset.page P).irqStatus = 0 ∧ (State.reset.page P).irqEnable = 0 ∧
    (State.reset.page P).errSummary = 0 ∧ (State.reset.page P).snapSeq = 0 ∧
    ∀ i, Tab.get 0 (State.reset.page P).counters i = 0 :=
  ⟨rfl, rfl, rfl, rfl, rfl, rfl, fun _ => rfl⟩

/-- Settles O60: each value of the reset state is a default of its structure, and each configuration word, of which none
is listed, reads as its table's reset value. -/
theorem resetState : Obligations.ResetState := by
  unfold Obligations.ResetState
  refine ⟨State.memoryWf_reset, rfl, rfl, rfl, rfl, ?maps, ?spares, ?contexts, State.pages_reset, ?tiles, ?functions,
    rfl, rfl, rfl, ?timeouts, rfl, ?partitions, ?islands, rfl, rfl, fun _ => rfl, fun _ => rfl, ?rings, ?ports,
    rfl, rfl⟩
  case maps =>
    intro n
    rw [State.tileOf, State.reset_map]
    exact ⟨rfl, rfl, rfl, rfl⟩
  case spares =>
    intro i
    rw [State.reset_spare]
  case contexts =>
    intro t c
    rw [State.reset_ctx]
  case tiles => exact fun t => ⟨rfl, rfl, rfl⟩
  case functions => exact fun f hf => regReset_disp_fn hf
  case timeouts => exact fun p => rfl
  case partitions =>
    intro p
    rw [State.reset_unit, State.reset_part]
    exact ⟨rfl, rfl, rfl⟩
  case islands =>
    intro i
    refine ⟨rfl, rfl, rfl, rfl, fun h => ?_, fun h => ?_⟩
    · rw [State.fnow_reset, nominal_1600 h]; rfl
    · rw [State.fnow_reset, nominal_1000 h]; rfl
  case rings => exact fun q => ⟨rfl, rfl, rfl⟩
  case ports =>
    intro q
    rw [State.reset_port]

/-! ### A forced interrupt changes another page -/

/-- The machine after reset, but for the CLK page, whose first interrupt is enabled, and for vector 0 of PF0, which
is enabled and unmasked: an interrupt of the CLK page sends its MSI-X message at once (R53, R428, R429). -/
def clkIrqReady : State := { State.reset with
  pages := [(pageNo .clk, { irqEnable := 1 })]
  host := { State.reset.host with msixEn := 1, unmask := [(vecKey 0 0, true)] } }

/-- Forcing that interrupt sends a message, which PCIE_MSIX counts on the PCIE page (R429, R437). -/
theorem irqForce_counts_on_pcie : ∃ s',
    exec (.irqForce .firmware 0x030 1) clkIrqReady = .next s' ∧
      Tab.get 0 (s'.page (pageNo .pcie)).counters 3 = 1 :=
  ⟨_, rfl, by decide⟩

/-- Refutes O56: the row of IRQ_FORCE claims that no page but the one written changes. Where the forced bit raises an
enabled interrupt whose vector is enabled and unmasked, the MSI-X message that it sends moves PCIE_MSIX on, a counter
of the PCIE page. -/
theorem not_registerPages : ¬ Obligations.RegisterPages := by
  unfold Obligations.RegisterPages
  intro h
  obtain ⟨-, -, -, rows, -⟩ := h clkIrqReady .firmware 0x030 .clk
  obtain ⟨-, -, -, irq, -⟩ := rows (by decide) (by decide) (by decide) (.inl (by decide))
  obtain ⟨s', hexec, -, -, -, -, hother⟩ := (irq 1).2
  obtain ⟨t, hexec', hcount⟩ := irqForce_counts_on_pcie
  obtain rfl : s' = t := Host.Outcome.next.inj (hexec.symm.trans hexec')
  rw [hother (pageNo .pcie) (by decide)] at hcount
  exact absurd hcount (by decide)

end Sys2Proof.Machine
end

section
/-! PROOFS. The host and the dispatcher: RING_CTRL (O43), and the commands of the SYNC and DAT pages (O45). -/

namespace Sys2Proof.Machine

/-! ### What counting, logging and accesses to HBM keep -/

/-- What counters, interrupts, the log, translation and writes to HBM never touch: the SYNC block; and no bit of an
IRQ_STATUS falls. -/
structure Records (s s' : State) : Prop where
  sync : s'.sync = s.sync
  irq : ∀ P i, bit (s.page P).irqStatus i = true → bit (s'.page P).irqStatus i = true

namespace Records

theorem of_same {s s' : State} (hs : s'.sync = s.sync) (hp : s'.pages = s.pages) : Records s s' where
  sync := hs
  irq P i h := by rwa [State.page, hp]

theorem refl (s : State) : Records s s := .of_same rfl rfl

theorem trans {s s' s'' : State} (h : Records s s') (h' : Records s' s'') : Records s s'' where
  sync := h'.sync.trans h.sync
  irq P i hb := h'.irq P i (h.irq P i hb)

theorem foldl {α : Type} {f : State → α → State} (h : ∀ s a, Records s (f s a)) (l : List α) (s : State) :
    Records s (l.foldl f s) := by
  induction l generalizing s with
  | nil => exact .refl s
  | cons a l ih => exact (h s a).trans (ih _)

theorem modPage (s : State) (P : Nat) {f : Page → Page}
    (h : ∀ p i, bit p.irqStatus i = true → bit (f p).irqStatus i = true) : Records s (s.modPage P f) where
  sync := rfl
  irq Q i hb := by
    by_cases e : Q = P
    · subst e
      rw [State.page_modPage_same]
      exact h _ i hb
    · rwa [State.page_modPage_ne _ _ e]

theorem sendVec (s : State) (f : Func) (v : Nat) : Records s (s.sendVec f v) := by
  unfold State.sendVec
  split
  · exact .refl s
  · split
    · exact .of_same rfl rfl
    · exact (modPage s (pageNo .pcie) (f := fun p => p.bump .pcie 3 1) fun _ _ h => h).trans (.of_same rfl rfl)

theorem evalVec (s : State) (f : Func) (v : Nat) (again : Bool) : Records s (s.evalVec f v again) := by
  unfold State.evalVec
  dsimp only
  split
  · refine .trans ?_ (.sendVec _ f v)
    exact .of_same rfl rfl
  · exact .of_same rfl rfl

theorem raise (s : State) (c : PageClass) (bits : Word) : Records s (s.raise c bits) :=
  .trans (.modPage s _ fun p i h => by
    rw [bit, BitVec.getLsbD_or, Bool.or_eq_true]
    exact .inl h) (.evalVec _ 0 _ false)

theorem count (s : State) (c : PageClass) (i n : Nat) : Records s (s.count c i n) := by
  have hbump : Records s (s.modPage (pageNo c) (Page.bump · c i n)) := .modPage s _ fun _ _ h => h
  unfold State.count
  dsimp only
  split
  · split
    · exact hbump.trans (.raise _ c 1)
    · exact hbump
  · exact hbump

theorem settlePage (s : State) (P : Nat) : Records s (s.settlePage P) := by
  unfold State.settlePage
  dsimp only
  split
  · exact .refl s
  · exact .modPage s P fun _ _ h => h

theorem record (s : State) (x : Report) : Records s (s.record x).1 := by
  have hpage : Records s
      (s.modPage (pageNo x.page) fun p => { p with errSummary := p.errSummary ||| summaryBit x.cls }) :=
    .modPage s _ fun _ _ h => h
  refine hpage.trans ?_
  unfold State.record
  dsimp only
  generalize s.modPage (pageNo x.page) _ = t
  split
  · split <;> exact .of_same rfl rfl
  · split
    · exact .count _ (.part 0) 7 1
    case h_2 i _ =>
      have hplaced (u : State) (h : Records t u) : Records t (match t.place i with
          | some e => u.settlePage e.page.toNat
          | none => u) := by
        split
        · exact h.trans (.settlePage ..)
        · exact h
      split
      · refine .trans ?_ (raise _ (.part 0) 0x10)
        exact hplaced _ (.of_same rfl rfl)
      · exact hplaced _ (.of_same rfl rfl)

theorem hbmCorrect (s : State) (dpa : Nat) : Records s (s.hbmCorrect dpa) := by
  unfold State.hbmCorrect
  split
  · exact .refl s
  · refine .trans ?_ (.count _ _ 2 1)
    exact .of_same rfl rfl

theorem hbmBad (s : State) (dpa : Nat) : Records s (s.hbmBad dpa) := by
  refine .trans (.trans ?_ (.count _ _ 3 1)) (.raise _ _ 1)
  exact .of_same rfl rfl

theorem debit (s : State) (f : Func) (dpa cost : Nat) : Records s (s.debit f dpa cost) := by
  unfold State.debit State.fillBuckets
  dsimp only
  split <;> exact .of_same rfl rfl

theorem lineRead (s : State) (f : Func) (dpa : Nat) : Records s (s.lineRead f dpa) := by
  unfold State.lineRead
  dsimp only
  have hline : Records s
      (if s.lineOk dpa then ((s.debit f dpa 64).count (s.memcOf dpa) 0 64).hbmCorrect dpa else s) := by
    split
    · exact ((debit s f dpa 64).trans (.count _ _ 0 64)).trans (.hbmCorrect _ dpa)
    · exact .refl s
  split
  · exact hline.trans (.hbmBad _ dpa)
  · exact hline

theorem lineWritten (s : State) (f : Func) (dpa n : Nat) : Records s (s.lineWritten f dpa n) := by
  unfold State.lineWritten
  dsimp only
  split
  · have hmerge := (((debit s f dpa 128).trans (.count _ (s.memcOf dpa) 1 128)).trans
      (.count _ (s.memcOf dpa) 5 1)).trans (.hbmCorrect _ dpa)
    split
    · exact hmerge.trans (.hbmBad _ dpa)
    · exact hmerge
  · exact (debit s f dpa 64).trans (.count _ _ 1 64)

theorem xlateFault (s : State) (unit : Part) (f : Func) (dva : DWord) (src : XlateSrc) (write : Bool) (cause : Nat) :
    Records s (s.xlateFault unit f dva src write cause) := by
  refine .trans (.trans ?_ (.count _ (.dat unit.val) 2 1)) (.raise _ _ 1)
  exact .of_same rfl rfl

theorem xlateBare (s : State) (unit : Part) (f : Func) (dva : DWord) (src : XlateSrc) (write : Bool) (extra : Nat) :
    Records s (s.xlateBare unit f dva src write extra).2 := by
  have hwalk : Records s ((s.xlateReads unit f dva extra).foldl (fun s a => s.lineRead f a) s) :=
    .foldl (fun s a => .lineRead s f a) _ s
  unfold State.xlateBare
  dsimp only
  split
  · exact .xlateFault ..
  split
  · exact .xlateFault ..
  split
  · exact .xlateFault ..
  split
  · split
    · exact count s (.dat unit.val) 0 1
    · exact (count s (.dat unit.val) 0 1).trans (.xlateFault ..)
  · have hmiss := (hwalk.trans (.count _ (.dat unit.val) 0 1)).trans (.count _ (.dat unit.val) 1 1)
    split
    · exact hwalk
    · exact hmiss.trans (.xlateFault ..)
    · have henter {t : State} (hit : PageHit) (h : Records s t) :
          Records s (t.modUnit unit (DatUnit.enter · f dva.toNat hit)) :=
        h.trans (.of_same rfl rfl)
      split
      · exact henter _ hmiss
      · exact (henter _ hmiss).trans (.xlateFault ..)

theorem xlateSharedBare (s : State) (f : Func) (dva : DWord) (src : XlateSrc) (write : Bool) (extra : Nat) :
    Records s (s.xlateSharedBare f dva src write extra).2 := by
  unfold State.xlateSharedBare
  split
  · exact .xlateBare ..
  · split
    · exact .refl s
    · exact .xlateFault ..

theorem hbmStoreBare (s : State) (f : Func) (dpa : Nat) (bs : List Byte) : Records s (s.hbmStoreBare f dpa bs) := by
  refine .trans (s' := s.hbmWrite dpa bs) (.of_same rfl rfl) (.foldl (fun t p => ?_) _ _)
  split
  · exact .lineWritten ..
  · exact .count ..

theorem traceWrite {s t : State} {bytes : List Byte} (h : s.traceWrite bytes = some t) : Records s t := by
  have hx := xlateSharedBare s 0 (s.traceAt s.journal.traceWptr) .dispatcher true 0
  unfold State.traceWrite at h
  dsimp only at h
  split at h
  case h_1 heq =>
    rw [heq] at hx
    split at h
    · cases h
    · obtain rfl := Option.some.inj h
      exact (hx.trans (.hbmStoreBare _ 0 _ bytes)).trans (.of_same rfl rfl)
  case h_2 heq =>
    rw [heq] at hx
    obtain rfl := Option.some.inj h
    exact (hx.trans (.count _ (.part 0) 8 1)).trans (.record ..)
  case h_3 => cases h

theorem flushTrace (s : State) (l : List (List Byte)) : Records s (s.flushTrace l) := by
  induction l generalizing s with
  | nil => exact .of_same rfl rfl
  | cons b rest ih =>
    unfold State.flushTrace
    split
    case h_1 heq => exact (traceWrite heq).trans (ih _)
    case h_2 => exact .of_same rfl rfl

theorem trace (s : State) (event : BitVec 16) (func : Func) (island : BitVec 9) (arg0 arg1 : DWord) :
    Records s (s.trace event func island arg0 arg1) := by
  unfold State.trace
  dsimp only
  split
  · exact .refl s
  split
  · exact .count ..
  · exact .flushTrace ..

theorem log (s : State) (x : Report) : Records s (s.log x) := by
  have hrecord := record s x
  unfold State.log
  split
  case h_1 heq =>
    rw [heq] at hrecord
    exact hrecord.trans (.trace ..)
  case h_2 heq => rwa [heq] at hrecord

theorem logs (s : State) (l : List Report) : Records s (l.foldl State.log s) := .foldl log l s

/-- The log record of a refused translation. -/
theorem logRefusal {s : State} {r : Xlate × State} (h : Records s r.2) (x : Nat → Report) :
    Records s (match r.1 with
      | .refused c => (r.1, r.2.log (x c))
      | _ => r).2 := by
  split
  case h_1 c _ =>
    dsimp only
    exact h.trans (log ..)
  case h_2 => exact h

theorem xlateShared (s : State) (f : Func) (dva : DWord) (src : XlateSrc) (write : Bool) (extra : Nat) :
    Records s (s.xlateShared f dva src write extra).2 := by
  have hbare := xlateSharedBare s f dva src write extra
  unfold State.xlateShared
  dsimp only
  cases s.sharedUnit with
  | none => exact logRefusal hbare _
  | some u => exact logRefusal (r := (_, s.logWalk _ u f dva extra)) (hbare.trans (.logs ..)) _

theorem hbmStore (s : State) (f : Func) (dpa : Nat) (bs : List Byte) : Records s (s.hbmStore f dpa bs) :=
  (hbmStoreBare s f dpa bs).trans (.logs ..)

theorem dispStore {s t : State} {f : Func} {dva : DWord} {bytes : List Byte} (h : s.dispStore f dva bytes = some t) :
    Records s t := by
  have hx := xlateShared s f dva .dispatcher true 0
  unfold State.dispStore at h
  split at h
  case h_1 => cases h
  case h_2 heq =>
    rw [heq] at hx
    obtain rfl := Option.some.inj h
    exact hx
  case h_3 heq =>
    rw [heq] at hx
    split at h
    · cases h
    · obtain rfl := Option.some.inj h
      exact hx.trans (.hbmStore ..)

end Records

/-! ### What leaves every object's value -/

/-- The values of the objects and the results of the compare-and-swaps are the same. -/
structure KeepsObjects (s s' : State) : Prop where
  objs : s'.sync.objs = s.sync.objs
  cas : s'.sync.cas = s.sync.cas

theorem Records.keepsObjects {s s' : State} (h : Records s s') : KeepsObjects s s' where
  objs := by rw [h.sync]
  cas := by rw [h.sync]

theorem KeepsObjects.obj {s s' : State} (h : KeepsObjects s s') (o : BitVec 13) : s'.obj o = s.obj o := by
  rw [State.obj, State.obj, h.objs]

namespace KeepsObjects

theorem refl (s : State) : KeepsObjects s s := ⟨rfl, rfl⟩

theorem trans {s s' s'' : State} (h : KeepsObjects s s') (h' : KeepsObjects s' s'') : KeepsObjects s s'' :=
  ⟨h'.objs.trans h.objs, h'.cas.trans h.cas⟩

theorem foldl {α : Type} {f : State → α → State} (h : ∀ s a, KeepsObjects s (f s a)) (l : List α) (s : State) :
    KeepsObjects s (l.foldl f s) := by
  induction l generalizing s with
  | nil => exact .refl s
  | cons a l ih => exact (h s a).trans (ih _)

theorem count (s : State) (c : PageClass) (i n : Nat) : KeepsObjects s (s.count c i n) :=
  (Records.count s c i n).keepsObjects

theorem raiseRing (s : State) (r : Nat) (bits : BitVec 4) : KeepsObjects s (s.raiseRing r bits) := by
  refine .trans ?_ (Records.evalVec _ _ _ false).keepsObjects
  exact ⟨rfl, rfl⟩

theorem countStatus (s : State) (status : Byte) : KeepsObjects s (s.countStatus status) := by
  unfold State.countStatus
  split
  · exact .count ..
  · exact ((Records.count s .disp 2 1).trans (.raise ..)).keepsObjects
  · exact ((Records.count s .disp 2 1).trans (.count ..)).keepsObjects
  · exact ((Records.count s .disp 3 1).trans (.raise ..)).keepsObjects
  · exact .refl s

theorem ringError (s : State) (r : Nat) (cause : Byte) (seq : Word) : KeepsObjects s (s.ringError r cause seq) := by
  have hstop : KeepsObjects s
      ((s.modRing r fun x => { x with state := .error, errSeq := seq, errCause := cause }).raiseRing r 4) := by
    refine .trans ?_ (.raiseRing _ r 4)
    exact ⟨rfl, rfl⟩
  unfold State.ringError
  split
  · exact hstop
  · exact hstop
  · exact .refl s

theorem settleRing (s : State) (r : Nat) : KeepsObjects s (s.settleRing r) := by
  unfold State.settleRing
  split <;> exact ⟨rfl, rfl⟩

theorem settleAge (s : State) (r : Nat) : KeepsObjects s (s.settleAge r) := by
  unfold State.settleAge
  split <;> exact ⟨rfl, rfl⟩

theorem orSame {p : Prop} [Decidable p] {s t u : State} (h : KeepsObjects s t) (hu : KeepsObjects t u) :
    KeepsObjects s (if p then u else t) := by
  split
  · exact h.trans hu
  · exact h

theorem sameOr {p : Prop} [Decidable p] {s t u : State} (h : KeepsObjects s t) (hu : KeepsObjects t u) :
    KeepsObjects s (if p then t else u) := by
  split
  · exact h
  · exact h.trans hu

theorem recorded (s : State) (y : Retire) : KeepsObjects s (s.recorded y) := by
  refine .trans ?_ (.settleRing ..)
  refine orSame ?_ (.ringError ..)
  refine sameOr ?_ (Records.trace ..).keepsObjects
  refine .trans ?_ (.countStatus ..)
  refine sameOr ?_ (.raiseRing ..)
  refine orSame ?_ ⟨rfl, rfl⟩
  refine orSame ?_ ⟨rfl, rfl⟩
  exact ⟨rfl, rfl⟩

theorem conclude (s : State) (y : Retire) : KeepsObjects s (s.conclude y) := by
  unfold State.conclude
  split
  · exact ⟨rfl, rfl⟩
  · split
    case h_1 heq => exact (Records.dispStore heq).keepsObjects.trans (.recorded ..)
    case h_2 => exact ⟨rfl, rfl⟩

theorem retireJob (s : State) (r : Nat) (desc : BitVec 512) (status : Byte) (ran : Option (LCore × CtxId))
    (result : BitVec 16) (tStart : DWord) (quiet : Bool) :
    KeepsObjects s (s.retireJob r desc status ran result tStart quiet) := by
  unfold State.retireJob
  split
  · exact .refl s
  · exact (conclude s _).trans (.settleAge ..)

theorem retireTracked (s : State) (entry : Nat) (status : Byte) (quiet : Bool) :
    KeepsObjects s (s.retireTracked entry status quiet) := by
  unfold State.retireTracked
  split
  · exact .refl s
  · exact .trans (s' := s.untrack entry) ⟨rfl, rfl⟩ (.retireJob ..)

theorem settleBarriers (s : State) : KeepsObjects s s.settleBarriers := by
  refine foldl (fun t e => ?_) _ s
  unfold State.settleBarrier
  split
  · split
    · exact .retireTracked ..
    · exact .refl t
  · exact .refl t

theorem releaseSlot (s : State) (i : Nat) : KeepsObjects s (s.releaseSlot i) := by
  unfold State.releaseSlot
  split
  · exact .refl s
  · have hfreed : KeepsObjects s
        ((s.modSync fun b => { b with slots := Tab.set none b.slots i none }).count .sync 2 1) :=
      trans (s' := s.modSync fun b => { b with slots := Tab.set none b.slots i none }) ⟨rfl, rfl⟩ (.count ..)
    dsimp only
    split
    · exact hfreed.trans ⟨rfl, rfl⟩
    · exact hfreed.trans ⟨rfl, rfl⟩

theorem releaseWaiters (s : State) (o : BitVec 13) : KeepsObjects s (s.releaseWaiters o) := foldl releaseSlot _ s

end KeepsObjects

/-! ### Operations of the host on objects (R381, R386, R387) -/

/-- What an operation makes of the objects' values (R381). -/
def SyncOp.onObjs (op : SyncOp) (o : BitVec 13) (m : Tab DWord) : Tab DWord :=
  match op with
  | .add a => Tab.set 0 m o.toNat (Tab.get 0 m o.toNat + a)
  | .set a => Tab.set 0 m o.toNat a
  | .cas e a => if Tab.get 0 m o.toNat = e then Tab.set 0 m o.toNat a else m
  | .wait _ | .read => m

theorem State.syncAnswer_objs (s : State) (src : SyncSrc) (value : DWord) (ok : Bool) :
    (s.syncAnswer src value ok).sync.objs = s.sync.objs := by
  unfold State.syncAnswer
  split <;> rfl

theorem State.setObj_releaseWaiters_objs (s : State) (o : BitVec 13) (v : DWord) :
    ((s.setObj o v).releaseWaiters o).sync.objs = Tab.set 0 s.sync.objs o.toNat v :=
  (KeepsObjects.releaseWaiters (s.setObj o v) o).objs

/-- An operation that its bank need not check is performed on the objects. -/
theorem State.syncApply_objs (s : State) {r : SyncReq} (h : r.src.checked = false) :
    (s.syncApply r).sync.objs = r.op.onObjs r.obj s.sync.objs := by
  have hcount : (s.count .sync 0 1).sync.objs = s.sync.objs := (KeepsObjects.count s .sync 0 1).objs
  simp only [State.syncApply, h, Bool.false_and, Bool.false_eq_true, if_false]
  cases hop : r.op with
  | add a => rw [State.setObj_releaseWaiters_objs, hcount]; rfl
  | set a => rw [State.setObj_releaseWaiters_objs, hcount]; rfl
  | read => exact (State.syncAnswer_objs ..).trans hcount
  | wait t =>
    dsimp only
    split
    · exact (State.syncAnswer_objs ..).trans hcount
    · split <;> exact hcount
  | cas e a =>
    dsimp only [SyncOp.onObjs]
    split
    case isTrue heq => rw [State.syncAnswer_objs, State.setObj_releaseWaiters_objs, hcount,
      if_pos (show Tab.get 0 s.sync.objs r.obj.toNat = e from heq)]
    case isFalse heq => rw [State.syncAnswer_objs, hcount,
      if_neg (show ¬ Tab.get 0 s.sync.objs r.obj.toNat = e from heq)]

/-- The host's operations of a function that are on their way. -/
def hostOps (w : Who) (q : List SyncReq) : List SyncReq := q.filter fun r => r.src == .host && r.func == Who.fn w

theorem State.syncApply_foldl_objs {l : List SyncReq} (h : ∀ r ∈ l, r.src = .host) (s : State) :
    (l.foldl State.syncApply s).sync.objs = l.foldl (fun m r => r.op.onObjs r.obj m) s.sync.objs := by
  induction l generalizing s with
  | nil => rfl
  | cons r l ih =>
    obtain ⟨hr, hl⟩ := List.forall_mem_cons.1 h
    rw [List.foldl_cons, List.foldl_cons, ih hl, s.syncApply_objs (by rw [hr]; rfl)]

/-- What arrives changes the objects as its operations say, in their order. -/
theorem State.hostArrive_objs (s : State) (w : Who) :
    (s.hostArrive w).sync.objs = (hostOps w s.sync.queue).foldl (fun m r => r.op.onObjs r.obj m) s.sync.objs := by
  have hhost : ∀ r ∈ hostOps w s.sync.queue, r.src = .host := by
    intro r hr
    obtain ⟨-, hmine⟩ := List.mem_filter.1 hr
    exact eq_of_beq (Bool.and_eq_true_iff.1 hmine).1
  cases w <;> exact State.syncApply_foldl_objs hhost _

/-- What arrives depends on the SYNC block alone. -/
theorem State.hostArrive_obj_congr {s t : State} (h : t.sync = s.sync) (w : Who) (o : BitVec 13) :
    (t.hostArrive w).obj o = (s.hostArrive w).obj o := by
  rw [State.obj, State.obj, State.hostArrive_objs, State.hostArrive_objs, h]

/-- Nothing arrives where the host has sent nothing. -/
theorem State.hostArrive_objs_of_none {s : State} (w : Who) (h : ∀ r ∈ s.sync.queue, r.src ≠ .host) :
    (s.hostArrive w).sync.objs = s.sync.objs := by
  have hnone : hostOps w s.sync.queue = [] := List.filter_eq_nil_iff.2 fun r hr hmine =>
    h r hr (eq_of_beq (Bool.and_eq_true_iff.1 hmine).1)
  rw [State.hostArrive_objs, hnone, List.foldl_nil]

/-! ### The compare-and-swap of a SYNC object page (R387) -/

/-- GO is performed for firmware, and for a function whose accesses pass, PF0 or the object's owner. -/
def State.mayCas (s : State) (w : Who) (o : BitVec 13) : Prop :=
  ∀ f, w = .func f → s.barOpen f = true ∧ s.inBoot = false ∧ (f = 0 ∨ s.syncOwner o = some f)

/-- Two registers of a page read as one doubleword. -/
def State.stagedPair (s : State) (c : PageClass) (off : Nat) : DWord :=
  (s.staged c off).setWidth 64 ||| ((s.staged c (off + 4)).setWidth 64 <<< 32)

/-- A compare-and-swap on an object, with its result in the registers of page `k`. -/
def State.swap (s : State) (k : Nat) (o : BitVec 13) (expected new : DWord) : State :=
  let hit := s.obj o == expected
  let t := s.count .sync 0 1
  (if hit then (t.setObj o new).releaseWaiters o else t).modSync fun b =>
    { b with cas := Tab.set {} b.cas k ⟨true, hit, s.obj o⟩ }

theorem State.syncCas_of_mayCas {s : State} {w : Who} {k j : Nat} (h : s.mayCas w (pageObj k j)) :
    s.syncCas w k j = (s.hostArrive w).swap k (pageObj k j) (s.stagedPair (.syncObj k) 0x048)
      (s.stagedPair (.syncObj k) 0x050) := by
  cases w with
  | firmware => rfl
  | func f =>
    obtain ⟨hopen, hboot, hown⟩ := h f rfl
    simp only [State.syncCas, hopen, hboot, if_pos hown]
    rfl

theorem State.swap_objs (s : State) (k : Nat) (o : BitVec 13) (expected new : DWord) :
    (s.swap k o expected new).sync.objs =
      if s.obj o = expected then Tab.set 0 s.sync.objs o.toNat new else s.sync.objs := by
  have hcount : (s.count .sync 0 1).sync.objs = s.sync.objs := (KeepsObjects.count s .sync 0 1).objs
  by_cases hit : s.obj o = expected
  · simp only [State.swap, hit, beq_self_eq_true, if_true]
    exact (State.setObj_releaseWaiters_objs ..).trans (by rw [hcount])
  · simp only [State.swap, beq_eq_false_iff_ne.2 hit, Bool.false_eq_true, if_false, if_neg hit]
    exact hcount

theorem State.swap_obj_same (s : State) (k : Nat) (o : BitVec 13) (expected new : DWord) :
    (s.swap k o expected new).obj o = if s.obj o = expected then new else s.obj o := by
  rw [State.obj, State.swap_objs]
  split
  · exact Tab.get_set_same ..
  · rfl

theorem State.swap_obj_ne (s : State) (k : Nat) {o q : BitVec 13} (expected new : DWord) (h : q ≠ o) :
    (s.swap k o expected new).obj q = s.obj q := by
  rw [State.obj, State.swap_objs]
  split
  · exact Tab.get_set_ne _ _ _ fun e => h (BitVec.eq_of_toNat_eq e)
  · rfl

theorem State.swap_cas (s : State) (k : Nat) (o : BitVec 13) (expected new : DWord) :
    Tab.get {} (s.swap k o expected new).sync.cas k = ⟨true, decide (s.obj o = expected), s.obj o⟩ := by
  show Tab.get ({} : CasResult) (Tab.set {} _ k ⟨true, s.obj o == expected, s.obj o⟩) k = _
  rw [Tab.get_set_same]
  rfl

/-- The state in which GO finds the registers of page `k`: the object chosen, by one who may write there. -/
def State.casSelect (s : State) (w : Who) (k : Nat) (j : Word) : State :=
  if s.mayWrite w (.syncObj k) then
    s.modPage (pageNo (.syncObj k)) fun p => { p with staged := Tab.set 0 p.staged 0x040 j }
  else s

theorem State.casSelect_sync (s : State) (w : Who) (k : Nat) (j : Word) : (s.casSelect w k j).sync = s.sync := by
  unfold State.casSelect
  split <;> rfl

theorem State.casSelect_live (s : State) (w : Who) (k : Nat) (j : Word) (c : PageClass) (off : Nat) :
    (s.casSelect w k j).live c off = s.live c off := by
  unfold State.casSelect State.live
  split
  · by_cases e : pageNo c = pageNo (.syncObj k)
    · rw [e, State.page_modPage_same]
    · rw [State.page_modPage_ne _ _ e]
  · rfl

theorem State.casSelect_mayCas {s : State} {w : Who} {o : BitVec 13} (h : s.mayCas w o) (k : Nat) (j : Word) :
    (s.casSelect w k j).mayCas w o := by
  have hboard : (s.casSelect w k j).inBoot = s.inBoot := by
    unfold State.casSelect
    split <;> rfl
  have hopen (f : Func) : (s.casSelect w k j).barOpen f = s.barOpen f := by
    unfold State.casSelect
    split <;> rfl
  have howner : (s.casSelect w k j).syncOwner o = s.syncOwner o := by
    have halloc : (s.casSelect w k j).syncAlloc = s.syncAlloc := funext fun f => by
      simp only [State.syncAlloc, State.casSelect_live]
    rw [State.syncOwner, State.syncOwner, halloc]
  simpa only [State.mayCas, hboard, hopen, howner] using h

/-- A register's other words are read as before, whatever they read as where none is listed. -/
theorem Tab.get_set_other {α : Type} [DecidableEq α] (d d' : α) (t : Tab α) {k j : Nat} (v : α) (h : j ≠ k) :
    Tab.get d' (Tab.set d t k v) j = Tab.get d' t j := by
  unfold Tab.set
  split
  · exact Tab.get_erase_ne d' t h
  · exact Tab.get_insert_ne d' t v h

/-- EXP and NEW stand beside the register that GO writes. -/
theorem State.casSelect_stagedPair (s : State) (w : Who) (k : Nat) (j : Word) {off : Nat} (h : 0x040 < off) :
    (s.casSelect w k j).stagedPair (.syncObj k) off = s.stagedPair (.syncObj k) off := by
  have hreg {i : Nat} (hi : 0x040 < i) : (s.casSelect w k j).staged (.syncObj k) i = s.staged (.syncObj k) i := by
    unfold State.casSelect State.staged
    split
    · rw [State.page_modPage_same]
      exact Tab.get_set_other _ _ _ _ (Nat.ne_of_gt hi)
    · rfl
  rw [State.stagedPair, hreg h, hreg (by omega), State.stagedPair]

theorem syncCasGo_eq (w : Who) (k : BitVec 6) (j : BitVec 7) (s : State) : exec (.syncCasGo w k j) s =
    .next ((s.casSelect w k.toNat (j.setWidth 32)).syncCas w k.toNat j.toNat).settleBarriers := rfl

/-- GO swaps what its page's object holds once the writer's earlier operations have arrived. -/
theorem syncCasGo_swaps {s : State} {w : Who} {k : BitVec 6} {j : BitVec 7}
    (h : s.mayCas w (pageObj k.toNat j.toNat)) :
    let o := pageObj k.toNat j.toNat
    let expected := s.stagedPair (.syncObj k.toNat) 0x048
    let u := s.hostArrive w
    ∃ s', exec (.syncCasGo w k j) s = .next s' ∧
      s'.obj o = (if u.obj o = expected then s.stagedPair (.syncObj k.toNat) 0x050 else u.obj o) ∧
      (∀ q, q ≠ o → s'.obj q = u.obj q) ∧
      Tab.get {} s'.sync.cas k.toNat = ⟨true, decide (u.obj o = expected), u.obj o⟩ := by
  intro o expected u
  let t := s.casSelect w k.toNat (j.setWidth 32)
  have hcas : t.syncCas w k.toNat j.toNat =
      (t.hostArrive w).swap k.toNat o expected (s.stagedPair (.syncObj k.toNat) 0x050) := by
    rw [State.syncCas_of_mayCas (State.casSelect_mayCas h _ _), State.casSelect_stagedPair _ _ _ _ (by decide),
      State.casSelect_stagedPair _ _ _ _ (by decide)]
  have harrive (q : BitVec 13) : (t.hostArrive w).obj q = u.obj q :=
    State.hostArrive_obj_congr (s.casSelect_sync w _ _) w q
  have hkept : KeepsObjects (t.syncCas w k.toNat j.toNat) _ := .settleBarriers _
  refine ⟨_, syncCasGo_eq w k j s, ?_, fun q hq => ?_, ?_⟩
  · rw [hkept.obj, hcas, State.swap_obj_same, harrive]
  · rw [hkept.obj, hcas, State.swap_obj_ne _ _ _ _ hq, harrive]
  · rw [hkept.cas, hcas, State.swap_cas, harrive]

/-! ### Writes of SYNC_VALUE and SYNC_ADDV (R386, R387) -/

theorem syncData_dropped {size : AccSize} {high : Bool} (data : DWord) (hwhole : ¬ (size = .b8 ∧ high = false))
    (hlow : ¬ (size = .b4 ∧ high = false)) : syncData size high data = none := by
  unfold syncData
  split
  · exact absurd ⟨rfl, rfl⟩ hwhole
  · exact absurd ⟨rfl, rfl⟩ hlow
  · rfl

theorem syncData_taken {size : AccSize} {high : Bool} {data v : DWord} (hv : size = .b8 ∧ high = false → v = data)
    (hv' : size = .b4 ∧ high = false → v = data &&& 0xFFFFFFFF)
    (h : size = .b8 ∧ high = false ∨ size = .b4 ∧ high = false) : syncData size high data = some v := by
  rcases h with ⟨rfl, rfl⟩ | ⟨rfl, rfl⟩
  · rw [hv ⟨rfl, rfl⟩]; rfl
  · rw [hv' ⟨rfl, rfl⟩]; rfl

/-- Both registers' writes: the operand that the write carries, if any, goes to the object. -/
theorem exec_syncWrite {i : Instr} {w : Who} {obj : BitVec 13} {size : AccSize} {high : Bool} {data : DWord}
    {op : DWord → SyncOp} (hi : (i = .syncValueWrite w obj size high data ∧ op = .set) ∨
      (i = .syncAddvWrite w obj size high data ∧ op = .add)) (s : State) :
    exec i s = .next (((syncData size high data).map fun v => s.hostSync w obj (op v)).getD s) := by
  rcases hi with ⟨rfl, rfl⟩ | ⟨rfl, rfl⟩
  · show execSyncValueWrite .. = _
    unfold execSyncValueWrite
    cases syncData size high data <;> rfl
  · show execSyncAddvWrite .. = _
    unfold execSyncAddvWrite
    cases syncData size high data <;> rfl

theorem State.hostSync_closed {s : State} {f : Func} (h : s.barOpen f = false ∨ s.inBoot = true) (obj : BitVec 13)
    (op : SyncOp) : s.hostSync (.func f) obj op = s := by
  rcases h with h | h <;> simp [State.hostSync, h]

theorem State.hostSync_sends {s : State} {f : Func} {obj : BitVec 13} (hopen : s.barOpen f = true)
    (hboot : s.inBoot = false) (h : f = 0 ∨ s.syncOwner obj = some f) (op : SyncOp) :
    s.hostSync (.func f) obj op = s.sendSync ⟨.host, f, obj, op⟩ := by
  simp [State.hostSync, hopen, hboot, h]

theorem State.hostSync_refuses {s : State} {f : Func} {obj : BitVec 13} (hopen : s.barOpen f = true)
    (hboot : s.inBoot = false) (hpf : f ≠ 0) (h : s.syncOwner obj ≠ some f) (op : SyncOp) :
    s.hostSync (.func f) obj op = s.syncRefuse .host f obj := by
  simp [State.hostSync, hopen, hboot, hpf, h]

/-- A refusal leaves its record in SYNC_REF_INFO and its interrupt, and the rest of the block alone. -/
theorem State.syncRefuse_host (s : State) (f : Func) (obj : BitVec 13) :
    (s.syncRefuse .host f obj).sync = { s.sync with
      refInfo := obj.setWidth 32 ||| (BitVec.ofNat 32 f.val <<< 13) } ∧
    bit ((s.syncRefuse .host f obj).page (pageNo .sync)).irqStatus 0 = true := by
  let t := s.modSync fun b => { b with refInfo := obj.setWidth 32 ||| (BitVec.ofNat 32 f.val <<< 13) }
  have hinfo : s.syncRefuse .host f obj = ((t.count .sync 1 1).raise .sync 1).log
      { cls := 3, code := 0, page := .sync, func := f } := by
    simp [State.syncRefuse, SyncSrc.code, t]
  have hraised : bit (((t.count .sync 1 1).raise .sync 1).page (pageNo .sync)).irqStatus 0 = true := by
    refine (Records.evalVec _ 0 (pageVector .sync) false).irq _ _ ?_
    rw [State.page_modPage_same]
    simp [bit, irqMask]
  have hlog := Records.log ((t.count .sync 1 1).raise .sync 1) { cls := 3, code := 0, page := .sync, func := f }
  rw [hinfo]
  exact ⟨(((Records.count t .sync 1 1).trans (.raise ..)).trans hlog).sync, hlog.irq _ _ hraised⟩

/-! ### Commits and invalidations (R57, R59, R400, R402) -/

/-- A commit register's write starts its check, waits for the one that runs, or is dropped. -/
theorem commits_of_commitWrite {i : Instr} {w : Who} {page : PageClass} {check : Check} {s : State} (off : Nat)
    (data : Word)
    (hexec : exec i s = .next (s.commitWrite w page check off data fun s => s.startCheck page check))
    (hcheck : ∀ t : State, t.startCheck page check = t.modPage (pageNo page) fun p =>
      { p with checking := p.checking ++ [check], refused := false, refuseCode := 0 }) :
    Claims.commits i w page check s := by
  refine ⟨fun hw => ?_, fun hw hruns => ?_, fun hw hruns => ?_⟩
  · rw [hexec]
    simp [State.commitWrite, hw]
  · refine ⟨_, ⟨w, BitVec.ofNat 12 off, .b4, data.setWidth 64⟩, hexec, ?_, rfl⟩
    simp [State.commitWrite, hw, hruns, State.holdWrite]
  · refine ⟨_, hexec, ?_, ?_⟩
    all_goals simp only [State.commitWrite, hw, hruns, hcheck, Bool.not_true, Bool.false_eq_true, if_false]
    · exact State.page_modPage_same ..
    · rfl

theorem syncCommit_commits (w : Who) (s : State) : Claims.commits (.syncCommit w) w .sync .sync s :=
  commits_of_commitWrite 0x080 1 rfl fun _ => rfl

theorem datCommit_commits (w : Who) (s : State) : Claims.commits (.datCommit w) w (.dat 0) .dat s :=
  commits_of_commitWrite 0x044 1 rfl fun _ => rfl

theorem datRsvCommit_commits (w : Who) (p : Part) (s : State) :
    Claims.commits (.datRsvCommit w p) w (.dat p.val) .rsv s :=
  commits_of_commitWrite 0x048 1 rfl fun _ => rfl

theorem datInv_dropped {w : Who} {s : State} (h : s.mayWrite w (.dat 0) = false) (fn : BitVec 4) (all : Bool) :
    exec (.datInv w fn all) s = .next s := by
  show execDatInv w fn all s = _
  rw [execDatInv, h]
  rfl

theorem State.datDrop_tlb (s : State) (fn : BitVec 4) (all : Bool) (p : Part) :
    ((s.datDrop fn all).hbm.units.get p).tlb = if all then [] else
      (s.hbm.units.get p).tlb.filter fun e => e.func.val != fn.toNat :=
  congrArg DatUnit.tlb (Vector.getElem_map _ p.isLt)

/-- An invalidation empties the caches at once, marks what was translated through them, and is BUSY. -/
theorem datInv_invalidates {w : Who} {s : State} (h : s.mayWrite w (.dat 0) = true) (fn : BitVec 4) (all : Bool) :
    ∃ s', exec (.datInv w fn all) s = .next s' ∧ s'.hbm.invBusy = true ∧ s'.hbm.mem = s.hbm.mem ∧
      (∀ p : Part, (s'.hbm.units.get p).tlb = if all then [] else
        (s.hbm.units.get p).tlb.filter fun e => e.func.val != fn.toNat) ∧
      s'.hbm.queue = s.hbm.queue.map fun r =>
        if all || r.func.val == fn.toNat then { r with old := true } else r := by
  exact ⟨_, if_pos h, rfl, rfl, fun p => State.datDrop_tlb _ fn all p, rfl⟩

theorem datInvDone_waits {s : State} (h : ∃ r ∈ s.hbm.queue, r.old = true) : exec .datInvDone s = .next s := by
  have hold : s.hbm.queue.any (·.old) = true := List.any_eq_true.2 h
  show execDatInvDone s = _
  simp only [execDatInvDone, hold, Bool.true_or, if_true]

/-- BUSY falls once no access translated through a dropped entry is left, at a channel or with a context. -/
theorem datInvDone_ends {s : State} (hqueue : ∀ r ∈ s.hbm.queue, r.old = false)
    (hsending : ∀ (u : Tile) (c : CtxId) (r : HbmReq), FarReq.hbm r ∈ (s.ctx u c).sending → r.old = false) :
    exec .datInvDone s = .next { s with hbm := { s.hbm with invBusy := false } } := by
  refine if_neg ?_
  rw [Bool.or_eq_true, List.any_eq_true, List.any_eq_true]
  rintro (⟨r, hr, hold⟩ | ⟨k, hk, hold⟩)
  · exact absurd hold (Bool.eq_false_iff.1 (hqueue r hr))
  · obtain ⟨x, hx, hold⟩ := List.any_eq_true.1 hold
    obtain ⟨r, hr, hold⟩ := List.any_eq_true.1 hold
    obtain ⟨u, hu, rfl⟩ := Vector.mem_iff_getElem.1 (Vector.mem_toList_iff.1 hk)
    obtain ⟨c, hc, rfl⟩ := Vector.mem_iff_getElem.1 (Vector.mem_toList_iff.1 hx)
    cases r with
    | hbm r => exact absurd hold (Bool.eq_false_iff.1 (hsending ⟨u, hu⟩ ⟨c, hc⟩ r hr))
    | mesh r => cases hold

/-- Settles O45, register by register: a write of SYNC_VALUE or SYNC_ADDV by what `hostSync` does with its operand,
GO by the swap that it comes to once the writer's operations have arrived, and the three commits by the one law of
`commitWrite`. -/
theorem syncAndTableCommands : Obligations.SyncAndTableCommands := by
  unfold Obligations.SyncAndTableCommands
  intro s
  refine ⟨?writes, ?go, ?commits, ?invalidation, datInvDone_waits, datInvDone_ends⟩
  case writes =>
    intro obj size high data w i op hi
    rw [exec_syncWrite hi]
    refine ⟨fun hwhole hlow => ?_, fun v hv hv' htaken => ?_⟩
    · rw [syncData_dropped data hwhole hlow]; rfl
    · rw [syncData_taken hv hv' htaken, Option.map_some, Option.getD_some]
      refine ⟨fun hw => ?_, fun f hf hclosed => ?_,
        fun f hf hopen hboot => ⟨fun hmay => ?_, fun hpf hforeign => ?_⟩⟩
      all_goals subst w
      · rfl
      · rw [State.hostSync_closed hclosed]
      · rw [State.hostSync_sends hopen hboot hmay]
        rfl
      · obtain ⟨hsync, hirq⟩ := s.syncRefuse_host f obj
        rw [State.hostSync_refuses hopen hboot hpf hforeign]
        exact ⟨_, rfl, by rw [hsync], by rw [hsync], hirq⟩
  case go =>
    intro w k j hmay
    obtain ⟨s', hexec, hobj, hother, hcas⟩ := syncCasGo_swaps hmay
    exact ⟨s', hexec, hobj, hother, State.hostArrive_objs_of_none w, hcas⟩
  case commits =>
    exact fun w => ⟨syncCommit_commits w s, datCommit_commits w s, fun p => datRsvCommit_commits w p s⟩
  case invalidation =>
    exact fun w fn all => ⟨fun h => datInv_dropped h fn all, fun h => datInv_invalidates h fn all⟩

/-! ### A CANCEL retires the jobs that were given back -/

/-- A committed ring with nothing left to fetch, whose only job a core has given back while no tracking entry was free
(R140, R378): the job waits at the dispatcher, and its completion record is still promised. -/
def jobReturned : State := { State.reset with
  rings := [(0, { ({} : Ring) with
    committed := true, run := true, state := .active, tail := 1, head := 1, reserved := 1
    live := { ({} : RingCfg) with cfg := 0x84, affinity := 1, limits := 0x00100010 } })]
  disp := { State.reset.disp with returned := [⟨0, 0, 0, 0, 0, .ready, false, 0⟩] } }

/-- The job that waits is fetched and on no core, so CANCEL retires it (R360): it waits no longer. -/
theorem ringCancel_retires_returned : ∃ s', exec (.ringCancel .firmware 0) jobReturned = .next s' ∧
    (s'.ring 0).reserved = 0 ∧ s'.disp.returned = [] :=
  ⟨_, rfl, by decide +kernel, by decide +kernel⟩

/-- Refutes O43: the row of CANCEL claims that the state stays as it is where no job of the ring is tracked and nothing
is left to fetch. A job that a core has given back may wait for a tracking entry then, and CANCEL retires it, as R360
asks of every fetched job that is on no core. -/
theorem not_ringEvents : ¬ Obligations.RingEvents := by
  unfold Obligations.RingEvents
  intro h
  obtain ⟨-, -, rings⟩ := h jobReturned
  obtain ⟨-, -, bits, -⟩ := rings 0
  obtain ⟨-, -, ⟨s', hexec, -, -, -, -, hsame⟩, -⟩ := bits .firmware rfl (by decide)
  obtain ⟨t, hexec', -, hreturned⟩ := ringCancel_retires_returned
  obtain rfl : s' = t := Host.Outcome.next.inj (hexec.symm.trans hexec')
  have hs' : s' = jobReturned := hsame (fun e j hj => nomatch hj) rfl (by decide)
  rw [hs'] at hreturned
  exact absurd hreturned (by decide)

end Sys2Proof.Machine
end

section
/-! PROOFS. The matrix array and the stripe engine: rows that submit commands (O24), the engines' registers (O25), and
the engines' events (O40). -/

namespace Sys2Proof.Machine

/-! ### Core 0 with a stripe queue -/

/-- The registers of a context that runs with `v` in d2. -/
def runningWith (v : Word) : Ctx := Ctx.setD { run := .running } 2 v

theorem runningWith_endLoop (v : Word) (pc : BitVec 20) : (runningWith v).endLoop pc = none := by
  simp [runningWith, Ctx.endLoop, Ctx.loopAct, Ctx.setD, bit]

/-- The machine one nanosecond after reset, but for core 0, where context 0 runs with `v` in d2, the STRIPE page is
enabled, and these stripes are queued. -/
def stripesQueued (v : Word) (queue : List Stripe) : State := { State.reset.modCore 0 fun k =>
    { (k.modCtx 0 fun _ => runningWith v) with str := { queue := queue } } with
  time := 1
  pages := [(pageNo (.stripe 0), { enable := true })] }

/-- A bundle of one word on core 0. -/
def aloneOn0 : Issue := ⟨0, none, [], 0⟩

/-- Every legal operation that is not privileged stands ready there, alone in its bundle. -/
theorem ready_stripesQueued {v : Word} {queue : List Stripe} {o : Op} (legal : Op.legal o = true ∧ groupsOk 1 o = true)
    (level : Op.privileged o = false) : Ready aloneOn0 o (stripesQueued v queue) 0 where
  alone := ⟨rfl, rfl⟩
  runs := rfl
  moves := rfl
  unstopped := rfl
  inStore := (by decide : 0 < 2 ^ 20)
  oneLine := (by decide : 0 % 64 ≤ 60)
  legal := legal
  level := fun h => absurd (h.symm.trans level) (by decide)
  noFault := rfl
  noLoad := rfl
  noAcquire := Bool.and_false _
  noGroupFault := rfl
  clean := rfl
  fresh := ⟨rfl, rfl⟩
  sent := rfl
  unheld := rfl
  room := (by decide : 0 ≤ 15 ∧ 0 < 32)
  inBody := runningWith_endLoop v 0

/-- What a row leaves of the stripe engine, where its claim names the core that it leaves. -/
theorem Claims.leavesCore_str {i : Instr} {b : Issue} {s : State} {c : CtxId} {y : Ctx} {k : Core}
    (h : Claims.leavesCore i b s c y k) :
    ∃ s', exec i s = .next s' ∧ (s'.core (s.tileOf b.core)).str = k.str := by
  obtain ⟨s', hexec, -, -, -, -, -, q, btb, resume, tm, hcore⟩ := h
  refine ⟨s', hexec, ?_⟩
  rw [hcore, State.core_modCore_same]

/-! ### A stripe that becomes the head of its stream starts to wait -/

/-- A stripe of stream 1 that waits in the queue with sequence number 0, which the next stripe is to get as well: the
number has 16 bits, and the other streams may have gone through all of them meanwhile (R264, R268). -/
def longWaiting : Stripe := ⟨1, 0, 0, 0, .waiting, 0, 0, 0, false, some 0⟩

/-- The operand that names D-space address 0. -/
def atZero : MemAddr := ⟨0, 0, 0, 0⟩

/-- The new stripe heads stream 0, so its wait for triggers starts; the start goes by sequence number, and the stripe of
stream 1 takes it too. -/
theorem sjob_starts_both_waits : ∃ t, exec (.sjob aloneOn0 3 atZero) (stripesQueued 0 [longWaiting]) = .next t ∧
    (t.core 0).str.queue.map (·.since) = [some 1, some 1] :=
  ⟨_, rfl, by decide +kernel⟩

/-- Refutes O24: the row of `sjob` claims that the stripes queued before stay as they are, whatever their sequence
numbers. Where one of another stream holds the number that the new stripe gets, its wait for triggers starts anew. -/
theorem not_commandRows : ¬ Obligations.CommandRows := by
  unfold Obligations.CommandRows
  intro h
  obtain ⟨-, hsjob, -⟩ := h aloneOn0 (stripesQueued 0 [longWaiting]) 0 3 atZero
  obtain ⟨hroom, -⟩ := hsjob (ready_stripesQueued (by decide) rfl)
    ⟨by decide, by decide, by decide, by decide, fun _ _ => rfl⟩ (by decide)
  obtain ⟨q, k', -, hk', hleaves⟩ := hroom (by decide)
  obtain ⟨s', hexec, hstr⟩ := Claims.leavesCore_str hleaves
  obtain ⟨t, hexec', hsince⟩ := sjob_starts_both_waits
  obtain rfl : s' = t := Host.Outcome.next.inj (hexec.symm.trans hexec')
  have hqueue : (s'.core 0).str.queue = [longWaiting, q] := (congrArg (·.queue) hstr).trans (by rw [hk']; rfl)
  rw [hqueue] at hsince
  exact absurd (List.cons.inj hsince).1 (by decide)

/-! ### An abort gives a stream another head -/

/-- Two stripes of stream 0 that wait, of contexts 0 and 1. -/
def ofTwoContexts : List Stripe :=
  [⟨0, 0, 0, 0, .waiting, 0, 0, 0, false, some 0⟩, ⟨0, 1, 1, 0, .waiting, 0, 0, 0, false, none⟩]

/-- Context 0's stripe is cancelled, and that of context 1 heads the stream from now on (R268, R274). -/
theorem sqAbort_starts_next_wait : ∃ t, exec (.sqAbort aloneOn0 2) (stripesQueued 1 ofTwoContexts) = .next t ∧
    (t.core 0).str.queue.map (fun q => (q.stage, q.since)) = [(.cancelled, some 0), (.waiting, some 1)] :=
  ⟨_, rfl, by decide +kernel⟩

/-- Refutes O25: the row of SQ_CTRL.ABORT claims that every stripe but the cancelled ones stays as it is. The stripe of
another context that heads its stream after the abort starts to wait for its triggers. -/
theorem not_engineRegisterRows : ¬ Obligations.EngineRegisterRows := by
  unfold Obligations.EngineRegisterRows
  intro h
  obtain ⟨-, hsq, -⟩ := h aloneOn0 (stripesQueued 1 ofTwoContexts) 0 2 0
  obtain ⟨-, habort⟩ := hsq (ready_stripesQueued (by decide) rfl)
  obtain ⟨k', hleaves, -, hqueue⟩ := habort (by decide) (by decide)
  obtain ⟨s', hexec, hstr⟩ := Claims.leavesCore_str hleaves
  obtain ⟨t, hexec', hnew⟩ := sqAbort_starts_next_wait
  obtain rfl : s' = t := Host.Outcome.next.inj (hexec.symm.trans hexec')
  rw [show (s'.core 0).str.queue = _ from (congrArg (·.queue) hstr).trans hqueue] at hnew
  exact absurd hnew (by decide)

/-! ### A completion record that waits for its bank is counted -/

/-- A stripe of one tile, FIRST and LAST, over a map of one place, with its completion record at the start of AM: it has
fed its tile and wound. -/
def recordDue : Stripe :=
  ⟨pack 1024 ([0x218, 0, 0x10001, 16, 0x10000, 0x10000, 0, 0x400040, 0x10000, 0x10000, 0, 0, 0, 0, 0, 0x400000] : List Word),
    0, 0, 0, .active, 0, 1, 1, true, some 0⟩

/-- The machine after reset, but for core 0: that stripe is queued there, and a remap has paused bank 16, which holds the
place of its record (R319). -/
def recordBankPaused : State := { State.reset.modCore 0 fun k =>
    { k with rmapBusy := true, str := { queue := [recordDue] } } with
  pages := [(pageNo (.spad 0), { staged := [(0x050, 16)] })] }

theorem recordBankPaused_queue : (recordBankPaused.core 0).str.queue = [recordDue] := rfl

theorem recordDue_heads : (recordBankPaused.core 0).str.head 0 = some recordDue := by decide +kernel

theorem recordDue_held : recordBankPaused.recordHeld 0 recordDue = true := by decide +kernel

/-- The stripe does not complete; its record waits at the ports of AM, which SPAD_PORT_WAIT counts (R299). -/
theorem stripeComplete_counts_portWait : ∃ t, exec (.stripeComplete 0 0) recordBankPaused = .next t ∧
    Tab.get 0 (t.page (pageNo (.spad 0))).counters 7 = 1 :=
  ⟨_, rfl, by decide +kernel⟩

/-- Refutes O40: its last clause claims that a stripe that does not complete leaves the state as it is. One whose
completion record waits for a paused bank of AM is counted as it waits. -/
theorem not_engineEvents : ¬ Obligations.EngineEvents := by
  unfold Obligations.EngineEvents
  intro h
  obtain ⟨-, -, -, -, -, -, -, hactive⟩ := h recordBankPaused 0 0
  obtain ⟨-, hcomplete⟩ := hactive recordDue recordDue_heads rfl
    fun r hr _ => List.mem_singleton.mp (recordBankPaused_queue ▸ hr)
  obtain ⟨-, hsame⟩ := hcomplete fun r hr hcancelled => by
    obtain rfl := List.mem_singleton.mp (recordBankPaused_queue ▸ hr)
    exact absurd hcancelled.2 (by decide)
  obtain ⟨t, hexec, hcount⟩ := stripeComplete_counts_portWait
  obtain rfl : recordBankPaused = t := by
    refine Host.Outcome.next.inj ((hsame fun hends => ?_).symm.trans hexec)
    obtain ⟨-, -, -, hfree⟩ := hends
    exact absurd (recordDue_held.symm.trans hfree) (by decide)
  exact absurd hcount (by decide)

end Sys2Proof.Machine
end

section
/-! PROOFS. Quantisation: the window onto a core's scale trackers (O23). -/

namespace Sys2Proof.Machine

/-! ### A row that changes its context and its core -/

/-- Where the effects of a bundle end in an effect on its own context, it leaves the state before that one as it was
elsewhere. -/
theorem Landed.elsewhere {r s' : State} {t : Tile} {c : CtxId} {g : Ctx → Ctx} {next : Word} {y : Ctx}
    (h : Landed (r.modCtx t c g) s' t c next y) : Elsewhere r s' t c := by
  obtain ⟨-, hrest, hpages, hcores, hctxs, q, btb, resume, tm, hcore⟩ := h
  refine ⟨hrest, .trans (s' := r.modCtx t c g) (.of_same t rfl rfl) hpages, fun u hu => ?_, fun d hd => ?_,
    q, btb, resume, tm, ?_⟩
  · rw [hcores u hu, State.core_modCtx_ne _ _ _ hu]
  · rw [hctxs d hd, State.ctx_modCtx_ne _ _ _ hd]
  · rw [hcore, State.core_modCtx_same]
    rfl

section
variable {b : Issue} {o : Op} {s : State} {c : CtxId} {y : Ctx} {k : Core}

/-- A bundle of one word that has made `y` of its context, and `k` of its core besides, lands: its context goes on, and
nothing was added to the store buffer. -/
theorem complete_core (h : Ready b o s c) (hne : o ≠ .ctxEnd) (hy : GoesOn (s.ctx (s.tileOf b.core) c) y)
    (hctxs : k.ctxs = (s.core (s.tileOf b.core)).ctxs) (hsb : k.sb = (s.core (s.tileOf b.core)).sb) :
    let r := (s.modCore (s.tileOf b.core) fun _ => k).modCtx (s.tileOf b.core) c fun _ => y
    Landed r (s.complete (envOf b s c) [o] 1 (r, .seq)) (s.tileOf b.core) c
      ((s.ctx (s.tileOf b.core) c).pc + 4) y := by
  intro r
  have hcore : r.core (envOf b s c).t = k.modCtx c fun _ => y :=
    (State.core_modCtx_same ..).trans (by rw [State.core_modCore_same])
  have hctx : r.ctx (envOf b s c).t (envOf b s c).c = y := State.ctx_modCtx_same ..
  have hrun : y.run = .running := hy.run.trans (Core.running_run h.runs)
  have hloop : y.endLoop ((s.ctx (s.tileOf b.core) c).pc.setWidth 20) = none := hy.inBody.trans h.inBody
  refine complete_lands (e := envOf b s c) hne h.fresh.1 ?room ?sent ?loop (.inl ?fresh) ?runs ?goes hrun ?cycles ?still
  case room =>
    rw [hcore]
    exact hsb ▸ Nat.le_succ_of_le h.room.1
  case runs =>
    rw [hcore]
    exact Core.running_modCtx ((Core.running_congr hctxs).trans h.runs) hrun
  case goes =>
    intro poison
    rw [hctx, ← hy.pc]
    rw [← hy.pc] at hloop
    exact Ctx.goOn_seq _ hloop
  all_goals rw [hctx]
  case sent => exact hy.sending.trans h.sent
  case loop => exact hloop
  case fresh => exact hy.resuming.trans h.fresh.1

/-- The law of core rows: a row whose one operation makes `y` of its context, and `k` of its core besides, leaves them
so. -/
theorem leavesCore_of_effect {i : Instr} {f : State → State} (he : exec i s = .next (issue b o s))
    (h : Ready b o s c) (hne : o ≠ .ctxEnd) (hr : opRes (envOf b s c) 1 o = .ok f .seq)
    (hf : f s = (s.modCore (s.tileOf b.core) fun _ => k).modCtx (s.tileOf b.core) c fun _ => y)
    (hy : GoesOn (s.ctx (s.tileOf b.core) c) y)
    (hctxs : k.ctxs = (s.core (s.tileOf b.core)).ctxs) (hsb : k.sb = (s.core (s.tileOf b.core)).sb) :
    Claims.leavesCore i b s c y k := by
  refine ⟨_, he, ?_⟩
  rw [issue_ready h.toStands, hr, settle_ok, hf]
  have hlands := complete_core h hne hy hctxs hsb
  exact ⟨hlands.ctx, hlands.elsewhere⟩

end

/-! ### Fields of a word -/

/-- A field as a number. -/
theorem toNat_fld {n : Nat} (x : BitVec n) (lo len : Nat) : (fld x lo len).toNat = x.toNat / 2 ^ lo % 2 ^ len := by
  rw [fld, BitVec.extractLsb'_toNat, Nat.shiftRight_eq_div_pow]

/-- A field written takes its bits from the value, and the others stay. -/
theorem getLsbD_setFld {n len lo : Nat} (x : BitVec n) (v : BitVec len) (h : lo + len ≤ n) (i : Nat) :
    (setFld x lo v).getLsbD i = if lo ≤ i ∧ i < lo + len then v.getLsbD (i - lo) else x.getLsbD i := by
  rcases Nat.lt_or_ge i n with hi | hi
  · by_cases hlo : i < lo
    · rw [if_neg (by omega)]
      simp [setFld, hlo, hi]
    · by_cases hlen : i < lo + len
      · have hsub : i - lo < len := by omega
        rw [if_pos (by omega)]
        simp [setFld, hlo, hi, hsub]
      · have hsub : len ≤ i - lo := by omega
        rw [if_neg (by omega)]
        simp [setFld, hlo, hi, Nat.not_lt.mpr hsub, BitVec.getLsbD_of_ge v _ hsub]
  · rw [if_neg (by omega), BitVec.getLsbD_of_ge _ _ hi, BitVec.getLsbD_of_ge _ _ hi]

/-- A field written reads back. -/
theorem fld_setFld_same {n len lo : Nat} (x : BitVec n) (v : BitVec len) (h : lo + len ≤ n) :
    fld (setFld x lo v) lo len = v := by
  apply BitVec.eq_of_getLsbD_eq
  intro i hi
  have hin : lo ≤ lo + i ∧ lo + i < lo + len := by omega
  rw [fld, BitVec.getLsbD_extractLsb', getLsbD_setFld x v h, if_pos hin, Nat.add_sub_cancel_left, decide_eq_true hi,
    Bool.true_and]

/-- A field written leaves the fields below and above it. -/
theorem fld_setFld_other {n len lo : Nat} (x : BitVec n) (v : BitVec len) (h : lo + len ≤ n) {lo' len' : Nat}
    (hout : lo' + len' ≤ lo ∨ lo + len ≤ lo') : fld (setFld x lo v) lo' len' = fld x lo' len' := by
  apply BitVec.eq_of_getLsbD_eq
  intro i hi
  have hin : ¬ (lo ≤ lo' + i ∧ lo' + i < lo + len) := by omega
  rw [fld, fld, BitVec.getLsbD_extractLsb', BitVec.getLsbD_extractLsb', getLsbD_setFld x v h, if_neg hin]

/-! ### Tables changed at several keys -/

section
variable {α : Type} [DecidableEq α]

/-- Each key of the list reads the value set there, and every other key reads as before. -/
theorem Tab.get_foldl_set (d : α) (g : Nat → α) (l : List Nat) (t : Tab α) (j : Nat) :
    Tab.get d (l.foldl (fun t i => Tab.set d t i (g i)) t) j = if j ∈ l then g j else Tab.get d t j := by
  induction l generalizing t with
  | nil => rfl
  | cons i l ih =>
    rw [List.foldl_cons, ih]
    by_cases hj : j = i
    · subst hj
      simp
    · simp [hj, Tab.get_set_ne d t _ hj]

/-- Each key of a list without repetition is changed once, and every other key reads as before. -/
theorem Tab.get_foldl_mod (d : α) (f : α → α) {l : List Nat} (hl : l.Nodup) (t : Tab α) (j : Nat) :
    Tab.get d (l.foldl (fun t i => Tab.mod d t i f) t) j =
      if j ∈ l then f (Tab.get d t j) else Tab.get d t j := by
  induction l generalizing t with
  | nil => rfl
  | cons i l ih =>
    obtain ⟨hi, hl⟩ := List.nodup_cons.mp hl
    rw [List.foldl_cons, ih hl]
    by_cases hj : j = i
    · subst hj
      simp [hi]
    · simp [hj, Tab.get_mod_ne d t _ hj]

end

/-! ### Registers of the IO space -/

/-- `in` from a register of the IO space. -/
theorem semIn_reg (e : Env) (rd : BitVec 5) {a : Word} {r : IoReg} (h : ioReg a.toNat = some r) :
    semIn e rd a = .ok (fun s => s.modCtx e.t e.c fun y => (ioRead e.s e.core y r).2.setD rd (ioRead e.s e.core e.x r).1)
      .seq := by
  simp only [semIn, h]

/-- `out.p` to a register of the privileged half of the IO space. -/
theorem semOutp_reg (e : Env) (rs : BitVec 5) {io : BitVec 12} {r : IoReg} (hp : 0x800 ≤ (io.setWidth 32 : Word).toNat)
    (h : ioReg (io.setWidth 32 : Word).toNat = some r) :
    semOutp e rs io = .ok (fun s => s.ioWrite e.t e.lc e.c r (e.x.rd rs)) .seq := by
  simp only [semOutp, h, if_neg (Nat.not_lt.mpr hp)]

/-! ### The selection of the window (R234) -/

/-- The tracker that TRK_SEL selects. -/
theorem toNat_selTrk (v : Word) : (fld v 0 8).toNat = v.toNat % 256 := by
  have hfield : (fld v 0 8).toNat = v.toNat / 1 % 256 := toNat_fld v 0 8
  rw [hfield, Nat.div_one]

/-- The word that TRK_SEL selects. -/
theorem toNat_selWord (v : Word) : (fld v 8 5).toNat = v.toNat / 256 % 32 := toNat_fld v 8 5

/-- The bits above WORD: INC and those that TRK_SEL keeps zero. -/
theorem toNat_selRest (v : Word) : (fld v 13 19).toNat = v.toNat / 8192 := by
  rw [toNat_fld]
  omega

/-- Where TRK_SEL goes after an access: tracker and word together count up with INC, from the last word of tracker 255 to
the first of tracker 0, and stay without it. -/
def selNext (v : Word) : Nat :=
  let trk := v.toNat % 256
  let word := v.toNat / 256 % 32
  if v.getLsbD 13 then (32 * trk + word + 1) % 8192 else 32 * trk + word

theorem trkInc_stays {v : Word} (hinc : v.getLsbD 13 = false) : trkInc v = v := by
  simp only [trkInc, bit, hinc, Bool.not_false, if_true]

theorem trkInc_last {v : Word} (hinc : v.getLsbD 13 = true) (hlast : fld v 8 5 = 31) :
    trkInc v = setFld (setFld v 8 (0 : BitVec 5)) 0 (fld v 0 8 + 1) := by
  simp only [trkInc, bit, hinc, hlast, Bool.not_true, Bool.false_eq_true, if_false, if_true]

theorem trkInc_within {v : Word} (hinc : v.getLsbD 13 = true) (hlast : fld v 8 5 ≠ 31) :
    trkInc v = setFld v 8 (fld v 8 5 + 1) := by
  simp only [trkInc, bit, hinc, hlast, Bool.not_true, Bool.false_eq_true, if_false]

theorem trkInc_eq_selNext (v : Word) : (trkInc v).toNat % 256 = selNext v / 32 ∧
    (trkInc v).toNat / 256 % 32 = selNext v % 32 ∧ (trkInc v).toNat / 8192 = v.toNat / 8192 := by
  rw [← toNat_selTrk, ← toNat_selWord, ← toNat_selRest, ← toNat_selRest, selNext, ← toNat_selTrk, ← toNat_selWord]
  have htrk := (fld v 0 8).isLt
  have hword := (fld v 8 5).isLt
  cases hinc : v.getLsbD 13 with
  | false =>
    rw [trkInc_stays hinc, if_neg Bool.false_ne_true]
    omega
  | true =>
    rw [if_pos rfl]
    by_cases hlast : fld v 8 5 = 31
    · have hsel : fld (trkInc v) 0 8 = fld v 0 8 + 1 := by
        rw [trkInc_last hinc hlast, fld_setFld_same _ _ (by decide)]
      have hfirst : fld (trkInc v) 8 5 = 0 := by
        rw [trkInc_last hinc hlast, fld_setFld_other _ _ (by decide) (.inr (by decide)),
          fld_setFld_same _ _ (by decide)]
      have hrest : fld (trkInc v) 13 19 = fld v 13 19 := by
        rw [trkInc_last hinc hlast, fld_setFld_other _ _ (by decide) (.inr (by decide)),
          fld_setFld_other _ _ (by decide) (.inr (by decide))]
      have hthis : (fld v 8 5).toNat = 31 := congrArg BitVec.toNat hlast
      have hnext : (fld v 0 8 + 1).toNat = ((fld v 0 8).toNat + 1) % 256 := BitVec.toNat_add ..
      have hzero : (0 : BitVec 5).toNat = 0 := rfl
      rw [hsel, hfirst, hrest, hnext]
      omega
    · have hsel : fld (trkInc v) 0 8 = fld v 0 8 := by
        rw [trkInc_within hinc hlast, fld_setFld_other _ _ (by decide) (.inl (by decide))]
      have hfollows : fld (trkInc v) 8 5 = fld v 8 5 + 1 := by
        rw [trkInc_within hinc hlast, fld_setFld_same _ _ (by decide)]
      have hrest : fld (trkInc v) 13 19 = fld v 13 19 := by
        rw [trkInc_within hinc hlast, fld_setFld_other _ _ (by decide) (.inr (by decide))]
      have hthis : (fld v 8 5).toNat ≠ 31 := fun h => hlast (BitVec.eq_of_toNat_eq h)
      have hnext : (fld v 8 5 + 1).toNat = ((fld v 8 5).toNat + 1) % 32 := BitVec.toNat_add ..
      rw [hsel, hfollows, hrest, hnext]
      omega

/-- The context after an access to TRK_DATA. -/
def Ctx.moveWindow (x : Ctx) : Ctx := { x with trkSel := trkInc x.trkSel }

/-! ### A read of TRK_DATA (R235) -/

/-- The latch with a tracker's record. -/
def latchOf (r : Tracker) : Tab Word := (List.range 32).foldl (fun l i => Tab.set 0 l i (r.word i)) []

theorem get_latchOf (r : Tracker) {i : Nat} (h : i < 32) : Tab.get 0 (latchOf r) i = r.word i := by
  rw [latchOf, Tab.get_foldl_set, if_pos (List.mem_range.mpr h)]

/-- A read of word 0 gives CFG, and latches the tracker's record. -/
theorem trkRead_record (k : Core) {x : Ctx} (h : (fld x.trkSel 8 5).toNat = 0) :
    trkRead k x = ((k.mtx.tracker (fld x.trkSel 0 8).toNat).cfg,
      { x with trkLatch := latchOf (k.mtx.tracker (fld x.trkSel 0 8).toNat) }.moveWindow) :=
  if_pos h

/-- A read of another word gives that word of the latch. -/
theorem trkRead_latched (k : Core) {x : Ctx} (h : (fld x.trkSel 8 5).toNat ≠ 0) :
    trkRead k x = (Tab.get 0 x.trkLatch (fld x.trkSel 8 5).toNat, x.moveWindow) :=
  if_neg h

/-- What a read of TRK_DATA does to its context. -/
theorem trkDataRead_does {b : Issue} {s : State} {c : CtxId} {rd : BitVec 5} (h : Ready b (.inAt rd 0xF04) s c) :
    let k := s.core (s.tileOf b.core)
    let x := s.ctx (s.tileOf b.core) c
    Does (.trkDataRead b rd) b s c ((trkRead k x).2.setD rd (trkRead k x).1) := by
  intro k x
  refine does_reg (g := fun y => (trkRead k y).2.setD rd (trkRead k x).1) rfl h nofun
    (semIn_reg _ _ (a := 0xF04) (r := .trkData) (by decide)) ?_
  by_cases hword : (fld x.trkSel 8 5).toNat = 0
  · rw [trkRead_record k hword]
    exact ⟨rfl, rfl, rfl, rfl, rfl⟩
  · rw [trkRead_latched k hword]
    exact ⟨rfl, rfl, rfl, rfl, rfl⟩

/-! ### Writes of the window -/

theorem Mtx.tracker_modTracker_same (x : Mtx) (i : Nat) (f : Tracker → Tracker) :
    (x.modTracker i f).tracker i = f (x.tracker i) := Tab.get_mod_same ..

theorem Mtx.tracker_modTracker_ne (x : Mtx) {i j : Nat} (f : Tracker → Tracker) (h : j ≠ i) :
    (x.modTracker i f).tracker j = x.tracker j := Tab.get_mod_ne _ _ f h

theorem State.modCtx_congr {s : State} {t : Tile} {c : CtxId} {f g : Ctx → Ctx} (h : f (s.ctx t c) = g (s.ctx t c)) :
    s.modCtx t c f = s.modCtx t c g := by
  refine State.modCore_congr ?_
  rw [Core.modCtx, Core.modCtx, show f ((s.core t).ctxs.get c) = g ((s.core t).ctxs.get c) from h]

/-- The core with another table of trackers. -/
def Core.withTrackers (k : Core) (trk : Tab Tracker) : Core := { k with mtx := { k.mtx with trk := trk } }

theorem State.ctx_withTrackers (s : State) (t : Tile) (trk : Tab Tracker) (c : CtxId) :
    (s.modCore t fun _ => (s.core t).withTrackers trk).ctx t c = s.ctx t c := by
  rw [State.ctx, State.core_modCore_same]
  rfl

/-- The trackers that a write of TRK_STEP or TRK_RESET names. -/
theorem mem_trkRange {v : Word} {i : Nat} :
    i ∈ trkRange v ↔ v.toNat % 256 ≤ i ∧ i ≤ min (v.toNat % 256 + v.toNat / 256 % 256) 255 := by
  have hcount : (fld v 8 8).toNat = v.toNat / 256 % 256 := toNat_fld v 8 8
  rw [trkRange, toNat_selTrk, hcount, List.mem_map]
  constructor
  · rintro ⟨j, hj, rfl⟩
    rw [List.mem_range] at hj
    omega
  · rintro ⟨hlo, hhi⟩
    exact ⟨i - v.toNat % 256, List.mem_range.mpr (by omega), by omega⟩

theorem nodup_trkRange (v : Word) : (trkRange v).Nodup :=
  List.Pairwise.map _ (fun _ _ hne heq => hne (Nat.add_left_cancel heq)) List.nodup_range

/-- `f` acts on each tracker of the range and on no other. -/
theorem Core.withTrackers_range (k : Core) (v : Word) (f : Tracker → Tracker) (i : Nat) :
    (k.withTrackers ((trkRange v).foldl (fun l j => Tab.mod {} l j f) k.mtx.trk)).mtx.tracker i =
      if i ∈ trkRange v then f (k.mtx.tracker i) else k.mtx.tracker i :=
  Tab.get_foldl_mod _ f (nodup_trkRange v) k.mtx.trk i

theorem State.modMtx_trk (s : State) (t : Tile) (f : Tab Tracker → Tab Tracker) :
    (s.modMtx t fun m => { m with trk := f m.trk }) =
      s.modCore t fun _ => (s.core t).withTrackers (f (s.core t).mtx.trk) :=
  State.modCore_congr rfl

/-- A write of TRK_STEP or TRK_RESET changes the trackers of its range and nothing else. -/
theorem State.trkAll_eq (s : State) (t : Tile) (c : CtxId) (v : Word) (f : Tracker → Tracker) :
    s.trkAll t v f = (s.modCore t fun _ => (s.core t).withTrackers
      ((trkRange v).foldl (fun l i => Tab.mod {} l i f) (s.core t).mtx.trk)).modCtx t c fun _ => s.ctx t c := by
  rw [State.modCtx_self _ _ _ (s.ctx_withTrackers ..).symm]
  exact s.modMtx_trk t fun trk => (trkRange v).foldl (fun l i => Tab.mod {} l i f) trk

/-- A write of TRK_DATA that R237 does not leave undefined writes the selected word and moves the window. -/
theorem State.trkWrite_eq {s : State} {t : Tile} {c : CtxId} (v : Word)
    (h : (s.core t).mtx.trackerBusy (fld (s.ctx t c).trkSel 0 8).toNat = true →
      (fld (s.ctx t c).trkSel 8 5).toNat < 3) :
    s.trkWrite t c v = (s.modCore t fun _ => (s.core t).withTrackers
      (Tab.mod {} (s.core t).mtx.trk (fld (s.ctx t c).trkSel 0 8).toNat
        fun r => r.setWord (fld (s.ctx t c).trkSel 8 5).toNat v)).modCtx t c
      fun _ => (s.ctx t c).moveWindow := by
  have hfree : ((s.core t).mtx.trackerBusy (fld (s.ctx t c).trkSel 0 8).toNat &&
      decide (3 ≤ (fld (s.ctx t c).trkSel 8 5).toNat)) = false := by
    simpa using h
  simp only [State.trkWrite, hfree, Bool.false_eq_true, if_false]
  rw [s.modMtx_trk t fun trk => Tab.mod {} trk (fld (s.ctx t c).trkSel 0 8).toNat
    fun r => r.setWord (fld (s.ctx t c).trkSel 8 5).toNat v]
  exact State.modCtx_congr (congrArg Ctx.moveWindow (s.ctx_withTrackers ..))

/-- The law of TRK_STEP and TRK_RESET: a row that acts by `f` on each tracker of its range changes these trackers and
nothing else. -/
theorem trkAll_leaves {i : Instr} {b : Issue} {s : State} {c : CtxId} {rs : BitVec 5} {io : BitVec 12} {r : IoReg}
    {f : Tracker → Tracker} (he : exec i s = .next (issue b (.outp rs io) s)) (h : Ready b (.outp rs io) s c)
    (hp : 0x800 ≤ (io.setWidth 32 : Word).toNat) (hreg : ioReg (io.setWidth 32 : Word).toNat = some r)
    (hr : ∀ t lc v, s.ioWrite t lc c r v = s.trkAll t v f) :
    let k := s.core (s.tileOf b.core)
    let x := s.ctx (s.tileOf b.core) c
    let v := x.rd rs
    let inRange (j : Nat) : Prop := v.toNat % 256 ≤ j ∧ j ≤ min (v.toNat % 256 + v.toNat / 256 % 256) 255
    ∃ k' : Core, Claims.leavesCore i b s c x k' ∧ k' = { k with mtx := { k.mtx with trk := k'.mtx.trk } } ∧
      ∀ j, (inRange j → k'.mtx.tracker j = f (k.mtx.tracker j)) ∧
        (¬ inRange j → k'.mtx.tracker j = k.mtx.tracker j) := by
  intro k x v inRange
  refine ⟨k.withTrackers ((trkRange v).foldl (fun l j => Tab.mod {} l j f) k.mtx.trk), ?_, rfl, fun j => ?_⟩
  · exact leavesCore_of_effect he h nofun (semOutp_reg _ _ hp hreg) ((hr ..).trans (s.trkAll_eq ..))
      ⟨rfl, rfl, rfl, rfl, rfl⟩ rfl rfl
  · rw [Core.withTrackers_range]
    exact ⟨fun hj => if_pos (mem_trkRange.mpr hj), fun hj => if_neg (mt mem_trkRange.mp hj)⟩

/-- Settles O23: each access through the law of its register, and where the window moves by the fields of TRK_SEL. -/
theorem trackerWindowRows : Obligations.TrackerWindowRows := by
  unfold Obligations.TrackerWindowRows
  intro b s c rd rs k x v trk word next moved only inRange
  have htrk : (fld x.trkSel 0 8).toNat = trk := toNat_selTrk _
  have hword : (fld x.trkSel 8 5).toNat = word := toNat_selWord _
  refine ⟨fun h => ?read, fun h hbusy => ?write, fun h => ?step, fun h => ?reset⟩
  case read =>
    refine ⟨_, trkDataRead_does h, ?_⟩
    by_cases hzero : word = 0
    · rw [trkRead_record k (x := x) (hword.trans hzero), htrk]
      exact ⟨trkInc_eq_selNext _, fun _ => ⟨rfl, fun _ => get_latchOf _⟩, fun hne => absurd hzero hne⟩
    · rw [trkRead_latched k (x := x) (hword.symm ▸ hzero), hword]
      exact ⟨trkInc_eq_selNext _, fun h0 => absurd h0 hzero, fun _ => rfl⟩
  case write =>
    rw [← htrk, ← hword] at hbusy
    refine ⟨x.moveWindow, _, leavesCore_of_effect rfl h nofun
      (semOutp_reg _ _ (io := 0xF04) (r := .trkData) (by decide) (by decide)) (State.trkWrite_eq _ hbusy)
      ⟨rfl, rfl, rfl, rfl, rfl⟩ rfl rfl, trkInc_eq_selNext _, rfl, rfl, fun i hi => ?_, ?_⟩
    · exact k.mtx.tracker_modTracker_ne _ (htrk ▸ hi)
    · rw [← htrk, ← hword]
      exact k.mtx.tracker_modTracker_same ..
  case step => exact trkAll_leaves (r := .trkStep) rfl h (by decide) (by decide) fun _ _ _ => rfl
  case reset => exact trkAll_leaves (r := .trkReset) rfl h (by decide) (by decide) fun _ _ _ => rfl

end Sys2Proof.Machine
end

section
/-! PROOFS. Scratchpads: credit operations (O26), tag and synchronisation waits (O39), and repair and clear (O41). -/

namespace Sys2Proof.Machine

/-! ### A context that blocks -/

/-- A selection of context `d` in round-robin order finds it READY. -/
theorem Core.nextReady_run {k : Core} {d : CtxId} (h : k.nextReady = some d) : (k.ctxs.get d).run = .ready := by
  simpa using List.find?_some h

/-- The core with context `d` selected. -/
def Core.selects (k : Core) (d : CtxId) : Core :=
  { (k.modCtx d fun x => { x with run := .running }) with last := d, quantum := 0 }

/-- What the selection of a core can do: nothing, or make one READY context RUNNING, counted where it is a change. -/
theorem State.reselect_cases (s : State) (t : Tile) : s.reselect t = s ∨ ∃ d, (s.ctx t d).run = .ready ∧
    (s.reselect t = s.modCore t (·.selects d) ∨
      s.reselect t = (s.modCore t (·.selects d)).count (.core t.val) 4 1) := by
  unfold State.reselect
  dsimp only
  split
  · exact .inl rfl
  split
  · exact .inl rfl
  split
  case h_1 => exact .inl rfl
  case h_2 d hd =>
    refine .inr ⟨d, Core.nextReady_run hd, ?_⟩
    split
    · exact .inl rfl
    · exact .inr rfl

@[simp] theorem State.reselect_board (s : State) (t : Tile) : (s.reselect t).board = s.board := by
  obtain h | ⟨d, -, h | h⟩ := s.reselect_cases t <;> rw [h] <;> simp

theorem State.reselect_mbx (s : State) (t u : Tile) : ((s.reselect t).core u).mbx = (s.core u).mbx := by
  have hselects (d : CtxId) : ((s.modCore t (·.selects d)).core u).mbx = (s.core u).mbx := by
    by_cases hu : u = t
    · rw [hu, State.core_modCore_same]
      rfl
    · rw [State.core_modCore_ne _ _ hu]
  obtain h | ⟨d, -, h | h⟩ := s.reselect_cases t <;> rw [h]
  · exact hselects d
  · rw [State.core_congr (State.count_cores ..), hselects]

/-- A context that is not READY is not selected. -/
theorem State.reselect_ctx {s : State} {t : Tile} {c : CtxId} (hc : (s.ctx t c).run ≠ .ready) :
    (s.reselect t).ctx t c = s.ctx t c := by
  have hselects (d : CtxId) (hd : (s.ctx t d).run = .ready) : (s.modCore t (·.selects d)).ctx t c = s.ctx t c := by
    have hne : c ≠ d := by
      rintro rfl
      exact hc hd
    rw [State.ctx, State.core_modCore_same]
    exact (s.core t).modCtx_ne (fun x => { x with run := .running }) hne
  obtain h | ⟨d, hd, h | h⟩ := s.reselect_cases t <;> rw [h]
  · exact hselects d hd
  · rw [State.ctx, State.core_congr (State.count_cores ..)]
    exact hselects d hd

section
variable (s : State) (t : Tile) (c : CtxId) {code : BitVec 4} (w : CtxWait) (hhbm : code ≠ 2) (hcore : code ≠ 1)
include hhbm hcore

/-- A block that is no wait for a load is not counted. -/
theorem State.blockCtx_uncounted : s.blockCtx t c code w =
    (s.modCtx t c fun x => { x with run := .blocked, block := code, wait := w }).reselect t := by
  rw [State.blockCtx, State.countWait, if_neg hhbm, if_neg hcore]

theorem State.blockCtx_ctx : (s.blockCtx t c code w).ctx t c =
    { s.ctx t c with run := .blocked, block := code, wait := w } := by
  have hset : (s.modCtx t c fun x => { x with run := .blocked, block := code, wait := w }).ctx t c =
      { s.ctx t c with run := .blocked, block := code, wait := w } := State.ctx_modCtx_same ..
  rw [s.blockCtx_uncounted t c w hhbm hcore, State.reselect_ctx (by rw [hset]; nofun), hset]

theorem State.blockCtx_board : (s.blockCtx t c code w).board = s.board := by
  rw [s.blockCtx_uncounted t c w hhbm hcore, State.reselect_board]
  rfl

theorem State.blockCtx_mbx (u : Tile) : ((s.blockCtx t c code w).core u).mbx = (s.core u).mbx := by
  rw [s.blockCtx_uncounted t c w hhbm hcore, State.reselect_mbx]
  by_cases hu : u = t
  · rw [hu, State.core_modCtx_same]
    rfl
  · rw [State.core_modCtx_ne _ _ _ hu]

end

/-! ### Credit operations on a mailbox (R310) -/

/-- The result word of a credit operation: GRANTED, DENIED and CREDIT. -/
def creditResult (granted denied : Bool) (credit : Nat) : Word :=
  BitVec.ofNat 32 ((if granted then 1 else 0) + (if denied then 2 else 0) + 65536 * credit)

theorem creditResult_eq (granted denied : Bool) (credit : BitVec 16) :
    b2v 32 granted ||| (b2v 32 denied <<< 1) ||| (credit.setWidth 32 <<< 16) =
      creditResult granted denied credit.toNat := by
  have hcredit := credit.isLt
  have hflags : ∀ g d : Bool, (b2v 32 g ||| b2v 32 d <<< 1).toNat = (if g then 1 else 0) + (if d then 2 else 0) := by
    decide
  have hsmall := hflags granted denied
  have hlt : (b2v 32 granted ||| b2v 32 denied <<< 1).toNat < 2 ^ 16 := by
    rw [hsmall]
    cases granted <;> cases denied <;> decide
  have hhigh : (credit.setWidth 32 <<< 16).toNat = credit.toNat <<< 16 := by
    rw [BitVec.toNat_shiftLeft, BitVec.toNat_setWidth, Nat.shiftLeft_eq, Nat.shiftLeft_eq]
    omega
  apply BitVec.eq_of_toNat_eq
  rw [BitVec.toNat_or, hhigh, Nat.or_comm, ← Nat.shiftLeft_add_eq_or_of_lt hlt, hsmall, creditResult,
    BitVec.toNat_ofNat, Nat.shiftLeft_eq]
  omega

/-- EN, FUNC or, for a `crget`, SENDER denies a core an operation on a mailbox of its own. -/
def Mbx.denies (m : Mbx) (src : LCore) (f : Func) (put : Bool) : Bool :=
  !m.en || m.func != BitVec.ofNat 4 f.val ||
    (!put && !decide (m.sender.toNat = 0x3F ∨ m.sender.toNat = src.val))

theorem Mbx.denies_iff (m : Mbx) (src : LCore) (f : Func) (put : Bool) : m.denies src f put = true ↔
    m.en = false ∨ m.func.toNat ≠ f.val ∨ (put = false ∧ m.sender.toNat ≠ 0x3F ∧ m.sender.toNat ≠ src.val) := by
  have hfunc : (m.func != BitVec.ofNat 4 f.val) = true ↔ m.func.toNat ≠ f.val := by
    rw [bne_iff_ne, Ne, ← BitVec.toNat_inj, BitVec.toNat_ofNat, Nat.mod_eq_of_lt f.isLt]
  simp only [Mbx.denies, Bool.or_eq_true, hfunc, Bool.not_eq_true', Bool.and_eq_true, decide_eq_false_iff_not,
    not_or, or_assoc]

/-- UNITS of a credit operation. -/
def unitsOf (data : Word) : Nat := data.toNat / 256 % 65536

theorem toNat_unitsOf (data : Word) : (fld data 8 16).toNat = unitsOf data := toNat_fld data 8 16

section
variable {m : Mbx} {src : LCore} {f : Func} {data : Word}

theorem Mbx.creditOp_denied {put : Bool} (h : m.denies src f put = true) :
    m.creditOp src src f put data = (creditResult false true m.credit.toNat, m) := by
  simp only [Mbx.denies] at h
  simp only [Mbx.creditOp, creditResult_eq, h, Bool.true_or, if_true]

/-- `crget` moves units from CREDIT to GRANT. -/
theorem Mbx.creditOp_get (h : m.denies src f false = false) (hcredit : unitsOf data ≤ m.credit.toNat)
    (hgrant : m.grant.toNat + unitsOf data ≤ 65535) :
    m.creditOp src src f false data = (creditResult true false (m.credit.toNat - unitsOf data),
      { m with
        credit := BitVec.ofNat 16 (m.credit.toNat - unitsOf data)
        grant := BitVec.ofNat 16 (m.grant.toNat + unitsOf data) }) := by
  have hless : m.credit - BitVec.ofNat 16 (unitsOf data) = BitVec.ofNat 16 (m.credit.toNat - unitsOf data) := by
    rw [← BitVec.ofNat_sub_ofNat_of_le _ _ (by omega) hcredit, BitVec.ofNat_toNat, BitVec.setWidth_eq]
  have hmore : m.grant + BitVec.ofNat 16 (unitsOf data) = BitVec.ofNat 16 (m.grant.toNat + unitsOf data) := by
    rw [BitVec.ofNat_add, BitVec.ofNat_toNat, BitVec.setWidth_eq]
  have hleft : (BitVec.ofNat 16 (m.credit.toNat - unitsOf data)).toNat = m.credit.toNat - unitsOf data := by
    rw [BitVec.toNat_ofNat, Nat.mod_eq_of_lt (by omega)]
  simp only [Mbx.denies, Bool.not_false, Bool.true_and] at h
  simp only [Mbx.creditOp, creditResult_eq, toNat_unitsOf, Bool.not_false, Bool.true_and, Bool.false_and, Bool.or_false,
    h, Bool.false_eq_true, if_false, if_true, if_pos (And.intro hcredit hgrant), hless, hmore, hleft]

/-- `crget` moves nothing where CREDIT holds too few units, or GRANT has no room for them. -/
theorem Mbx.creditOp_short (h : m.denies src f false = false)
    (hshort : m.credit.toNat < unitsOf data ∨ 65535 < m.grant.toNat + unitsOf data) :
    m.creditOp src src f false data = (creditResult false false m.credit.toNat, m) := by
  have hno : ¬ (unitsOf data ≤ m.credit.toNat ∧ m.grant.toNat + unitsOf data ≤ 65535) := by omega
  simp only [Mbx.denies, Bool.not_false, Bool.true_and] at h
  simp only [Mbx.creditOp, creditResult_eq, toNat_unitsOf, Bool.not_false, Bool.true_and, Bool.false_and, Bool.or_false,
    h, Bool.false_eq_true, if_false, if_true, if_neg hno]

theorem toNat_saturated (n : Nat) : (BitVec.ofNat 16 (min n 65535)).toNat = min n 65535 := by
  rw [BitVec.toNat_ofNat, Nat.mod_eq_of_lt (by omega)]

/-- `crput` adds units to CREDIT, up to 65,535. -/
theorem Mbx.creditOp_add (h : m.denies src f true = false) (hret : data.getLsbD 24 = false) :
    m.creditOp src src f true data = (creditResult true false (min (m.credit.toNat + unitsOf data) 65535),
      { m with credit := BitVec.ofNat 16 (min (m.credit.toNat + unitsOf data) 65535) }) := by
  simp only [Mbx.denies, Bool.not_true, Bool.false_and, Bool.or_false] at h
  simp only [Mbx.creditOp, creditResult_eq, toNat_unitsOf, toNat_saturated, bit, hret, bne_self_eq_false,
    Bool.not_true, Bool.false_and, Bool.and_false, Bool.or_false, h, Bool.false_eq_true, if_false, Bool.not_false,
    if_true]

/-- `crput` with RET moves units from GRANT back to CREDIT. -/
theorem Mbx.creditOp_return (h : m.denies src f true = false) (hret : data.getLsbD 24 = true) :
    let u := min (unitsOf data) m.grant.toNat
    m.creditOp src src f true data = (creditResult true false (min (m.credit.toNat + u) 65535),
      { m with
        credit := BitVec.ofNat 16 (min (m.credit.toNat + u) 65535)
        grant := BitVec.ofNat 16 (m.grant.toNat - u) }) := by
  intro u
  have hless : m.grant - BitVec.ofNat 16 u = BitVec.ofNat 16 (m.grant.toNat - u) := by
    rw [← BitVec.ofNat_sub_ofNat_of_le _ _ (by omega) (Nat.min_le_right ..), BitVec.ofNat_toNat, BitVec.setWidth_eq]
  simp only [Mbx.denies, Bool.not_true, Bool.false_and, Bool.or_false] at h
  simp only [Mbx.creditOp, creditResult_eq, toNat_unitsOf, toNat_saturated, bit, hret, bne_self_eq_false,
    Bool.not_true, Bool.false_and, Bool.and_false, Bool.or_false, h, Bool.false_eq_true, if_false, hless, u]

end

/-! ### Credit operations of a bundle (R311) -/

/-- The core after a credit operation on a mailbox of its own. -/
def Core.withMbx (k : Core) (i : Nat) (m : Mbx) : Core := { k with mbx := Tab.set {} k.mbx i m }

/-- A credit operation on mailbox `i` may go on: its address names the mailbox, and no earlier access of its context is
under way or has faulted. -/
structure CreditGoes (e : Env) (m : MemAddr) : Prop where
  lo : 0x400 ≤ (e.x.lm m .word).1.toNat
  hi : (e.x.lm m .word).1.toNat < 0x500
  aligned : (e.x.lm m .word).1.toNat % 4 = 0
  fresh : e.x.done = []
  stored : e.core.sbOwn e.c = false
  acked : e.x.stores = 0
  loaded : e.core.loading e.c = false
  unfaulted : e.x.deferred = none

section
variable {e : Env} {m : MemAddr} (h : CreditGoes e m) (put : Bool) (d : BitVec 5)
include h

/-- Its mailbox's core performs it, or is asked to. -/
theorem semCredit_goes : semCredit e put d m =
    if (fld (e.x.rd d) 0 5).toFin = e.lc then
      .ok (fun s =>
        let r := (s.core e.t).creditOp e.lc e.lc e.x.func put (((e.x.lm m .word).1.toNat - 0x400) / 4) (e.x.rd d)
        (s.modCore e.t fun _ => r.2).modCtx e.t e.c fun x => x.setD d r.1) .seq
    else if 32 ≤ e.core.outstanding then .stall id
    else .block 5 (.credit e.pos) fun s => s.sendMesh
      ⟨e.lc, .ctx e.c, e.x.func, (fld (e.x.rd d) 0 5).toFin,
        .credit e.pos put (BitVec.ofNat 6 (((e.x.lm m .word).1.toNat - 0x400) / 4)) (e.x.rd d)⟩ := by
  obtain ⟨lo, hi, aligned, fresh, stored, acked, loaded, unfaulted⟩ := h
  have hnamed : ¬ ((e.x.lm m .word).1.toNat < 0x400 ∨ 0x500 ≤ (e.x.lm m .word).1.toNat ∨
      (e.x.lm m .word).1.toNat % 4 ≠ 0) := by omega
  have hdone : e.doneVal = none := by rw [Env.doneVal, fresh]; rfl
  simp only [semCredit, if_neg hnamed, hdone, stored, acked, loaded, Env.deferPoint, unfaulted, bne_self_eq_false,
    Bool.or_false, Bool.false_eq_true, if_false]

end

theorem target_val (data : Word) : (fld data 0 5).toFin.val = data.toNat % 32 := by
  have hfield : (fld data 0 5).toNat = data.toNat / 1 % 32 := toNat_fld data 0 5
  rw [BitVec.val_toFin, hfield, Nat.div_one]

section
variable {i : Instr} {b : Issue} {o : Op} {s : State} {c : CtxId} {put : Bool} {d : BitVec 5} {m : MemAddr}

/-- The law of credit operations on a mailbox of the context's own core: the result is written to the data register,
and no other mailbox changes. -/
theorem credit_own (he : exec i s = .next (issue b o s)) (h : Ready b o s c) (hne : o ≠ .ctxEnd)
    (ho : opRes (envOf b s c) 1 o = semCredit (envOf b s c) put d m) (hgoes : CreditGoes (envOf b s c) m)
    {word : Word} {mb' : Mbx} (hown : ((s.ctx (s.tileOf b.core) c).rd d).toNat % 32 = b.core.val)
    (hop : ((s.core (s.tileOf b.core)).mb ((((s.ctx (s.tileOf b.core) c).lm m .word).1.toNat - 0x400) / 4)).creditOp
      b.core b.core (s.ctx (s.tileOf b.core) c).func put ((s.ctx (s.tileOf b.core) c).rd d) = (word, mb')) :
    let k := s.core (s.tileOf b.core)
    let x := s.ctx (s.tileOf b.core) c
    let n := ((x.lm m .word).1.toNat - 0x400) / 4
    ∃ k' : Core, Claims.leavesCore i b s c (x.setD d word) k' ∧ k' = { k with mbx := k'.mbx } ∧
      (∀ j, j ≠ n → k'.mb j = k.mb j) ∧ k'.mb n = mb' := by
  intro k x n
  have htarget : (fld (x.rd d) 0 5).toFin = b.core := Fin.ext ((target_val _).trans hown)
  refine ⟨k.withMbx n mb', ?_, rfl, fun j hj => Tab.get_set_ne _ _ _ hj, Tab.get_set_same ..⟩
  refine leavesCore_of_effect he h hne (ho.trans ((semCredit_goes hgoes put d).trans (if_pos htarget))) ?_
    ⟨rfl, rfl, rfl, rfl, rfl⟩ rfl rfl
  have hcore : k.creditOp b.core b.core x.func put n (x.rd d) = (word, k.withMbx n mb') := by
    rw [Core.creditOp, hop]
    rfl
  show (s.modCore _ fun _ => (k.creditOp b.core b.core x.func put n (x.rd d)).2).modCtx _ c
    (fun y => y.setD d (k.creditOp b.core b.core x.func put n (x.rd d)).1) = _
  rw [hcore]
  refine State.modCtx_congr (congrArg (fun y : Ctx => y.setD d word) ?_)
  rw [State.ctx, State.core_modCore_same]
  rfl

/-- The law of credit operations on another core's mailbox: the operation leaves over the mesh, and its context blocks
with code 5. -/
theorem credit_far (he : exec i s = .next (issue b o s)) (h : Ready b o s c)
    (ho : opRes (envOf b s c) 1 o = semCredit (envOf b s c) put d m) (hgoes : CreditGoes (envOf b s c) m)
    (hfar : ((s.ctx (s.tileOf b.core) c).rd d).toNat % 32 ≠ b.core.val) :
    let x := s.ctx (s.tileOf b.core) c
    ∃ s' n, exec i s = .next s' ∧ n.val = (x.rd d).toNat % 32 ∧
      s'.ctx (s.tileOf b.core) c = { x with run := .blocked, block := 5, wait := .credit 0 } ∧
      s'.board = { s.board with mesh := s.board.mesh ++ [⟨b.core, .ctx c, x.func, n,
        .credit 0 put (BitVec.ofNat 6 (((x.lm m .word).1.toNat - 0x400) / 4)) (x.rd d)⟩] } ∧
      ∀ u, (s'.core u).mbx = (s.core u).mbx := by
  intro x
  have htarget : ¬ (fld (x.rd d) 0 5).toFin = b.core := fun e =>
    hfar ((target_val _).symm.trans (congrArg Fin.val e))
  have hroom : ¬ 32 ≤ (envOf b s c).core.outstanding := Nat.not_le.mpr h.room.2
  refine ⟨_, (fld (x.rd d) 0 5).toFin, he, target_val _, ?_⟩
  rw [issue_ready h.toStands, ho, (semCredit_goes hgoes put d).trans ((if_neg htarget).trans (if_neg hroom)),
    settle_block]
  exact ⟨State.blockCtx_ctx _ _ _ _ (by decide) (by decide), State.blockCtx_board _ _ _ _ (by decide) (by decide),
    State.blockCtx_mbx _ _ _ _ (by decide) (by decide)⟩

end

/-- Settles O26: a mailbox of the own core through the law of its operation, by what denies it and what it moves; one of
another core through the law of the request. -/
theorem creditRows : Obligations.CreditRows := by
  unfold Obligations.CreditRows
  intro b s c d m t k x a i mb data units ret denied word does sat hlo hhi haligned hstored hacked hloaded hunfaulted
  have hgoes (o : Op) (h : Ready b o s c) : CreditGoes (envOf b s c) m :=
    ⟨hlo, hhi, haligned, h.fresh.2, hstored, hacked, hloaded, hunfaulted⟩
  have hdenied (put : Bool) (h : denied put) : mb.denies b.core x.func put = true := (mb.denies_iff ..).mpr h
  have hallowed (put : Bool) (h : ¬ denied put) : mb.denies b.core x.func put = false := by
    rwa [← Bool.not_eq_true, mb.denies_iff]
  refine ⟨fun hown => ⟨fun h => ?crget, fun h => ?crput⟩, fun hfar put h => ?far⟩
  case crget =>
    have hdoes {y : Word} {mb' : Mbx} (hop : mb.creditOp b.core b.core x.func false data = (y, mb')) :
        does (.crget b d m) y mb' := credit_own rfl h nofun rfl (hgoes _ h) hown hop
    exact ⟨fun hno => hdoes (Mbx.creditOp_denied (hdenied _ hno)),
      fun hyes hcredit hgrant => hdoes (Mbx.creditOp_get (hallowed _ hyes) hcredit hgrant),
      fun hyes hshort => hdoes (Mbx.creditOp_short (hallowed _ hyes) hshort)⟩
  case crput =>
    have hdoes {y : Word} {mb' : Mbx} (hop : mb.creditOp b.core b.core x.func true data = (y, mb')) :
        does (.crput b d m) y mb' := credit_own rfl h nofun rfl (hgoes _ h) hown hop
    exact ⟨fun hno => hdoes (Mbx.creditOp_denied (hdenied _ hno)),
      fun hyes hadd => hdoes (Mbx.creditOp_add (hallowed _ hyes) hadd),
      fun hyes hreturn => hdoes (Mbx.creditOp_return (hallowed _ hyes) hreturn)⟩
  case far =>
    cases put with
    | false => exact credit_far rfl h rfl (hgoes _ h) hfar
    | true => exact credit_far rfl h rfl (hgoes _ h) hfar

/-! ### An answer of the synchronisation block to a core that is paused (R30, R385) -/

/-- Every packet to a paused core is held, the answer to a `sync` form among them. -/
theorem syncReply_held {s : State} {core : LCore} (c : CtxId) (h : s.frozen (s.tileOf core) = true) :
    exec (.syncReply core c) s = .next s := if_pos h

/-- The machine after reset, but for core 0: its control island is gated, context 0 is BLOCKED on a `sync.rd` of object 4,
and the bank's answer to it is on its way. -/
def answerToPaused : State :=
  { (State.reset.modCtx 0 0 fun x => { x with run := .blocked, block := 4, wait := .sync 0 4 none }).modIsl 0
      fun x => { x with gated := true } with
    sync := { answers := [⟨0, 0, 0, 10, true⟩] } }

theorem answerToPaused_frozen : answerToPaused.frozen (answerToPaused.tileOf 0) = true := by decide +kernel

/-- Refutes O39: the clause of the answer to a `sync` form claims that it ends the wait in every state. On its way to a
core that is paused, it is held, and its context stays BLOCKED. -/
theorem not_tagAndSyncEvents : ¬ Obligations.TagAndSyncEvents := by
  unfold Obligations.TagAndSyncEvents
  intro h
  obtain ⟨-, -, -, -, -, reply, -⟩ := h answerToPaused 0 0
  obtain ⟨s', hexec, ⟨run, hrun, hctx⟩, -⟩ := reply ⟨0, 0, 0, 10, true⟩ 0 4 none rfl rfl rfl
  obtain rfl : answerToPaused = s' := Host.Outcome.next.inj ((syncReply_held 0 answerToPaused_frozen).symm.trans hexec)
  exact hrun (congrArg Ctx.run hctx).symm

/-! ### What logging leaves of the tiles (R520, R523, R525) -/

/-- The tiles as they were: every core, and of every tile's page all but ERR_SUMMARY. -/
structure KeepsTiles (s s' : State) : Prop where
  cores : s'.cores = s.cores
  page : ∀ P, 0x400 ≤ P → ∃ e, s'.page P = { s.page P with errSummary := e }

namespace KeepsTiles

theorem of_same {s s' : State} (hc : s'.cores = s.cores) (hp : s'.pages = s.pages) : KeepsTiles s s' where
  cores := hc
  page P _ := ⟨_, by rw [State.page, hp]; rfl⟩

theorem refl (s : State) : KeepsTiles s s := .of_same rfl rfl

theorem trans {s s' s'' : State} (h : KeepsTiles s s') (h' : KeepsTiles s' s'') : KeepsTiles s s'' where
  cores := h'.cores.trans h.cores
  page P hP := by
    obtain ⟨e, he⟩ := h.page P hP
    obtain ⟨e', he'⟩ := h'.page P hP
    exact ⟨e', by rw [he', he]⟩

/-- A change that itself touches neither cores nor pages. -/
theorem aside {s t u : State} (h : KeepsTiles s t) (hc : u.cores = t.cores) (hp : u.pages = t.pages) : KeepsTiles s u :=
  h.trans (.of_same hc hp)

theorem foldl {α : Type} {f : State → α → State} (h : ∀ s a, KeepsTiles s (f s a)) (l : List α) (s : State) :
    KeepsTiles s (l.foldl f s) := by
  induction l generalizing s with
  | nil => exact .refl s
  | cons a l ih => exact (h s a).trans (ih _)

/-- A page below the tiles' changes. -/
theorem modPage (s : State) {P : Nat} (hP : P < 0x400) (f : Page → Page) : KeepsTiles s (s.modPage P f) where
  cores := rfl
  page _ hQ := ⟨_, State.page_modPage_ne _ _ (Nat.ne_of_gt (Nat.lt_of_lt_of_le hP hQ))⟩

theorem modErrSummary (s : State) (P : Nat) (f : Page → Word) :
    KeepsTiles s (s.modPage P fun p => { p with errSummary := f p }) where
  cores := rfl
  page Q _ := by
    by_cases e : Q = P
    · subst e
      exact ⟨_, State.page_modPage_same ..⟩
    · exact ⟨_, State.page_modPage_ne _ _ e⟩

theorem sendVec (s : State) (f : Func) (v : Nat) : KeepsTiles s (s.sendVec f v) := by
  unfold State.sendVec
  split
  · exact .refl s
  · split
    · exact .of_same rfl rfl
    · exact (modPage s (P := pageNo .pcie) (by decide) (Page.bump · .pcie 3 1)).aside rfl rfl

theorem evalVec (s : State) (f : Func) (v : Nat) (again : Bool) : KeepsTiles s (s.evalVec f v again) := by
  unfold State.evalVec
  dsimp only
  split
  · refine .trans ?_ (.sendVec _ f v)
    exact .of_same rfl rfl
  · exact .of_same rfl rfl

section
variable (s : State) {c : PageClass} (hc : pageNo c < 0x400)
include hc

theorem raise (bits : Word) : KeepsTiles s (s.raise c bits) := (modPage s hc _).trans (.evalVec _ 0 _ false)

theorem count (i n : Nat) : KeepsTiles s (s.count c i n) := by
  have hbump : KeepsTiles s (s.modPage (pageNo c) (Page.bump · c i n)) := .modPage s hc _
  unfold State.count
  dsimp only
  split
  · split
    · exact hbump.trans (.raise _ hc 1)
    · exact hbump
  · exact hbump

end

theorem memc_below (s : State) (dpa : Nat) : pageNo (s.memcOf dpa) < 0x400 := by
  have hpart := (s.stackOf dpa).1.isLt
  have hchannel := (s.channelOf dpa).isLt
  show 0x40 + (16 * (s.stackOf dpa).1.val + (s.channelOf dpa).val) < 0x400
  omega

theorem dat_below (p : Part) : pageNo (.dat p.val) < 0x400 := by
  show 0x10 + p.val < 0x400
  omega

theorem settlePage (s : State) (P : Nat) : KeepsTiles s (s.settlePage P) := by
  unfold State.settlePage
  dsimp only
  split
  · exact .refl s
  · exact .modErrSummary ..

theorem record (s : State) (x : Report) : KeepsTiles s (s.record x).1 := by
  refine (modErrSummary s (pageNo x.page) fun p => p.errSummary ||| summaryBit x.cls).trans ?_
  unfold State.record
  dsimp only
  generalize s.modPage (pageNo x.page) _ = t
  split
  · split <;> exact .of_same rfl rfl
  · split
    · exact .count _ (c := .part 0) (by decide) 7 1
    case h_2 i _ =>
      have hplaced (u : State) (h : KeepsTiles t u) : KeepsTiles t (match t.place i with
          | some e => u.settlePage e.page.toNat
          | none => u) := by
        split
        · exact h.trans (.settlePage ..)
        · exact h
      split
      · refine .trans ?_ (raise _ (c := .part 0) (by decide) 0x10)
        exact hplaced _ (.of_same rfl rfl)
      · exact hplaced _ (.of_same rfl rfl)

theorem hbmCorrect (s : State) (dpa : Nat) : KeepsTiles s (s.hbmCorrect dpa) := by
  unfold State.hbmCorrect
  split
  · exact .refl s
  · refine .trans ?_ (.count _ (memc_below ..) 2 1)
    exact .of_same rfl rfl

theorem hbmBad (s : State) (dpa : Nat) : KeepsTiles s (s.hbmBad dpa) := by
  refine .trans (.trans ?_ (.count _ (memc_below ..) 3 1)) (.raise _ (memc_below ..) 1)
  exact .of_same rfl rfl

theorem debit (s : State) (f : Func) (dpa cost : Nat) : KeepsTiles s (s.debit f dpa cost) := by
  unfold State.debit State.fillBuckets
  dsimp only
  split <;> exact .of_same rfl rfl

theorem lineRead (s : State) (f : Func) (dpa : Nat) : KeepsTiles s (s.lineRead f dpa) := by
  unfold State.lineRead
  dsimp only
  have hline : KeepsTiles s
      (if s.lineOk dpa then ((s.debit f dpa 64).count (s.memcOf dpa) 0 64).hbmCorrect dpa else s) := by
    split
    · exact ((debit s f dpa 64).trans (.count _ (memc_below s dpa) 0 64)).trans (.hbmCorrect _ dpa)
    · exact .refl s
  split
  · exact hline.trans (.hbmBad _ dpa)
  · exact hline

theorem lineWritten (s : State) (f : Func) (dpa n : Nat) : KeepsTiles s (s.lineWritten f dpa n) := by
  unfold State.lineWritten
  dsimp only
  split
  · have hmerge := (((debit s f dpa 128).trans (.count _ (memc_below s dpa) 1 128)).trans
      (.count _ (memc_below s dpa) 5 1)).trans (.hbmCorrect _ dpa)
    split
    · exact hmerge.trans (.hbmBad _ dpa)
    · exact hmerge
  · exact (debit s f dpa 64).trans (.count _ (memc_below s dpa) 1 64)

theorem xlateFault {s t : State} (h : KeepsTiles s t) (unit : Part) (f : Func) (dva : DWord) (src : XlateSrc)
    (write : Bool) (cause : Nat) : KeepsTiles s (t.xlateFault unit f dva src write cause) := by
  refine .trans (.trans ?_ (.count _ (dat_below unit) 2 1)) (.raise _ (dat_below unit) 1)
  exact h.aside rfl rfl

theorem modUnit {s t : State} (h : KeepsTiles s t) (p : Part) (f : DatUnit → DatUnit) : KeepsTiles s (t.modUnit p f) :=
  h.aside rfl rfl

theorem xlateBare (s : State) (unit : Part) (f : Func) (dva : DWord) (src : XlateSrc) (write : Bool) (extra : Nat) :
    KeepsTiles s (s.xlateBare unit f dva src write extra).2 := by
  have hwalk : KeepsTiles s ((s.xlateReads unit f dva extra).foldl (fun s a => s.lineRead f a) s) :=
    .foldl (fun s a => .lineRead s f a) _ s
  have hread {t : State} (i : Nat) (h : KeepsTiles s t) : KeepsTiles s (t.count (.dat unit.val) i 1) :=
    h.trans (.count t (dat_below unit) i 1)
  have hsame := KeepsTiles.refl s
  unfold State.xlateBare
  dsimp only
  split
  · exact hsame.xlateFault ..
  split
  · exact hsame.xlateFault ..
  split
  · exact hsame.xlateFault ..
  split
  · have hhit := hread 0 hsame
    split
    · dsimp only
      exact hhit
    · dsimp only
      exact hhit.xlateFault ..
  · have hmiss := hread 1 (hread 0 hwalk)
    split
    case h_1 => exact hwalk
    case h_2 =>
      dsimp only
      exact hmiss.xlateFault ..
    case h_3 hit _ =>
      have henter := hmiss.modUnit unit (DatUnit.enter · f dva.toNat hit)
      split
      · dsimp only
        exact henter
      · dsimp only
        exact henter.xlateFault ..

theorem xlateSharedBare (s : State) (f : Func) (dva : DWord) (src : XlateSrc) (write : Bool) (extra : Nat) :
    KeepsTiles s (s.xlateSharedBare f dva src write extra).2 := by
  unfold State.xlateSharedBare
  split
  · exact .xlateBare ..
  · split
    · exact .refl s
    · exact (KeepsTiles.refl s).xlateFault ..

theorem hbmStoreBare (s : State) (f : Func) (dpa : Nat) (bs : List Byte) : KeepsTiles s (s.hbmStoreBare f dpa bs) := by
  refine .trans (s' := s.hbmWrite dpa bs) (.of_same rfl rfl) (.foldl (fun t p => ?_) _ _)
  split
  · exact .lineWritten ..
  · exact .count t (memc_below t p.1) 3 1

theorem traceWrite {s t : State} {bytes : List Byte} (h : s.traceWrite bytes = some t) : KeepsTiles s t := by
  have hx := xlateSharedBare s 0 (s.traceAt s.journal.traceWptr) .dispatcher true 0
  unfold State.traceWrite at h
  dsimp only at h
  split at h
  case h_1 heq =>
    rw [heq] at hx
    split at h
    · cases h
    · obtain rfl := Option.some.inj h
      exact (hx.trans (.hbmStoreBare _ 0 _ bytes)).aside rfl rfl
  case h_2 heq =>
    rw [heq] at hx
    obtain rfl := Option.some.inj h
    exact (hx.trans (.count _ (c := .part 0) (by decide) 8 1)).trans (.record ..)
  case h_3 => cases h

theorem flushTrace (s : State) (l : List (List Byte)) : KeepsTiles s (s.flushTrace l) := by
  induction l generalizing s with
  | nil => exact .of_same rfl rfl
  | cons b rest ih =>
    unfold State.flushTrace
    split
    case h_1 heq => exact (traceWrite heq).trans (ih _)
    case h_2 => exact .of_same rfl rfl

theorem trace (s : State) (event : BitVec 16) (func : Func) (island : BitVec 9) (arg0 arg1 : DWord) :
    KeepsTiles s (s.trace event func island arg0 arg1) := by
  unfold State.trace
  dsimp only
  split
  · exact .refl s
  split
  · exact .count _ (c := .part 0) (by decide) 8 1
  · exact .flushTrace ..

theorem log (s : State) (x : Report) : KeepsTiles s (s.log x) := by
  have hrecord := record s x
  unfold State.log
  split
  case h_1 heq =>
    rw [heq] at hrecord
    exact hrecord.trans (.trace ..)
  case h_2 heq => rwa [heq] at hrecord

end KeepsTiles

/-! ### The page and the core of a tile -/

theorem spad_above (t : Tile) : 0x400 ≤ pageNo (.spad t.val) := by
  show 0x400 ≤ 0x403 + 16 * t.val
  omega

theorem KeepsTiles.core {s s' : State} (h : KeepsTiles s s') (u : Tile) : s'.core u = s.core u :=
  State.core_congr h.cores u

theorem State.modCore_modCore (s : State) (t : Tile) (f g : Core → Core) :
    (s.modCore t f).modCore t g = s.modCore t fun k => g (f k) := by
  have hget : (s.cores.set t.val (f (s.cores.get t)) t.isLt).get t = f (s.cores.get t) := vector_get_set_same ..
  simp only [State.modCore, hget, Vector.set_set]

/-- A counter that does not wrap into an interrupt changes its page alone. -/
theorem State.count_eq (s : State) {c : PageClass} {i : Nat} (n : Nat) (h : counterKind c i ≠ .perf48) :
    s.count c i n = s.modPage (pageNo c) (Page.bump · c i n) := by
  unfold State.count
  dsimp only
  split
  · contradiction
  · rfl

/-- What a change of a page keeps there, it keeps on every page. -/
theorem State.modPage_keeps {β : Type} (g : Page → β) (s : State) (P Q : Nat) {f : Page → Page}
    (h : ∀ p, g (f p) = g p) : g ((s.modPage P f).page Q) = g (s.page Q) := by
  by_cases hQ : Q = P
  · rw [hQ, State.page_modPage_same, h]
  · rw [State.page_modPage_ne _ _ hQ]

/-- The bits of an event are set on its page. -/
theorem State.raise_sets (s : State) (c : PageClass) {bits : Word} {i : Nat} (h : bit (bits &&& irqMask c) i = true) :
    bit ((s.raise c bits).page (pageNo c)).irqStatus i = true := by
  refine (Records.evalVec (s.modPage (pageNo c) fun p => { p with irqStatus := p.irqStatus ||| (bits &&& irqMask c) })
    0 (pageVector c) false).irq _ _ ?_
  rw [State.page_modPage_same, bit, BitVec.getLsbD_or, Bool.or_eq_true]
  exact .inr h

/-! ### Writes that wait for a bank (R319, R321) -/

/-- The core with other contents of its banks, and other writes that wait for them. -/
def Core.withBanks (k : Core) (mem : Tab Byte) (marks : Tab Bool) (late : List (Nat × List Byte)) : Core :=
  { k with mem := mem, marks := marks, lateWrites := late }

theorem State.bankPut_eq (s : State) (t : Tile) (a : Nat) (bs : List Byte) :
    ∃ mem marks late, s.bankPut t a bs = s.modCore t (·.withBanks mem marks late) := by
  unfold State.bankPut
  split
  · exact ⟨_, _, _, State.modCore_congr rfl⟩
  · exact ⟨_, _, _, State.modCore_congr rfl⟩

theorem State.bankPuts_eq (t : Tile) (l : List (Nat × List Byte)) (s : State) :
    ∃ mem marks late, l.foldl (fun s w => s.bankPut t w.1 w.2) s = s.modCore t (·.withBanks mem marks late) := by
  induction l generalizing s with
  | nil => exact ⟨_, _, _, (State.modCore_self s t rfl).symm⟩
  | cons w l ih =>
    obtain ⟨mem, marks, late, hput⟩ := s.bankPut_eq t w.1 w.2
    obtain ⟨mem', marks', late', hputs⟩ := ih (s.bankPut t w.1 w.2)
    refine ⟨mem', marks', late', ?_⟩
    rw [List.foldl_cons, hputs, hput, State.modCore_modCore]
    rfl

/-- Banks that take accesses again change in what they hold and in what waits for them. -/
theorem State.bankResumed_eq (s : State) (t : Tile) :
    ∃ mem marks late, s.bankResumed t = s.modCore t (·.withBanks mem marks late) := by
  obtain ⟨mem, marks, late, hputs⟩ := State.bankPuts_eq t (s.core t).lateWrites
    (s.modCore t fun k => { k with lateWrites := [] })
  exact ⟨mem, marks, late, hputs.trans (State.modCore_modCore ..)⟩

/-- With no write waiting, nothing changes. -/
theorem State.bankResumed_self {s : State} {t : Tile} (h : (s.core t).lateWrites = []) : s.bankResumed t = s := by
  rw [State.bankResumed, h]
  refine State.modCore_self s t ?_
  rw [← h]

/-- What banks that take accesses again leave: every other core, and all of their own but the banks' contents, which stay
too where no write waited. -/
theorem State.bankResumed_core (s : State) (t : Tile) : ∃ mem marks late,
    (s.bankResumed t).core t = (s.core t).withBanks mem marks late ∧
    ((s.core t).lateWrites = [] → mem = (s.core t).mem ∧ marks = (s.core t).marks) ∧
    Claims.otherCores s (s.bankResumed t) t := by
  obtain ⟨mem, marks, late, h⟩ := s.bankResumed_eq t
  have hcore : (s.bankResumed t).core t = (s.core t).withBanks mem marks late := by rw [h, State.core_modCore_same]
  refine ⟨mem, marks, late, hcore, fun hnone => ?_, fun u hu => by rw [h, State.core_modCore_ne _ _ hu]⟩
  rw [State.bankResumed_self hnone] at hcore
  exact ⟨(congrArg Core.mem hcore).symm, (congrArg Core.marks hcore).symm⟩

/-- The one write that waits is performed, where its bank takes accesses. -/
theorem State.bankResumed_one {s : State} {t : Tile} {a : Nat} {bs : List Byte}
    (hlate : (s.core t).lateWrites = [(a, bs)]) (hclear : (s.core t).clearing = false)
    (hbusy : (s.core t).rmapBusy = false) :
    (s.bankResumed t).core t = ({ s.core t with lateWrites := [] } : Core).bankWrite a bs := by
  have hfree : (s.modCore t fun k => { k with lateWrites := [] }).spanHeld t a bs.length = false := by
    simp [State.spanHeld, hclear, hbusy]
  rw [State.bankResumed, hlate, List.foldl_cons, List.foldl_nil, State.bankPut]
  simp only [hfree, Bool.false_eq_true, if_false, State.core_modCore_same]

/-! ### Nomination (R318) -/

/-- The page with another SPAD_RMAP_CMD. -/
def Page.withRmap (p : Page) (v : Word) : Page :=
  { p with staged := Tab.set 0 p.staged 0x050 v, live := Tab.set 0 p.live 0x050 v }

/-- A remap that is due starts, where none runs: its row is in SPAD_RMAP_CMD. -/
theorem State.remapDue_cases (s : State) (t : Tile) :
    (s.remapDue t false = s ∧ (s.core t).rmapBusy = ((s.core t).rmapBusy || (s.core t).nominees.any (·.forced))) ∨
    ((s.core t).nominees.any (·.forced) = true ∧
      ∃ v : Word, s.remapDue t false =
        (s.modPage (pageNo (.spad t.val)) (·.withRmap v)).modCore t fun k => { k with rmapBusy := true }) := by
  unfold State.remapDue
  dsimp only [Bool.false_eq_true, if_false]
  rw [if_neg Bool.false_ne_true]
  cases hfind : (s.core t).nominees.find? fun x => x.forced with
  | none =>
    have hnone : (s.core t).nominees.any (·.forced) = false := List.any_eq_false.mpr (List.find?_eq_none.mp hfind)
    exact .inl ⟨rfl, by rw [hnone, Bool.or_false]⟩
  | some x =>
    have hany : (s.core t).nominees.any (·.forced) = true :=
      List.any_eq_true.mpr ⟨x, List.mem_of_find?_eq_some hfind, List.find?_some hfind⟩
    dsimp only
    split
    case isTrue hbusy => exact .inl ⟨rfl, by rw [hbusy]; rfl⟩
    case isFalse => exact .inr ⟨hany, _, rfl⟩

/-- The core after it: a remap runs if one ran or a forced nominee stands. -/
theorem State.remapDue_core (s : State) (t : Tile) : (s.remapDue t false).core t =
    { s.core t with rmapBusy := (s.core t).rmapBusy || (s.core t).nominees.any (·.forced) } := by
  obtain ⟨h, hbusy⟩ | ⟨hany, v, h⟩ := s.remapDue_cases t
  · rw [h, ← hbusy]
  · rw [h, State.core_modCore_same, hany, Bool.or_true]
    rfl

theorem State.remapDue_remap (s : State) (t : Tile) : ((s.remapDue t false).core t).remap = (s.core t).remap := by
  rw [State.remapDue_core]

theorem State.remapDue_core_ne (s : State) {t u : Tile} (hu : u ≠ t) : (s.remapDue t false).core u = s.core u := by
  obtain ⟨h, -⟩ | ⟨-, v, h⟩ := s.remapDue_cases t
  · rw [h]
  · rw [h, State.core_modCore_ne _ _ hu]
    rfl

/-- Of the pages, it writes configuration words alone. -/
theorem State.remapDue_page (s : State) (t : Tile) (P : Nat) :
    ((s.remapDue t false).page P).irqStatus = (s.page P).irqStatus ∧
      ((s.remapDue t false).page P).counters = (s.page P).counters := by
  obtain ⟨h, -⟩ | ⟨-, v, h⟩ := s.remapDue_cases t
  · rw [h]
    exact ⟨rfl, rfl⟩
  · rw [h]
    exact ⟨State.modPage_keeps Page.irqStatus s _ P (f := (·.withRmap v)) fun _ => rfl,
      State.modPage_keeps Page.counters s _ P (f := (·.withRmap v)) fun _ => rfl⟩

/-- The nominees after a nomination: the row, whose remap stays due once it is, among the others. -/
theorem Core.nominate_eq (k : Core) (x : Nominee) : k.nominate x = { k with nominees := (k.nominate x).nominees } := by
  unfold Core.nominate
  dsimp only
  split <;> rfl

/-- Whom a nomination adds depends on the nominees alone. -/
theorem Core.nominate_congr {k q : Core} (h : k.nominees = q.nominees) (x : Nominee) :
    (k.nominate x).nominees = (q.nominate x).nominees := by
  unfold Core.nominate
  dsimp only
  rw [h]
  split <;> rfl

theorem Core.nominate_forced (k : Core) {x : Nominee} (hx : x.forced = true) :
    (k.nominate x).nominees.any (·.forced) = true := by
  unfold Core.nominate
  dsimp only
  split
  case isTrue hsame =>
    obtain ⟨y, hy, hyx⟩ := List.any_eq_true.mp hsame
    refine List.any_eq_true.mpr ⟨_, List.mem_map_of_mem hy, ?_⟩
    rw [if_pos hyx, hx, Bool.or_true]
  case isFalse => exact List.any_eq_true.mpr ⟨x, List.mem_append_right _ (List.mem_singleton_self x), hx⟩

section
variable (s : State) (t : Tile) (x : Nominee)

theorem State.nominate_core : (s.nominate t x).core t = { s.core t with
    nominees := ((s.core t).nominate x).nominees
    rmapBusy := (s.core t).rmapBusy || ((s.core t).nominate x).nominees.any (·.forced) } := by
  rw [State.nominate, State.remapDue_core, State.core_congr (State.raise_cores ..), State.core_modCore_same,
    Core.nominate_eq]

theorem State.nominate_core_ne {u : Tile} (hu : u ≠ t) : (s.nominate t x).core u = s.core u := by
  rw [State.nominate, State.remapDue_core_ne _ hu, State.core_congr (State.raise_cores ..),
    State.core_modCore_ne _ _ hu]

/-- REMAP_NEEDED is set. -/
theorem State.nominate_irq : bit ((s.nominate t x).page (pageNo (.spad t.val))).irqStatus 2 = true := by
  rw [State.nominate, (State.remapDue_page ..).1]
  exact State.raise_sets _ _ (show bit ((4 : Word) &&& 0x8000001F) 2 = true by decide)

theorem State.nominate_counters : ((s.nominate t x).page (pageNo (.spad t.val))).counters =
    (s.page (pageNo (.spad t.val))).counters := by
  rw [State.nominate, (State.remapDue_page ..).2, State.raise]
  obtain ⟨e, he⟩ := (KeepsTiles.evalVec ((s.modCore t fun k => k.nominate x).modPage (pageNo (.spad t.val)) fun p =>
    { p with irqStatus := p.irqStatus ||| (4 &&& irqMask (.spad t.val)) }) 0 (pageVector (.spad t.val)) false).page _
      (spad_above t)
  rw [he, State.page_modPage_same]
  rfl

end

/-! ### Correctable errors (R316, R318) -/

/-- The core with an error of an address watched. -/
def Core.watched (k : Core) (a : Nat) : Core :=
  { k with watch := watchCount k.watch (BitVec.ofNat 6 (bankOf a)) (BitVec.ofNat 8 (rowOf a)) }

/-- How often the row of an address has been watched. -/
def Core.errorsOf (k : Core) (a : Nat) : Nat := watchOf k.watch (bankOf a) (rowOf a)

/-- NOMINATE (bit 0) and FORCE (bit 8) of SPAD_REMAP_THR. -/
def State.watchLimit (s : State) (t : Tile) (bit : Nat) : Nat := (fld (s.live (.spad t.val) 0x044) bit 8).toNat

/-- A correctable error counted, logged and watched. -/
def State.corrected (s : State) (tile : Tile) (a : Nat) : State :=
  ((s.modCore tile (·.watched a)).count (.spad tile.val) (corrCounter a) 1).log (spadReport tile 1 0 a)

theorem eccWriteBack_none {tile : Tile} {addr : BitVec 24} (s : State) (h : localOk addr.toNat = false) :
    exec (.eccWriteBack tile addr) s = .next s := by
  show execEccWriteBack tile addr s = _
  simp only [execEccWriteBack, h, Bool.not_false, if_true]

/-- Where the count of its row has reached NOMINATE, the row is nominated. -/
theorem eccWriteBack_corrects {addr : BitVec 24} (s : State) (tile : Tile) (h : localOk addr.toNat = true) :
    let t := s.corrected tile addr.toNat
    let n := (t.core tile).errorsOf addr.toNat
    exec (.eccWriteBack tile addr) s = .next
      (if t.watchLimit tile 0 ≤ n then t.nominate tile (nomineeAt addr.toNat (decide (t.watchLimit tile 8 ≤ n)))
      else t) := by
  show execEccWriteBack tile addr s = _
  simp only [execEccWriteBack, h, Bool.not_true, Bool.false_eq_true, if_false]
  rfl

theorem counterKind_corr (t a : Nat) : counterKind (.spad t) (corrCounter a) = .sat32 := by
  unfold corrCounter
  split <;> rfl

theorem bump_sat32 (v : DWord) : (bump .sat32 v 1).1 = if v.toNat + 1 < 2 ^ 32 then v + 1 else 0xFFFFFFFF := by
  unfold bump
  by_cases h : v.toNat + 1 < 2 ^ 32
  · simp only [if_pos h, if_neg (Nat.not_le.mpr h), BitVec.ofNat_add, BitVec.ofNat_toNat, BitVec.setWidth_eq]
    rfl
  · simp only [if_neg h, if_pos (Nat.not_lt.mp h)]

section
variable (s : State) (tile : Tile) (a : Nat)

theorem State.corrected_core : (s.corrected tile a).core tile = (s.core tile).watched a := by
  rw [State.corrected, (KeepsTiles.log ..).core, State.core_congr (State.count_cores ..), State.core_modCore_same]

theorem State.corrected_core_ne {u : Tile} (hu : u ≠ tile) : (s.corrected tile a).core u = s.core u := by
  rw [State.corrected, (KeepsTiles.log ..).core, State.core_congr (State.count_cores ..), State.core_modCore_ne _ _ hu]

/-- Of its page, the error moves a counter on, and what the log says of the page. -/
theorem State.corrected_page : ∃ e, (s.corrected tile a).page (pageNo (.spad tile.val)) =
    { (s.page (pageNo (.spad tile.val))).bump (.spad tile.val) (corrCounter a) 1 with errSummary := e } := by
  obtain ⟨e, he⟩ := (KeepsTiles.log ((s.modCore tile (·.watched a)).count (.spad tile.val) (corrCounter a) 1)
    (spadReport tile 1 0 a)).page _ (spad_above tile)
  refine ⟨e, he.trans ?_⟩
  rw [State.count_eq _ _ (by rw [counterKind_corr]; nofun), State.page_modPage_same]
  rfl

theorem State.corrected_watchLimit (bit : Nat) : (s.corrected tile a).watchLimit tile bit = s.watchLimit tile bit := by
  obtain ⟨e, he⟩ := s.corrected_page tile a
  rw [State.watchLimit, State.live, he]
  rfl

theorem State.corrected_counter :
    let old := Tab.get 0 (s.page (pageNo (.spad tile.val))).counters (corrCounter a)
    Tab.get 0 ((s.corrected tile a).page (pageNo (.spad tile.val))).counters (corrCounter a) =
      if old.toNat + 1 < 2 ^ 32 then old + 1 else 0xFFFFFFFF := by
  intro old
  obtain ⟨e, he⟩ := s.corrected_page tile a
  rw [he, ← bump_sat32, ← counterKind_corr tile.val a]
  exact Tab.get_set_same ..

end

/-! ### Field remaps (R319, R320, R323) -/

/-- The row that SPAD_RMAP_CMD names. -/
def State.rmapRow (s : State) (t : Tile) : Byte := fld (s.staged (.spad t.val) 0x050) 6 8

/-- The nominees but for a row. -/
def Core.otherNominees (k : Core) (bank : Nat) (row : Byte) : List Nominee :=
  k.nominees.filter fun x => !(x.bank.toNat == bank && x.row == row)

/-- A remap ends with its RESULT: its bank takes accesses again, and REMAP_DONE is set. -/
def State.endRemap (s : State) (t : Tile) (result : BitVec 2) : State :=
  ((s.modCore t fun k =>
    { k with rmapBusy := false, rmapResult := result, nominees := k.otherNominees (s.rmapBank t) (s.rmapRow t) }
  ).bankResumed t).raise (.spad t.val) 8

/-- The row mapped to spare row `e` of its bank, and no longer watched. -/
def Core.mapRow (k : Core) (bank : Nat) (row : Byte) (e : Nat) : Core :=
  { k with
    remap := Tab.set none k.remap (8 * bank + e) (some ⟨row, false⟩)
    watch := k.watch.filter fun r => !(r.bank.toNat == bank && r.row == row) }

theorem Core.rowMapped_iff (k : Core) (bank : Nat) (row : Byte) : k.rowMapped bank row.toNat = true ↔
    ∃ e, e < 8 ∧ ∃ r, Tab.get none k.remap (8 * bank + e) = some r ∧ r.row = row := by
  simp only [Core.rowMapped, List.any_eq_true, List.mem_range]
  refine exists_congr fun e => and_congr_right fun _ => ?_
  cases hget : Tab.get none k.remap (8 * bank + e) with
  | none => simp
  | some r => simp [BitVec.toNat_inj]

theorem Core.spareRow_none {k : Core} {bank : Nat} (h : ∀ e, e < 8 → Tab.get none k.remap (8 * bank + e) ≠ none) :
    k.spareRow bank = none := by
  refine List.find?_range_eq_none.mpr fun e he => ?_
  rw [Bool.not_eq_true', ← Bool.not_eq_true, Option.isNone_iff_eq_none]
  exact h e he

theorem Core.spareRow_first {k : Core} {bank e : Nat} (he : e < 8)
    (hfree : Tab.get none k.remap (8 * bank + e) = none)
    (hfirst : ∀ j, j < e → Tab.get none k.remap (8 * bank + j) ≠ none) : k.spareRow bank = some e := by
  refine List.find?_range_eq_some.mpr ⟨by rw [hfree]; rfl, List.mem_range.mpr he, fun j hj => ?_⟩
  rw [Bool.not_eq_true', ← Bool.not_eq_true, Option.isNone_iff_eq_none]
  exact hfirst j hj

/-- Rows by number. -/
theorem row_beq (a b : Byte) : (a.toNat == b.toNat) = (a == b) := by
  rw [Bool.eq_iff_iff, beq_iff_eq, beq_iff_eq, BitVec.toNat_inj]

section
variable {s : State} {tile : Tile}

theorem remapDone_idle (h : (s.core tile).rmapBusy = false) : exec (.remapDone tile) s = .next s := by
  show execRemapDone tile s = _
  simp only [execRemapDone, h, Bool.not_false, if_true]

variable (hbusy : (s.core tile).rmapBusy = true)
include hbusy

/-- The bank has no such row. -/
theorem remapDone_noRow (hrow : bankRows (s.rmapBank tile) ≤ (s.rmapRow tile).toNat) :
    exec (.remapDone tile) s = .next ((s.endRemap tile 3).remapDue tile false) := by
  rw [State.rmapBank, State.rmapRow] at hrow
  show execRemapDone tile s = _
  simp only [execRemapDone, hbusy, hrow, row_beq, Bool.not_true, Bool.false_eq_true, if_false, if_true]
  rfl

variable (hrow : (s.rmapRow tile).toNat < bankRows (s.rmapBank tile))
include hrow

/-- The row is mapped already. -/
theorem remapDone_mapped (hmapped : (s.core tile).rowMapped (s.rmapBank tile) (s.rmapRow tile).toNat = true) :
    exec (.remapDone tile) s = .next ((s.endRemap tile 2).remapDue tile false) := by
  rw [State.rmapBank, State.rmapRow] at hrow hmapped
  show execRemapDone tile s = _
  simp only [execRemapDone, hbusy, Nat.not_le.mpr hrow, hmapped, row_beq, Bool.not_true, Bool.false_eq_true, if_false,
    if_true]
  rfl

variable (hmapped : (s.core tile).rowMapped (s.rmapBank tile) (s.rmapRow tile).toNat = false)
include hmapped

/-- The bank's spare rows are used up. -/
theorem remapDone_exhausted (hspare : (s.core tile).spareRow (s.rmapBank tile) = none) :
    exec (.remapDone tile) s =
      .next (((s.endRemap tile 1).failIsland (bankIsland tile (s.rmapBank tile))).remapDue tile false) := by
  rw [State.rmapBank] at hspare
  rw [State.rmapBank, State.rmapRow] at hrow hmapped
  show execRemapDone tile s = _
  simp only [execRemapDone, hbusy, Nat.not_le.mpr hrow, hmapped, hspare, row_beq, Bool.not_true, Bool.false_eq_true,
    if_false]
  rfl

/-- A spare row takes its place. -/
theorem remapDone_maps {e : Nat} (hspare : (s.core tile).spareRow (s.rmapBank tile) = some e) :
    exec (.remapDone tile) s = .next
      (((((s.modCore tile (·.mapRow (s.rmapBank tile) (s.rmapRow tile) e)).endRemap tile 0).count
        (.spad tile.val) 9 1).log (remapReport tile (s.rmapBank tile) (s.rmapRow tile).toNat)).remapDue tile false) := by
  rw [State.rmapBank] at hspare
  rw [State.rmapBank, State.rmapRow] at hrow hmapped
  show execRemapDone tile s = _
  simp only [execRemapDone, hbusy, Nat.not_le.mpr hrow, hmapped, hspare, row_beq, BitVec.ofNat_toNat, BitVec.setWidth_eq,
    Bool.not_true, Bool.false_eq_true, if_false]
  rfl

end

/-- What every end of a remap comes to: its RESULT, the other nominees, REMAP_DONE, and the banks' contents as they were
where no write waited; `more` says whether the next remap has started. -/
def RemapEnds (s : State) (tile : Tile) (result : BitVec 2) (more : Bool) (s' : State) : Prop :=
  (s'.core tile).rmapBusy = more ∧
    (s'.core tile).nominees = (s.core tile).otherNominees (s.rmapBank tile) (s.rmapRow tile) ∧
    (s'.core tile).rmapResult = result ∧ bit (s'.page (pageNo (.spad tile.val))).irqStatus 3 = true ∧
    ((s.core tile).lateWrites = [] →
      (s'.core tile).mem = (s.core tile).mem ∧ (s'.core tile).marks = (s.core tile).marks) ∧
    Claims.otherCores s s' tile

/-- The end of a remap touches its own core, and there no remap table. -/
theorem State.endRemap_core (s : State) (tile : Tile) (result : BitVec 2) : ∃ mem marks late,
    (s.endRemap tile result).core tile = Core.withBanks { s.core tile with
      rmapBusy := false, rmapResult := result
      nominees := (s.core tile).otherNominees (s.rmapBank tile) (s.rmapRow tile) } mem marks late ∧
    ((s.core tile).lateWrites = [] → mem = (s.core tile).mem ∧ marks = (s.core tile).marks) ∧
    Claims.otherCores s (s.endRemap tile result) tile := by
  obtain ⟨mem, marks, late, hcore, hsame, hother⟩ := State.bankResumed_core
    (s.modCore tile fun k => { k with
      rmapBusy := false, rmapResult := result, nominees := k.otherNominees (s.rmapBank tile) (s.rmapRow tile) }) tile
  rw [State.core_modCore_same] at hcore hsame
  refine ⟨mem, marks, late, (State.core_congr (State.raise_cores ..) tile).trans hcore, hsame, fun u hu => ?_⟩
  exact (State.core_congr (State.raise_cores ..) u).trans ((hother u hu).trans (State.core_modCore_ne _ _ hu))

theorem State.endRemap_remap (s : State) (tile : Tile) (result : BitVec 2) :
    ((s.endRemap tile result).core tile).remap = (s.core tile).remap := by
  obtain ⟨mem, marks, late, hcore, -⟩ := s.endRemap_core tile result
  rw [hcore]
  rfl

theorem endRemap_ends (s : State) (tile : Tile) (result : BitVec 2) :
    RemapEnds s tile result false (s.endRemap tile result) := by
  obtain ⟨mem, marks, late, hcore, hsame, hother⟩ := s.endRemap_core tile result
  have hirq : bit ((s.endRemap tile result).page (pageNo (.spad tile.val))).irqStatus 3 = true :=
    State.raise_sets _ _ (show bit ((8 : Word) &&& 0x8000001F) 3 = true by decide)
  rw [RemapEnds, hcore]
  exact ⟨rfl, rfl, rfl, hirq, hsame, hother⟩

namespace RemapEnds

variable {s t u : State} {tile : Tile} {result : BitVec 2} {more : Bool}

/-- The next forced remap follows. -/
theorem remapDue (h : RemapEnds s tile result false t) : RemapEnds s tile result
    (((s.core tile).otherNominees (s.rmapBank tile) (s.rmapRow tile)).any (·.forced)) (t.remapDue tile false) := by
  obtain ⟨hbusy, hleft, hresult, hirq, hbanks, hother⟩ := h
  rw [RemapEnds, State.remapDue_core, (State.remapDue_page ..).1]
  refine ⟨?_, hleft, hresult, hirq, hbanks, fun u hu => (State.remapDue_core_ne _ hu).trans (hother u hu)⟩
  rw [hbusy, hleft]
  rfl

/-- What is recorded of it takes nothing back. -/
theorem recorded (h : RemapEnds s tile result more t) (hcores : u.cores = t.cores) (hrecords : Records t u) :
    RemapEnds s tile result more u := by
  obtain ⟨hbusy, hleft, hresult, hirq, hbanks, hother⟩ := h
  rw [RemapEnds, State.core_congr hcores]
  exact ⟨hbusy, hleft, hresult, hrecords.irq _ _ hirq, hbanks,
    fun v hv => (State.core_congr hcores v).trans (hother v hv)⟩

/-- It ends alike where its row has been mapped before. -/
theorem of_mapRow {e : Nat}
    (h : RemapEnds (s.modCore tile (·.mapRow (s.rmapBank tile) (s.rmapRow tile) e)) tile result more t) :
    RemapEnds s tile result more t := by
  obtain ⟨hbusy, hleft, hresult, hirq, hbanks, hother⟩ := h
  rw [State.core_modCore_same] at hleft hbanks
  exact ⟨hbusy, hleft, hresult, hirq, hbanks, fun u hu => (hother u hu).trans (State.core_modCore_ne _ _ hu)⟩

end RemapEnds

/-- What follows a mapped row: it is counted and logged, and the next remap may start. -/
theorem RemapEnds.mapped {s : State} {tile : Tile} (e : Nat) :
    let more := ((s.core tile).otherNominees (s.rmapBank tile) (s.rmapRow tile)).any (·.forced)
    let s' := ((((s.modCore tile (·.mapRow (s.rmapBank tile) (s.rmapRow tile) e)).endRemap tile 0).count
      (.spad tile.val) 9 1).log (remapReport tile (s.rmapBank tile) (s.rmapRow tile).toNat)).remapDue tile false
    RemapEnds s tile 0 more s' ∧
      (s'.core tile).remap =
        Tab.set none (s.core tile).remap (8 * s.rmapBank tile + e) (some ⟨s.rmapRow tile, false⟩) := by
  intro more s'
  have hcores : ((((s.modCore tile (·.mapRow (s.rmapBank tile) (s.rmapRow tile) e)).endRemap tile 0).count
      (.spad tile.val) 9 1).log (remapReport tile (s.rmapBank tile) (s.rmapRow tile).toNat)).cores =
        ((s.modCore tile (·.mapRow (s.rmapBank tile) (s.rmapRow tile) e)).endRemap tile 0).cores :=
    (KeepsTiles.log ..).cores.trans (State.count_cores ..)
  refine ⟨.remapDue (.recorded (endRemap_ends _ tile 0).of_mapRow hcores ((Records.count ..).trans (.log ..))), ?_⟩
  rw [State.remapDue_core, State.core_congr hcores]
  refine (State.endRemap_remap ..).trans ?_
  rw [State.core_modCore_same]
  rfl

theorem State.endRemap_board (s : State) (t : Tile) (result : BitVec 2) : (s.endRemap t result).board = s.board := by
  obtain ⟨mem, marks, late, h⟩ := State.bankResumed_eq (s.modCore t fun k => { k with
    rmapBusy := false, rmapResult := result, nominees := k.otherNominees (s.rmapBank t) (s.rmapRow t) }) t
  rw [State.endRemap, State.raise_board, h]
  rfl

/-! ### Writes of SPAD_RMAP_CMD (R319, R323, R494) -/

section
variable {s : State} {w : Who} {tile : Tile} (data : Word)

theorem spadRmapGo_dropped (h : s.mayWrite w (.spad tile.val) = false) :
    exec (.spadRmapGo w tile data) s = .next s := by
  show execSpadRmapGo w tile data s = _
  simp only [execSpadRmapGo, h, Bool.false_eq_true, if_false]

variable (hmay : s.mayWrite w (.spad tile.val) = true)
include hmay

theorem spadRmapGo_held (h : s.gatedPage (.spad tile.val) = true) : exec (.spadRmapGo w tile data) s =
    .next (s.holdWrite (.spad tile.val) ⟨w, 0x050, .b4, (data ||| 0x10000).setWidth 64⟩) := by
  show execSpadRmapGo w tile data s = _
  simp only [execSpadRmapGo, hmay, State.accept, h, if_true]

theorem spadRmapGo_taken (h : s.gatedPage (.spad tile.val) = false) : exec (.spadRmapGo w tile data) s =
    .next (s.writeRmap w tile (data ||| 0x10000)) := by
  show execSpadRmapGo w tile data s = _
  simp only [execSpadRmapGo, hmay, State.accept, h, Bool.false_eq_true, if_false, if_true]

end

theorem State.writeRmap_busy {s : State} {tile : Tile} (w : Who) (data : Word) (h : (s.core tile).rmapBusy = true) :
    s.writeRmap w tile data = s := by
  simp only [State.writeRmap, h, Bool.or_true, if_true]

/-- A function starts no remap. -/
theorem State.writeRmap_func (s : State) (f : Func) (tile : Tile) (data : Word) :
    (s.writeRmap (.func f) tile data).cores = s.cores := by
  have hfunc : (Who.func f == Who.firmware) = false := rfl
  simp only [State.writeRmap, hfunc, Bool.false_and, Bool.false_eq_true, if_false]
  split <;> rfl

/-- GO of system firmware starts one. -/
theorem State.writeRmap_go {s : State} {tile : Tile} (data : Word) (h : (s.core tile).rmapBusy = false) :
    s.writeRmap .firmware tile (data ||| 0x10000) =
      (s.modPage (pageNo (.spad tile.val)) (·.withRmap (data &&& 0x3FFF))).modCore tile
        fun k => { k with rmapBusy := true } := by
  have hgo : bit (data ||| 0x10000) 16 = true := by
    rw [bit, BitVec.getLsbD_or, Bool.or_eq_true]
    exact .inr (by decide)
  have hfields : (data ||| 0x10000) &&& 0x3FFF = data &&& 0x3FFF := by
    rw [BitVec.and_comm, BitVec.and_or_distrib_left, BitVec.and_comm]
    exact BitVec.or_zero
  have hfirmware : (Who.firmware == Who.firmware) = true := rfl
  simp only [State.writeRmap, State.mayWrite, h, hgo, hfields, hfirmware, Bool.not_true, Bool.or_false,
    Bool.and_true, Bool.false_eq_true, if_false, if_true]
  rfl

/-! ### Clears (R321) -/

/-- A clear leaves its contexts, its remap table, and nothing in its scratchpads. -/
theorem State.beginClear_core (s : State) (t : Tile) : ∃ waiters, (s.beginClear t).core t =
    { (s.core t).cleared with clearing := true, waiters := waiters } :=
  ⟨_, State.core_modCore_same ..⟩

/-- Settles O41: a correctable error by what it counts and whether it nominates, a remap by the case it ends in, and a
clear by the core that it leaves. -/
theorem repairEvents : Obligations.RepairEvents := by
  unfold Obligations.RepairEvents
  intro s tile k c
  refine ⟨fun addr h => ?error, fun addr h => eccWriteBack_none s h, ?halving, fun data hidle hopen => ?start,
    fun w data hbusy hwrite => ?busy, fun w data hmay hgated => ?held, fun f data => ?fn, remapDone_idle,
    fun hbusy => ?done, ?clear, fun f => rfl, ?cleared⟩
  case error =>
    have hexec := eccWriteBack_corrects s tile h
    have hcore := s.corrected_core tile addr.toNat
    simp only [hcore, State.corrected_watchLimit] at hexec
    by_cases hnominate : s.watchLimit tile 0 ≤ (k.watched addr.toNat).errorsOf addr.toNat
    · rw [if_pos hnominate] at hexec
      refine ⟨_, hexec, fun u hu => (State.nominate_core_ne _ _ _ hu).trans (s.corrected_core_ne _ _ hu), ?_,
        ?_, fun _ => State.nominate_irq ..⟩
      · rw [State.nominate_core, hcore]
        refine ⟨rfl, fun hfew => absurd hnominate (Nat.not_le.mpr hfew),
          fun _ => Core.nominate_congr (k := k.watched addr.toNat) (q := k) rfl _, fun _ hforce => ?_⟩
        exact Bool.or_eq_true_iff.mpr (.inr (Core.nominate_forced _ (decide_eq_true hforce)))
      · rw [State.nominate_counters]
        exact s.corrected_counter tile addr.toNat
    · rw [if_neg hnominate] at hexec
      refine ⟨_, hexec, fun u hu => s.corrected_core_ne _ _ hu, ?_, s.corrected_counter tile addr.toNat, ?_⟩
      · rw [hcore]
        exact ⟨rfl, fun _ => ⟨rfl, rfl⟩, fun hmany => absurd hmany hnominate, fun hmany => absurd hmany hnominate⟩
      · rw [hcore]
        exact fun hmany => absurd hmany hnominate
  case halving =>
    refine ⟨_, rfl, fun u hu => State.core_modCore_ne _ _ hu, ?_⟩
    rw [State.core_modCore_same]
    refine ⟨rfl, List.length_map .., fun i hi => ?_⟩
    rw [List.getElem?_map, List.getElem?_eq_getElem hi]
    rfl
  case start =>
    refine ⟨_, (spadRmapGo_taken data rfl hopen).trans (congrArg _ (State.writeRmap_go data hidle)),
      fun u hu => State.core_modCore_ne _ _ hu, State.core_modCore_same .., ?_⟩
    rw [State.staged, State.page, State.modCore_pages, ← State.page, State.page_modPage_same]
    exact Tab.get_set_same ..
  case busy =>
    obtain hopen | hno := hwrite
    · cases hmay : s.mayWrite w c with
      | false => exact spadRmapGo_dropped data hmay
      | true => exact (spadRmapGo_taken data hmay hopen).trans (congrArg _ (State.writeRmap_busy w _ hbusy))
    · exact spadRmapGo_dropped data hno
  case held =>
    refine ⟨_, spadRmapGo_held data hmay hgated, rfl, ?_⟩
    rw [State.holdWrite, State.page_modPage_same]
  case fn =>
    cases hmay : s.mayWrite (.func f) c with
    | false => exact ⟨_, spadRmapGo_dropped data hmay, rfl⟩
    | true =>
      cases hgated : s.gatedPage c with
      | false => exact ⟨_, spadRmapGo_taken data hmay hgated, State.writeRmap_func ..⟩
      | true => exact ⟨_, spadRmapGo_held data hmay hgated, rfl⟩
  case done =>
    intro bank row has left ends
    have hmapped : k.rowMapped bank row.toNat = true ↔ ∃ e, e < 8 ∧ has e := k.rowMapped_iff bank row
    have hfresh (hno : ∀ e, e < 8 → ¬ has e) : k.rowMapped bank row.toNat = false := by
      rw [← Bool.not_eq_true, hmapped]
      rintro ⟨e, he, hhas⟩
      exact hno e he hhas
    refine ⟨fun hrow => ?noRow, fun e hrow he hhas => ?mapped, fun hrow hno hfull => ?exhausted,
      fun e hrow hno he hfree hfirst => ?maps⟩
    case noRow =>
      exact ⟨_, remapDone_noRow hbusy hrow, (endRemap_ends s tile 3).remapDue,
        (State.remapDue_remap ..).trans (State.endRemap_remap ..)⟩
    case mapped =>
      exact ⟨_, remapDone_mapped hbusy hrow (hmapped.mpr ⟨e, he, hhas⟩), (endRemap_ends s tile 2).remapDue,
        (State.remapDue_remap ..).trans (State.endRemap_remap ..)⟩
    case exhausted =>
      exact ⟨_, remapDone_exhausted hbusy hrow (hfresh hno) (Core.spareRow_none hfull), endRemap_ends s tile 1,
        State.endRemap_board .., State.endRemap_remap ..⟩
    case maps =>
      obtain ⟨hends, hremap⟩ := RemapEnds.mapped (s := s) (tile := tile) e
      refine ⟨_, remapDone_maps hbusy hrow (hfresh hno) (Core.spareRow_first he hfree hfirst), hends, fun i => ?_⟩
      rw [hremap]
      by_cases hi : i = 8 * bank + e
      · rw [if_pos hi, hi]
        exact Tab.get_set_same ..
      · rw [if_neg hi]
        exact Tab.get_set_ne _ _ _ hi
  case clear =>
    obtain ⟨waiters, hcore⟩ := s.beginClear_core tile
    refine ⟨_, rfl, fun u hu => State.core_modCore_ne _ _ hu, ?_⟩
    rw [hcore]
    exact ⟨rfl, rfl, rfl, fun a => ⟨rfl, rfl, rfl, rfl⟩⟩
  case cleared =>
    obtain ⟨mem, marks, late, hcore, -, hother⟩ :=
      State.bankResumed_core (s.modCore tile fun k => { k with clearing := false }) tile
    have hbegin : (s.modCore tile fun k => { k with clearing := false }).core tile = { k with clearing := false } :=
      State.core_modCore_same ..
    rw [hbegin] at hcore
    refine ⟨_, rfl, fun u hu => (hother u hu).trans (State.core_modCore_ne _ _ hu), ?_, fun hnone => ?_,
      fun a bs hone hidle => ?_⟩
    · rw [hcore]
      rfl
    · rw [State.bankResumed_self (by rw [hbegin]; exact hnone), hbegin]
    · rw [State.bankResumed_one (by rw [hbegin]; exact hone) (by rw [hbegin]) (by rw [hbegin]; exact hidle), hbegin]

end Sys2Proof.Machine
end

section
/-! PROOFS. The DMA engine: its channels' events (O42). -/

namespace Sys2Proof.Machine

/-! ### A descriptor that completes, with a link that is no scratchpad address -/

/-- 64 bytes moved within AM, END clear: LINK names 0x300000, between WM and AM. -/
def linksNowhere : BitVec 512 := pack 512 ([0x400000, 0x500000, 64, 1, 64, 64, 0, 0x300000] : List Word)

/-- The `dma` command of context 0 with a copy of that descriptor. -/
def startsChain : DmaCmd := ⟨.copied, linksNowhere, 0, 0, 0, Vector.replicate 8 0, none⟩

/-- A channel that runs that command, each of its writes acknowledged. -/
def allAcknowledged : DmaCh where
  run := .active
  phase := .moving
  cur := some startsChain
  desc := linksNowhere
  pos := 64

/-- The machine after reset, but for channel 0 of core 0, which is to complete that descriptor. -/
def linkDue : State := State.reset.modCore 0 fun k => { k with dma := k.dma.set 0 allAcknowledged }

theorem linkDue_runs : linkDue.frozen 0 = false ∧ (linkDue.core 0).dmaActive = some 0 := by decide +kernel

/-- Its transfer has nothing left to do, and is neither a COMPARE nor a DECRYPT. -/
theorem allAcknowledged_ends : allAcknowledged.xfer.writes = true ∧
    allAcknowledged.pos = allAcknowledged.xfer.total ∧ (dmaDesc linksNowhere).mode ≠ 10 ∧
    (dmaDesc linksNowhere).irqHalf = false := by decide +kernel

/-- The descriptor completes, but its link cannot be followed: the channel stops in ERROR with status 0x4C (R342). -/
theorem dmaReadbackDone_fails_at_link : ∃ t, exec (.dmaReadbackDone 0) linkDue = .next t ∧
    ((t.core 0).dma.get 0).run = .error ∧ ((t.core 0).dma.get 0).status = 0x4C :=
  ⟨_, rfl, by decide +kernel⟩

/-- Refutes O42: the clause of the read-back claims that every channel that completes a descriptor is left with status
0. A copied command whose END is clear goes on at its LINK at once, and where LINK is no address of the core's own
scratchpads the channel is left with 0x4C. -/
theorem not_dmaEvents : ¬ Obligations.DmaEvents := by
  unfold Obligations.DmaEvents
  intro h
  obtain ⟨-, -, -, -, -, -, readback, -⟩ := h linkDue 0 0
  obtain ⟨hfrozen, hactive⟩ := linkDue_runs
  obtain ⟨hwrites, hissued, hmode, hhalf⟩ := allAcknowledged_ends
  obtain ⟨s', hexec, -, hstatus, -⟩ := readback startsChain hactive rfl hwrites hissued rfl rfl hmode
    (fun hdue => absurd (hhalf.symm.trans hdue) nofun) hfrozen nofun
  obtain ⟨t, hexec', -, hfails⟩ := dmaReadbackDone_fails_at_link
  obtain rfl : s' = t := Host.Outcome.next.inj (hexec.symm.trans hexec')
  exact absurd (hstatus.symm.trans hfails) (by decide)

end Sys2Proof.Machine
end

section
/-! PROOFS. Dispatch and synchronisation: the `sync` rows (O27), and the dispatcher's events (O44). -/

namespace Sys2Proof.Machine

/-! ### Outcomes of a bundle of one word: a stall, an exception, an effect off the cores -/

section
variable {i : Instr} {b : Issue} {o : Op} {s : State} {c : CtxId}

/-- The law of stalls: a row whose one operation stalls, and counts nothing, waits. -/
theorem waits_stall (he : exec i s = .next (issue b o s)) (h : Stands b o s c)
    (hr : opRes (envOf b s c) 1 o = .stall id) : Waits i b s c := by
  refine ⟨_, he, ?_⟩
  rw [issue_ready h, hr, settle_stall]
  exact ⟨rfl, rfl, .refl _ _, fun _ _ => rfl, fun _ _ => rfl, _, _, _, _, rfl⟩

/-- An exception of a lone operation that updates no base has no other effect, whatever its code. -/
theorem settle_exc_baseless (s : State) (e : Env) (n : Nat) (code : Byte) (a : Word)
    (hbase : ∀ x, Op.baseUpdate o x = id) (hres : e.x.resuming = false) (hsb : (s.core e.t).sb.length ≤ 16)
    (hsd : (s.ctx e.t e.c).sending = []) :
    s.settleBundle e [o] n [.exc code a false id] = s.fail e.t e.c code a false := by
  cases hkeeps : keepsBase code with
  | false => exact settle_exc s e o n code a hkeeps hres hsb hsd
  | true =>
    have hroom : sbOver e.core (s.core e.t) = false := by simp [sbOver, Nat.not_lt.2 hsb]
    have hbases : s.modCtx e.t e.c (fun y => y.keepBases [o] e.x) = s :=
      State.modCtx_self _ _ _ (congrFun (hbase e.x) _)
    have hdrop : otherThanVector [o] [.exc code a false id] code = false := by
      cases hv : Op.vectorAccess o <;> simp [otherThanVector, hv]
    have hvelem : s.modCtx e.t e.c (fun x => x.dropVelem false code) = s :=
      State.modCtx_self _ _ _ (by simp [Ctx.dropVelem])
    simp [State.settleBundle, lowestExc, hkeeps, hres, hroom, State.settleFar_self hsb hsd, raisedHere, hbases, hdrop,
      hvelem, hsd]

/-- The law of traps for an operation that updates no base. -/
theorem raises_baseless {code : Byte} {a : Word} (he : exec i s = .next (issue b o s)) (h : Stands b o s c)
    (hr : opRes (envOf b s c) 1 o = .exc code a false id) (hbase : ∀ x, Op.baseUpdate o x = id)
    (hexl : (s.ctx (s.tileOf b.core) c).exl = false) : Raises i b s c code a (s.ctx (s.tileOf b.core) c) := by
  refine ⟨_, he, ?_⟩
  rw [issue_ready h, hr, settle_exc_baseless _ _ _ _ _ hbase h.fresh.1 (Nat.le_succ_of_le h.room.1) h.sent]
  exact fail_enters hexl h.runs

/-- The law of rows that act off the cores: the row leaves its context's registers, and besides, the state `r` of its
effect. -/
theorem leaves_of_effect {r : State} {f : State → State} (he : exec i s = .next (issue b o s)) (h : Ready b o s c)
    (hne : o ≠ .ctxEnd) (hr : opRes (envOf b s c) 1 o = .ok f .seq) (hf : f s = r) (hcores : r.cores = s.cores) :
    Claims.leaves i b s c (s.ctx (s.tileOf b.core) c) r := by
  refine ⟨_, he, ?_⟩
  rw [issue_ready h.toStands, hr, settle_ok, hf]
  have hcore : r.core (s.tileOf b.core) = s.core (s.tileOf b.core) := State.core_congr hcores _
  have hctx : r.ctx (s.tileOf b.core) c = s.ctx (s.tileOf b.core) c := congrArg (·.ctxs.get c) hcore
  have hlands : Landed r (s.complete (envOf b s c) [o] 1 (r, .seq)) (s.tileOf b.core) c
      ((s.ctx (s.tileOf b.core) c).pc + 4) (s.ctx (s.tileOf b.core) c) := by
    refine complete_lands (e := envOf b s c) hne h.fresh.1 ?room ?sent ?loop (.inl ?fresh) ?runs ?goes
      (Core.running_run h.runs) ?cycles ?still
    case room => exact hcore.symm ▸ Nat.le_succ_of_le h.room.1
    case sent => exact hctx.symm ▸ h.sent
    case loop => exact hctx.symm ▸ h.inBody
    case fresh => exact hctx.symm ▸ h.fresh.1
    case runs => exact hcore.symm ▸ h.runs
    case goes => exact fun poison => hctx.symm ▸ Ctx.goOn_seq _ h.inBody
    case cycles => exact congrArg Ctx.cycles hctx.symm
    case still => exact congrArg Ctx.resuming hctx.symm
  exact ⟨hlands.ctx, hlands.rest, hlands.pages, hlands.cores, hlands.ctxs, hlands.core⟩

end

/-! ### What a block leaves -/

@[simp] theorem State.reselect_sync (s : State) (t : Tile) : (s.reselect t).sync = s.sync := by
  obtain h | ⟨d, -, h | h⟩ := s.reselect_cases t <;> rw [h] <;> simp

@[simp] theorem State.reselect_hbm (s : State) (t : Tile) : (s.reselect t).hbm = s.hbm := by
  obtain h | ⟨d, -, h | h⟩ := s.reselect_cases t <;> rw [h] <;> simp

theorem State.modCore_keeps {β : Type} (g : Core → β) (s : State) (t u : Tile) {f : Core → Core}
    (h : g (f (s.core t)) = g (s.core t)) : g ((s.modCore t f).core u) = g (s.core u) := by
  by_cases hu : u = t
  · rw [hu, State.core_modCore_same, h]
  · rw [State.core_modCore_ne _ _ hu]

theorem State.reselect_mem (s : State) (t u : Tile) : ((s.reselect t).core u).mem = (s.core u).mem := by
  obtain h | ⟨d, -, h | h⟩ := s.reselect_cases t <;> rw [h]
  · exact State.modCore_keeps _ _ _ _ rfl
  · rw [State.core_congr (State.count_cores ..)]
    exact State.modCore_keeps _ _ _ _ rfl

section
variable (s : State) (t : Tile) (c : CtxId) {code : BitVec 4} (w : CtxWait) (hhbm : code ≠ 2) (hcore : code ≠ 1)
include hhbm hcore

theorem State.blockCtx_sync : (s.blockCtx t c code w).sync = s.sync := by
  rw [s.blockCtx_uncounted t c w hhbm hcore, State.reselect_sync, State.modCtx_sync]

theorem State.blockCtx_hbm : (s.blockCtx t c code w).hbm = s.hbm := by
  rw [s.blockCtx_uncounted t c w hhbm hcore, State.reselect_hbm, State.modCtx_hbm]

theorem State.blockCtx_mem (u : Tile) : ((s.blockCtx t c code w).core u).mem = (s.core u).mem := by
  rw [s.blockCtx_uncounted t c w hhbm hcore, State.reselect_mem]
  exact State.modCore_keeps _ _ _ _ rfl

end

/-! ### The outcome of a `sync` form (R132, R383, R385) -/

/-- The object at an address. -/
def objAt (a : Word) : BitVec 13 := BitVec.ofNat 13 ((a.toNat - 0x40000) / 8)

/-- The address names an object of the function. -/
def State.namesObj (s : State) (f : Func) (a : Word) : Prop :=
  0x40000 ≤ a.toNat ∧ a.toNat < 0x50000 ∧ a.toNat % 8 = 0 ∧ s.syncOwner (objAt a) = some f

theorem State.not_namesObj {s : State} {f : Func} {a : Word} : ¬ s.namesObj f a ↔
    a.toNat < 0x40000 ∨ 0x50000 ≤ a.toNat ∨ a.toNat % 8 ≠ 0 ∨ s.syncOwner (objAt a) ≠ some f := by
  rw [State.namesObj, Classical.not_and_iff_not_or_not, Classical.not_and_iff_not_or_not,
    Classical.not_and_iff_not_or_not, Nat.not_le, Nat.not_lt]

theorem Ctx.pair_eq (x : Ctx) (d : BitVec 5) : x.pair d = x.rd (d + 1) ++ x.rd d := by
  have hlow := (x.rd d).isLt
  have hhigh := (x.rd (d + 1)).isLt
  apply BitVec.eq_of_toNat_eq
  refine Eq.trans ?_ (BitVec.toNat_append ..).symm
  rw [Ctx.pair, BitVec.toNat_or, BitVec.toNat_shiftLeft, BitVec.toNat_setWidth, BitVec.toNat_setWidth, Nat.or_comm,
    Nat.shiftLeft_eq, Nat.shiftLeft_eq, Nat.mod_eq_of_lt (a := (x.rd d).toNat) (by omega),
    Nat.mod_eq_of_lt (a := (x.rd (d + 1)).toNat) (by omega), Nat.mod_eq_of_lt (by omega)]

/-- The operation of a form, with its registers as operands. -/
def Env.syncOp (e : Env) (fn : SyncFn) (d : BitVec 5) : SyncOp :=
  match fn with
  | .add => .add (e.x.rd (d + 1) ++ e.x.rd d)
  | .set => .set (e.x.rd (d + 1) ++ e.x.rd d)
  | .cas => .cas (e.x.rd (d + 1) ++ e.x.rd d) (e.x.rd (d + 2 + 1) ++ e.x.rd (d + 2))
  | .wait => .wait (e.x.rd (d + 1) ++ e.x.rd d)
  | .rd => .read

/-- The effect of a form: its operation is on its way to object `obj`. -/
def Env.syncEffect (e : Env) (fn : SyncFn) (d : BitVec 5) (obj : BitVec 13) (s : State) : State :=
  s.sendSync ⟨.ctx e.lc e.c e.pos, e.x.func, obj, e.syncOp fn d⟩

/-- The outcome of a form on object `obj` that nothing holds back. -/
def Env.syncGoes (e : Env) (fn : SyncFn) (d : BitVec 5) (obj : BitVec 13) : Res :=
  match fn with
  | .add | .set => e.deferPoint (.ok (e.syncEffect fn d obj) .seq)
  | .cas => e.deferPoint (.block 4 (.sync e.pos obj none) (e.syncEffect fn d obj))
  | .wait => .block 4 (.sync e.pos obj (some e.s.time)) (e.syncEffect fn d obj)
  | .rd => .block 4 (.sync e.pos obj none) (e.syncEffect fn d obj)

/-- The earlier stores of the context have been performed, and none of its accesses has a fault deferred. -/
structure Env.Clear (e : Env) : Prop where
  stored : e.core.sbOwn e.c = false
  acked : e.x.stores = 0
  unfaulted : e.x.deferred = none

section
variable {e : Env} (d : BitVec 5) {ab : BitVec 4} {off : BitVec 12}

/-- An address that names no object of the context's function raises IOSPACE. -/
theorem semSync_unnamed {fn : SyncFn} (h : ¬ e.s.namesObj e.x.func (e.x.ra ab + off.signExtend 32)) :
    semSync e fn d ab off = .exc 0x07 (e.x.ra ab + off.signExtend 32) false id :=
  if_pos (State.not_namesObj.mp h)

variable (h : e.s.namesObj e.x.func (e.x.ra ab + off.signExtend 32)) (hfresh : e.x.done = [])
include h hfresh

/-- A form that has not been answered waits for its context's stores if it has release semantics, and else goes. -/
theorem semSync_named {fn : SyncFn} : semSync e fn d ab off =
    if (fn == .add || fn == .set || fn == .cas) && (e.core.sbOwn e.c || e.x.stores != 0) then .stall id
    else e.syncGoes fn d (objAt (e.x.ra ab + off.signExtend 32)) := by
  have hdone : e.doneVal = none := by rw [Env.doneVal, hfresh]; rfl
  refine (if_neg (mt State.not_namesObj.mpr (not_not_intro h))).trans ?_
  simp only [hdone, Ctx.pair_eq]
  cases fn <;> rfl

/-- Behind stores of its context that are under way, a form that releases stalls. -/
theorem semSync_held {fn : SyncFn} (hrel : fn = .add ∨ fn = .set ∨ fn = .cas)
    (hheld : ¬ (e.core.sbOwn e.c = false ∧ e.x.stores = 0)) : semSync e fn d ab off = .stall id := by
  have hstores : (e.core.sbOwn e.c || e.x.stores != 0) = true := by
    rw [Bool.or_eq_true, bne_iff_ne]
    rwa [Classical.not_and_iff_not_or_not, Bool.not_eq_false] at hheld
  rw [semSync_named d h hfresh, hstores]
  obtain rfl | rfl | rfl := hrel <;> rfl

/-- `sync.add` and `sync.set` send their operation and go on. -/
theorem semSync_posts {fn : SyncFn} (hclear : e.Clear) (hfn : fn = .add ∨ fn = .set) : semSync e fn d ab off =
    .ok (e.syncEffect fn d (objAt (e.x.ra ab + off.signExtend 32))) .seq := by
  obtain ⟨hstored, hacked, hunfaulted⟩ := hclear
  rw [semSync_named d h hfresh, hstored, hacked]
  obtain rfl | rfl := hfn <;> simp [Env.syncGoes, Env.deferPoint, hunfaulted]

/-- `sync.cas`, `sync.wait` and `sync.rd` send theirs and block; of them `sync.wait` notes when. -/
theorem semSync_asks {fn : SyncFn} {since : Option DWord} (hfn : (fn = .cas ∧ e.Clear ∧ since = none) ∨
      (fn = .wait ∧ since = some e.s.time) ∨ (fn = .rd ∧ since = none)) :
    let obj := objAt (e.x.ra ab + off.signExtend 32)
    semSync e fn d ab off = .block 4 (.sync e.pos obj since) (e.syncEffect fn d obj) := by
  intro obj
  rw [semSync_named d h hfresh]
  obtain ⟨rfl, ⟨hstored, hacked, hunfaulted⟩, rfl⟩ | ⟨rfl, rfl⟩ | ⟨rfl, rfl⟩ := hfn
  · simp [hstored, hacked, Env.syncGoes, Env.deferPoint, hunfaulted, obj]
  · rfl
  · rfl

end

/-! ### The `sync` rows (R383, R385) -/

/-- The law of forms that block: the operation is on its way, and its context blocks with code 4. -/
theorem asks_block {i : Instr} {b : Issue} {o : Op} {s : State} {c : CtxId} {fn : SyncFn} {d : BitVec 5}
    {obj : BitVec 13} {since : Option DWord} (he : exec i s = .next (issue b o s)) (h : Ready b o s c)
    (hr : opRes (envOf b s c) 1 o = .block 4 (.sync 0 obj since) ((envOf b s c).syncEffect fn d obj)) :
    ∃ s', exec i s = .next s' ∧ s'.ctx (s.tileOf b.core) c =
        { s.ctx (s.tileOf b.core) c with run := .blocked, block := 4, wait := .sync 0 obj since } ∧
      s'.sync = ((envOf b s c).syncEffect fn d obj s).sync ∧ s'.board = s.board ∧ s'.hbm = s.hbm ∧
      ∀ u, (s'.core u).mem = (s.core u).mem := by
  refine ⟨_, he, ?_⟩
  rw [issue_ready h.toStands, hr, settle_block]
  exact ⟨State.blockCtx_ctx _ _ _ _ (by decide) (by decide), State.blockCtx_sync _ _ _ _ (by decide) (by decide),
    State.blockCtx_board _ _ _ _ (by decide) (by decide), State.blockCtx_hbm _ _ _ _ (by decide) (by decide),
    State.blockCtx_mem _ _ _ _ (by decide) (by decide)⟩

/-- Settles O27: by what the address names and what holds the form back, through the law of its outcome. -/
theorem syncRows : Obligations.SyncRows := by
  unfold Obligations.SyncRows
  intro b s c d ab off t k x at_ a obj pair named clear sent posts asks
  let e := envOf b s c
  have hnames : e.s.namesObj e.x.func (e.x.ra ab + off.signExtend 32) ↔ named := Iff.rfl
  have hasks (fn : SyncFn) (since : Option DWord) {i : Instr} (he : exec i s = .next (issue b (.sync fn d ab off) s))
      (h : Ready b (.sync fn d ab off) s c)
      (hr : semSync e fn d ab off = .block 4 (.sync 0 obj since) (e.syncEffect fn d obj)) :
      asks i (e.syncOp fn d) since := asks_block he h hr
  refine ⟨fun hnamed hclear hunfaulted => ?clear, fun hnamed => ?requests, fun hnamed hheld => ?held,
    fun hunnamed hexl => ?unnamed⟩
  case clear =>
    obtain ⟨hstored, hacked⟩ := hclear
    have hgoes : e.Clear := ⟨hstored, hacked, hunfaulted⟩
    have hobj := hnames.mpr hnamed
    have hposts (fn : SyncFn) {i : Instr} (he : exec i s = .next (issue b (.sync fn d ab off) s))
        (hfn : fn = .add ∨ fn = .set) (h : Ready b (.sync fn d ab off) s c) : posts i (e.syncOp fn d) :=
      leaves_of_effect he h nofun (semSync_posts d hobj h.fresh.2 hgoes hfn) rfl rfl
    exact ⟨hposts .add rfl (.inl rfl), hposts .set rfl (.inr rfl),
      fun h => hasks .cas none rfl h (semSync_asks d hobj h.fresh.2 (.inl ⟨rfl, hgoes, rfl⟩))⟩
  case requests =>
    have hobj := hnames.mpr hnamed
    exact ⟨fun h => hasks .wait _ rfl h (semSync_asks d hobj h.fresh.2 (.inr (.inl ⟨rfl, rfl⟩))),
      fun h => hasks .rd _ rfl h (semSync_asks d hobj h.fresh.2 (.inr (.inr ⟨rfl, rfl⟩)))⟩
  case held =>
    have hobj := hnames.mpr hnamed
    have hwaits (fn : SyncFn) {i : Instr} (he : exec i s = .next (issue b (.sync fn d ab off) s))
        (hfn : fn = .add ∨ fn = .set ∨ fn = .cas) (h : Ready b (.sync fn d ab off) s c) : Waits i b s c :=
      waits_stall he h.toStands (semSync_held d hobj h.fresh.2 hfn hheld)
    exact ⟨hwaits .add rfl (.inl rfl), hwaits .set rfl (.inr (.inl rfl)), hwaits .cas rfl (.inr (.inr rfl))⟩
  case unnamed =>
    have hraises (fn : SyncFn) {i : Instr} (he : exec i s = .next (issue b (.sync fn d ab off) s))
        (h : Ready b (.sync fn d ab off) s c) : Raises i b s c 0x07 at_ x :=
      raises_baseless he h.toStands (semSync_unnamed d (mt hnames.mp hunnamed)) (fun _ => rfl) hexl
    exact ⟨hraises .add rfl, hraises .set rfl, hraises .cas rfl, hraises .wait rfl, hraises .rd rfl⟩

/-! ### The record of a job that a core has given back (R368, R539) -/

/-- A job of ring 0 whose DEADLINE is 0. It was assigned at time 5 and has come back from its core. -/
def assignedAt5 : Job := ⟨0, 32, 0, 0, 0, .ready, false, 5⟩

/-- The machine at time 10. Ring 0 is committed, with one record reserved, and its records lie at the start of HBM, in a
channel that takes requests. -/
def ringAtHbm0 : State := { State.reset.modRing 0 fun x => { x with committed := true, reserved := 1 } with
  time := 10
  pages := [(pageNo (.dat 0), { enable := true, live := [(0x100, 0x80000000)] }),
    (pageNo (.memc 0), { enable := true })]
  hbm := { State.reset.hbm with units := State.reset.hbm.units.set 0 { tlb := [⟨0, true, 0, true, 0⟩] } } }

/-- The same with that job given back to the dispatcher, which tracks it again. -/
def givenBack : State := ringAtHbm0.giveBack assignedAt5

theorem givenBack_tracked : givenBack.tracked 0 = some assignedAt5 := by decide +kernel

theorem givenBack_ring : (givenBack.ring 0).committed = true ∧ givenBack.disp.late = [] := by decide +kernel

/-- The job's completion record can be written at once, and nothing else is written to HBM beside it. -/
theorem givenBack_place :
    let r := assignedAt5.ring.toNat
    ((givenBack.untrack 0).xlateShared (ringFn r) (givenBack.ring r).recordAt .dispatcher true 0).1 = .ok 0 ∧
      givenBack.hbmHeld (ringFn r) 0 32 = false ∧ bit (givenBack.live (.part 0) 0x090) 0 = false ∧
      ∀ i, i < 32 → givenBack.lineOk (0 + i) = true := by decide +kernel

/-- As the job retires EXPIRED, its record carries the time of its last assignment as T_START. -/
theorem givenBack_record : (givenBack.retireTracked 0 0x03 false).hbmBytes 0 32 =
    recordOf 0 1 (ringDesc 32) 0x03 none 0 5 10 := by decide +kernel

/-- Refutes O44: the clause of the retirement claims that every tracked job's record has T_START 0. One that a core has
given back keeps the time of its last assignment, which its record carries where it then expires. -/
theorem not_dispatchEvents : ¬ Obligations.DispatchEvents := by
  unfold Obligations.DispatchEvents
  intro h
  obtain ⟨-, -, -, -, -, -, -, -, -, retires⟩ := h givenBack
  obtain ⟨hcommitted, hlate⟩ := givenBack_ring
  obtain ⟨hplace, hfree, huntraced, hline⟩ := givenBack_place
  have hfst {α β : Type} {p : α × β} {a : α} (hp : p.1 = a) : p = (a, p.2) := by rw [← hp]
  obtain ⟨-, writes⟩ := retires 0 assignedAt5 0x03 0 _ givenBack_tracked hcommitted
    (fun y hy => absurd (hlate ▸ hy) List.not_mem_nil) (hfst hplace)
  obtain ⟨-, -, -, -, record, -⟩ := writes hfree huntraced
  exact absurd (givenBack_record.symm.trans (record hline)) (by decide +kernel)

end Sys2Proof.Machine
end
